-- ==== Sys2Proof/Word.lean ====
section
/-! DEFINITION. The word types of the ZRM-3 and their plainest arithmetic (R6: a word is 32 bits, little-endian, fields are
written [msb:lsb]). -/

namespace Sys2Proof

/-- R6: a word is 32 bits. -/
abbrev Word := BitVec 32

/-- One byte of a host buffer, a blob or a record. -/
abbrev Byte := BitVec 8

/-- A 64-bit detail word (syndrome, comparison, replay, digest, Bench or reset word). -/
abbrev Dword := BitVec 64

/-- Bits `[lo + w - 1 : lo]` of `n` as a number (R6). -/
def bitsOf (n lo w : Nat) : Nat := (n >>> lo) % 2 ^ w

/-- Bit `i` of `n`. -/
def bitAt (n i : Nat) : Bool := n.testBit i

/-- 1 for true, 0 for false. -/
def bit01 (b : Bool) : Nat := if b then 1 else 0

/-- A two's-complement number of `w` bits, as its bit pattern. -/
def twos (w : Nat) (i : Int) : Nat := (i % (2 ^ w : Nat)).toNat

/-- The signed number that the low `w` bits of `n` write in two's complement. -/
def signedOf (w n : Nat) : Int :=
  let m := n % 2 ^ w
  if m < 2 ^ (w - 1) then (m : Int) else (m : Int) - (2 ^ w : Nat)

/-- Saturation at `top`. -/
def sat (top n : Nat) : Nat := min n top

end Sys2Proof
end

