-- ==== Sys2Proof/Syntax.lean ====
section
/-! DEFINITION. The commands of the block: one constructor of `Instr` per row of spec/opcode_table.json, with the operands
the rules give the row. A command of an opcode row names the in-flight command it executes by queue slot and submission
entry (R75); what the step reads outside the block (host memory, tile taps, converters, frames) is an operand. Tiles are
24-bit tile addresses (R5), fields are field indices (R3). -/

namespace Sys2Proof

/-- Table 2.3: the pins with readback, and the attention button. -/
inductive PinId where
  | alertN | thermtripN | pwrcycReqN | locLed | fltLed | svcLed | attnBtn
deriving DecidableEq, Repr

/-- R94: one entry of a seam directory as read from host memory, with the field's seam entries (Table 3.11) behind it.
`reserved` is bytes 1 to 3. -/
structure DirEntry where
  field : Nat
  reserved : Nat
  entries : List Dword
deriving DecidableEq, Repr

/-- R104: one matrix-unit operand as the operand tap presents it: its raw encoding and, for MX operands, its block scale
byte. -/
structure Opnd where
  bits : Nat
  scale : Nat
deriving DecidableEq, Repr

/-- R115: the rounding mode that the operand tap reports. -/
inductive RMode where
  | nearestEven | towardZero | up | down
deriving DecidableEq, Repr

/-- R103, Table 2.10: one contraction as the guard's taps show it at its contraction-end strobe. -/
structure Contraction where
  /-- physical tile -/
  tile : Nat
  /-- format codes of A and B, Table 4.1, bit 3 for MX -/
  fmtA : Nat
  fmtB : Nat
  /-- R108: scale base presented at the clear strobe -/
  base : Int
  /-- per reduction index: one column of A (by row) and one row of B (by column) -/
  steps : List (List Opnd × List Opnd)
  /-- R112: drained accumulators, row by row, raw bits of the accumulator's width -/
  acc : List (List Nat)
  /-- output tap: rounded outputs, row by row (raw bits) -/
  outs : List (List Nat)
  /-- the outputs are binary16 (else FP32) -/
  outHalf : Bool
  mode : RMode
  /-- R398: exact values loaded at the start with the scale base they carry -/
  load : Option (List (List Int) × Int)
  /-- R398: the contraction ends in an exact export -/
  exactExport : Bool
  /-- R121: cycle of the strobe from the step's start, index within the step -/
  stepCycle : Nat
  index : Nat
  /-- Table 10.4 LOCAL: instruction byte address of the matrix instruction -/
  instrAddr : Nat
deriving DecidableEq, Repr

/-- Where an export goes (R160). -/
inductive Dest where
  | tile (logical : Nat)
  | fabricPort (port : Nat)
  | hostPort
deriving DecidableEq, Repr

/-- R106, R130: one export reaching the result gate. -/
structure Export where
  /-- physical tile of the sender -/
  tile : Nat
  /-- the 16-byte header -/
  header : List Word
  payload : List Word
  dest : Dest
  /-- field-clock cycle from the step's start, and the release cycle of the verdict it waits for (R106, R124) -/
  cycle : Nat
  release : Nat
deriving DecidableEq, Repr

/-- R105: what the guard knows of a contraction that is open when its tile reaches a seam: the format codes presented, the index in
the step and the instruction byte address of the matrix instruction. -/
structure OpenContraction where
  fmtA : Nat
  fmtB : Nat
  index : Nat
  instrAddr : Nat
deriving DecidableEq, Repr

/-- The detail that a warden reads of a source (Table 10.4, Table 10.5). -/
structure SourceDetail where
  cls : Nat
  tile : Nat
  master : Nat
  access : Nat
  loc : Word
  detail : Dword
deriving DecidableEq, Repr

/-- Which input of the warden rises (R261, R263). -/
inductive ErrSource where
  /-- the guard tree's root -/
  | guardRoot
  /-- a router's pin, with the router's status -/
  | router (d : SourceDetail)
  /-- a field-level source: seam overrun is SEAM_OVERRUN's, so deadlock, the warden's own faults, sensors -/
  | level (d : SourceDetail)
deriving DecidableEq, Repr

/-- What a PMBus regulator answers in one slot (R53, R55, R57). -/
inductive PmbusReply where
  /-- bad PEC, no acknowledge, or time-out -/
  | failed
  /-- READ_IOUT reading in amperes -/
  | iout (amps : Rat)
  /-- a trim write or CLEAR_FAULTS was acknowledged -/
  | acked
  /-- STATUS_WORD of the page -/
  | status (word : BitVec 16)
deriving DecidableEq, Repr

/-- Activity counts of one estimate period (Table 13.2), per rail of the field. -/
structure Activity where
  vcore : List Nat
  vsram : List Nat
  vlink : List Nat
deriving DecidableEq, Repr

/-- R211, R213, R214: what a Bench segment reads of the firmware image and of the tile at its end. -/
structure SegmentEnd where
  /-- digest expected of the segment's outputs, from the signed firmware image -/
  expected : Nat
  /-- SRAM_MARCH rows found failing: data rows 0 to 1,023, spare rows from 1,024 on -/
  rows : List Nat
  /-- SRAM_MARCH: the instruction SRAM does not read back the loaded image -/
  instrBad : Bool
  /-- DMA_LOOP edges found failing (0 to 3) -/
  links : List Nat
  /-- power of the tile in mW by its activity counters when the power virus ended -/
  virusMw : Nat
deriving DecidableEq, Repr

/-- Table 7.1: an exchange record as received. -/
structure Exchange where
  words : List Word
  /-- fabric port it came from -/
  port : Nat
deriving DecidableEq, Repr

/-- R405: what a measured peer says of itself during TIME_ALIGN. -/
structure PeerInfo where
  port : Nat
  serial : Nat
  /-- the peer's path uncertainty to the root it knows, in ps -/
  pathUncert : Nat
  /-- the lowest serial the peer knows of, and the wafers counted in its tree -/
  rootSerial : Nat
  treeSize : Nat
  depth : Nat
  /-- the peer has taken this wafer as its parent -/
  child : Bool
  /-- offset of the peer's clock to the root, ns, and its rate, ppb -/
  theta : Int
  rate : Int
deriving DecidableEq, Repr

/-- R413: a compute command's boundary. -/
structure ComputeCmd where
  layer : Nat
  op : Nat
  startSeam : Nat
  endSeam : Nat
deriving DecidableEq, Repr

/-- R415, R416: cycles that an engine's tap shows for a step, beside contractions and gate waits: logical place, engine (0 matrix,
1 vector, 2 DMA, 3 router), kind (0 BUSY, 8 + r STALL with reason r of Table 16.1) and cycles. -/
structure EngineTap where
  place : Nat
  engine : Nat
  kind : Nat
  cycles : Nat
deriving DecidableEq, Repr

/-- R425: what the guards of a field have counted of the step in progress when a freeze or thaw strikes it: its cycles and its engines' taps
since the step began, or since the last such edge in it. -/
structure FreezeCut where
  f : Nat
  cycles : Nat
  taps : List EngineTap
deriving DecidableEq, Repr

/-- R431 to R444: what a stage's work found, for the report (Table 17.4) and for the state it leaves. -/
structure StageFound where
  /-- the stage that ends is one that excluded fields repeat (R369, R451), not the one in progress -/
  redo : Bool
  /-- Table 17.3; 0 none -/
  cause : Nat
  /-- the cause makes a wafer failure (S0, S1) -/
  waferFail : Bool
  /-- fields excluded at this stage -/
  excluded : List Nat
  durationMs : Nat
  /-- S3: fields that passed the quick test -/
  quickPass : List Nat
  /-- S3: tiles that failed the quick test -/
  quickFail : List Nat
  /-- S3: links to switch, as (physical tile, edge); links found dead after that are derived -/
  links : List (Nat × Nat)
  /-- S3: faulty routers -/
  routers : List Nat
  /-- S3: trained fabric ports and lanes in sync -/
  ports : List Nat
  lanes : List Nat
  /-- S4: failing rows (physical tile, row) and tiles failing beyond rows -/
  rows : List (Nat × Nat)
  badTiles : List Nat
  /-- S4: hot-corner node 0 lowest reached (1/16 degree) and corners cut short -/
  hotLow : Nat
  cutShort : Nat
  /-- S5: recorded Fmax each tile passes at 0.79 V (only tiles that fail at their recorded Fmax) -/
  passes : List (Nat × Nat)
  /-- S5: outliers of R443 -/
  outliers : List Nat
  /-- S5: V_char per field: (field, rung MHz, mV) -/
  vchar : List (Nat × Nat × Nat)
  /-- S0 and S2: diode readings per field (84 for the hub): four readings, none for a failed read -/
  diodes : List (Nat × List (Option Int))
  /-- S1: Armoire unsealed, SHA-256 of the firmware image (8 words) -/
  unsealed : Bool
  image : List Word
  /-- S2: starts repeated -/
  repeats : Nat
deriving DecidableEq, Repr

/-- R431, R64, R44, R328: what the block finds when the hub feed rises. -/
structure PowerOnFound where
  lidOpen : Bool
  buttonLow : Bool
  smbAddrHigh : Bool
  /-- the NOR answers (R59) and its erase sector is 128 KiB -/
  norFails : Nat  -- R59: failed attempts in a row to bring the NOR up, 3 to declare it failed
  norBig : Bool
  /-- PGOOD_Z levels per zone, segments answering, segments accepting MFR_SPECIFIC_00 -/
  pgood : List Bool
  pmbus : List Bool
  mfr : List Bool
  hubDiodes : List (Option Int)
deriving DecidableEq, Repr

/-- R62: why a service session ends. -/
inductive SvcEnd where
  | vbusLost | busReset | idle
deriving DecidableEq, Repr

/-- R385: the nine trip comparators. -/
inductive TripSource where
  | zone (z : Nat)
  | hub
deriving DecidableEq, Repr

/-- A record handed to the Cabinet from outside a step of this table: type code, tenant, partition, body words. -/
structure RecIn where
  typ : Nat
  tenant : Nat
  part : Option Nat
  words : List Word
deriving DecidableEq, Repr

/-- One constructor per row of spec/opcode_table.json. `q e` are queue slot (0-127) and submission entry of the in-flight
command; `f` is a field index; `p` a partition; `t` a tenant. -/
inductive Instr where
  -- the aperture (R471 to R484)
  | sqDoorbell (t qnum : Nat) (value : Word)
  | cqDoorbell (t qnum : Nat) (value : Word)
  -- the front end (R79 to R92, R486, R487)
  | commandFetch (q : Nat) (words : List Word)
  | orderedCommandStart (q e : Nat)
  | fwCommandDispatch
  | operationOutcome (handle : Nat)
  | nop (q e : Nat)
  | fence (q e : Nat)
  -- map opcodes
  | mapGridLoad (q e : Nat) (dir : List DirEntry)
  | mapGridDefine (q e : Nat)
  | unmapUnload (q e : Nat)
  | unmapDissolve (q e : Nat)
  | queryMap (q e : Nat)
  -- policy opcodes
  | checkPolicy (q e : Nat)
  | spotRate (q e : Nat)
  | redundancy (q e : Nat)
  | replayPolicy (q e : Nat)
  -- digests (R177 to R200)
  | digestDefine (q e : Nat) (masks : List (BitVec 1024))
  | digestDefineReadDone (q e : Nat) (tiles : List (List Word))
  | digestCompare (q e : Nat)
  | expel (q e : Nat)
  -- Bench opcodes
  | benchSchedule (q e : Nat)
  | benchRun (q e : Nat)
  | benchResult (q e : Nat)
  -- Hutch opcodes
  | quarantine (q e : Nat)
  | release (q e : Nat)
  | spareStatus (q e : Nat)
  | sigExport (q e : Nat)
  -- reset, hang, Cabinet, power, thermal opcodes
  | reset (q e : Nat)
  | heartbeatCfg (q e : Nat)
  | logOpen (q e : Nat)
  | logClear (q e : Nat)
  | dumpFetch (q e : Nat)
  | powerCap (q e : Nat)
  | opmode (q e : Nat)
  | thermalRead (q e : Nat) (readings : List (Option Int))
  -- counters and timing opcodes
  | counterLatch (q e : Nat)
  | latchOutputDone (q e : Nat)
  | counterFreeze (q e : Nat)
  | freezeTrigger (p : Nat) (cuts : List FreezeCut)
  | traceCfg (q e : Nat)
  | timeAlign (q e : Nat)
  | timeAlignTreeStable (p : Nat) (peers : List PeerInfo)
  | barrierArm (q e : Nat)
  -- tenancy and security opcodes
  | tenantScrub (q e : Nat)
  | scrubComplete (handle : Nat) (stuck : List (Nat × Nat)) (durationMs : Nat)
  | keyLoad (q e : Nat) (blob : List Byte)
  | alarmAck (q e : Nat)
  -- further aperture accesses
  | legacyFmtWrite (t : Nat) (value : Word)
  | statusIrqWrite (t : Nat) (value : Word)
  | wallclockLoWrite (t : Nat) (value : Word)
  | wallclockHiWrite (t : Nat) (value : Word)
  | hostHbWrite (t : Nat) (value : Word)
  | logAdvWrite (t : Nat) (value : Word)
  | logWindowReady (t : Nat)
  | logLostClear (t : Nat) (value : Word)
  | counterLowRead (t : Nat) (offset : Nat)
  | dbBadClear (t qnum : Nat) (value : Word)
  | queueEnable (t n : Nat) (value : Word)
  | queueDisable (t n : Nat) (value : Word)
  | registerWrite (t : Nat) (offset size : Nat) (value : Word)
  | queueFault (q : Nat)
  -- the tray controller (R46 to R49)
  | smbStatusClr (pecOk : Bool) (data : BitVec 16)
  | smbQuiesce (pecOk : Bool) (data : Byte)
  | smbLocate (pecOk : Bool) (data : Byte)
  | smbCapLimit (pecOk : Bool) (data : BitVec 16)
  | alertResponse (wins : Bool)
  | smbClockTimeout
  -- pins and panel (R41 to R44, R63, R467 to R470)
  | pinReadbackSample (pin : PinId) (high : Bool)
  | pinRetry (pin : PinId) (high : Bool)
  | attnStuck
  | attnFaultRecover
  | buttonPress
  | buttonShortRelease
  | buttonHold4s
  | buttonHold10s
  | lidChange (isOpen : Bool)
  | supplyGlitch
  | clockGlitch
  -- power cycle, zones, reference, trips
  | pwrcycTimeout
  | cycleRequest
  | powerOn (found : PowerOnFound)
  | zonePgoodLoss (z : Nat)
  | zonePgoodReturn (z : Nat)
  | refClockLoss
  | refClockRestore
  | zoneTrip (z : Nat)
  | hubTrip
  | tripRestart (source : TripSource) (broken : Nat)
  -- service port and console (R60 to R62, R463 to R466)
  | usbConnect
  | svcSessionEnd (why : SvcEnd)
  | consoleAuth (response : Option (Nat × Nat × Nat))
  | consoleStatus
  | consoleLog (fromSeq : Nat)
  | consoleRing (tileRing : Bool) (which : Nat)
  | consoleDump (slot : Nat)
  | consoleAlarmAck (mask : Byte)
  | consoleAlarmPolicy (source action : Nat)
  | consolePanelPolicy (enable : Bool)
  | consoleAdminkey (blob : List Byte)
  | consoleIdentity (certificate : Option (List Byte))
  | consoleSvckey (newKey : Nat × Nat) (sig : Nat × Nat)
  | consoleBoard (descriptor : List Byte)
  -- PMBus (R53 to R57)
  | pmbusSlot (seg : Nat) (alertLow : Bool) (reply : PmbusReply)
  | pmbusSegmentRetry (seg : Nat) (reply : PmbusReply)
  -- the Cabinet (R318 to R345)
  | norFail (cause : Nat) (addr : Nat)
  | norRetry (fails : Nat)
  | recordArrival (r : RecIn)
  | recordCommit (verified : Bool)
  | sectorReclaim
  | snapshotTimer
  | operatingTimeTick
  | meterIntervalEnd
  | journalFold (bad : Option Nat)
  | journalEntryWrite (bad : Option Nat)
  | deferredRecordsResume
  -- timing lanes (R67, R68, R402 to R411)
  | probeSend (lane : Nat)
  | probeReceive (lane : Nat) (seqNo : Nat) (payload : Nat) (half : Bool)
  | echoReceive (lane : Nat) (seqNo : Nat) (payload : Nat)
  | armReceive (lane : Nat) (barrier : Nat)
  | releaseReceive (lane : Nat) (time : Nat)
  | laneSyncLoss (lane : Nat)
  | laneSyncRegain (lane : Nat)
  | parentLoss (p : Nat)
  | barrierRelease (p : Nat) (edge : Nat)
  | barrierTimeout (p : Nat)
  -- tile guards (R103 to R159)
  | contractionEnd (c : Contraction)
  | exportAttempt (x : Export)
  | sramOwnWrite (tile row addr : Nat) (data : List Word) (full readBefore : Bool) (old : BitVec 512)
  | meshWriteReceive (tile row : Nat) (readBefore : Bool)
  | withheldMarkerReceive (tile : Nat) (origin : Nat) (edge : Nat) (header : Word)
  | recallMarkerReceive (tile : Nat) (origin : Nat) (edge : Nat)
  | tileSeamReach (tile : Nat) (cycle : Nat) (checkpoint : List Word) (openAt : Option OpenContraction)
  -- the warden at a seam (R21 to R24, R152 to R176)
  | fieldSeamArrival (f : Nat) (cycles : Nat) (taps : List EngineTap)
  | replayGroupStart (f : Nat)
  | replayVerdict (g : Nat) (cycles : Nat)
  | imageCopyDone (f : Nat) (target : Nat) (sent received : Nat) (cycles : Nat)
  | spareReplayVerdict (g : Nat) (cycles : Nat)
  | replayAbandoned (g : Nat)
  | idleVersionDrained (f : Nat)
  | fieldRelease (f : Nat) (heldCycles : Nat)
  | snapshotDone (f tile : Nat)
  | spotCheckVerdict (f tile : Nat) (cycles : Nat)
  -- fault collection (R261 to R278)
  | errorSourceLatch (f : Nat) (src : ErrSource) (rootCount cycle : Nat)
  | sourceAcknowledge (f : Nat)
  | eccCorrectedNotice (tile row bit : Nat)
  | eccUncorrectable (tile row : Nat) (byteAddr : Nat) (instr : Bool)
  | scrubUncorrectable (tile row : Nat)
  | scrubPassDone (t ctx : Nat) (parts : List Nat)
  | episodeClose (f : Nat)
  | rateSummary (f : Nat)
  | stormClose (f : Nat)
  | stormMergeCommit
  | signatureSigned
  | droopDetect (f : Nat) (lowestMv cycle : Nat)
  -- hangs and resets (R285 to R317)
  | seamOverrun (f : Nat) (count : Nat)
  | deadlock (f : Nat)
  | barrierWaitLimit (f : Nat)
  | linkResendThreshold (tile edge resends : Nat)
  | wardenSlotParity (f slot : Nat)
  | wardenHeartbeat (f : Nat)
  | wardenHeartbeatMiss (f : Nat)
  | wardenRestartDone (f : Nat)
  | wardenRestartTimeout (f : Nat)
  | hubWatchdogFire
  | hubRestart
  | watchdogCountClear
  | hostLoss
  | quiesceComplete
  | resetStart
  | resetComplete (domain : Nat) (micros : Nat)
  | resetEscalate (domain : Nat)
  | staleRecordTimer (domain : Nat)
  | staleMessageDrop (domain : Nat) (gen : BitVec 6)
  | dumpWriteDone (bad : Option Nat)
  -- power and thermal (R346 to R392)
  | estimatePeriod (f : Nat) (act : Activity)
  | arbiterReplan
  | freqChangeEnd (f : Nat)
  | droopLockoutEnd (f : Nat)
  | thermalModelUpdate (f : Nat)
  | thermalThrottleReplan
  | diodeRotation (f : Nat)
  | diodeReadDone (f : Nat) (diode : Nat) (reading : Option Int) (others : List (Nat × Option Int))
  | fieldShutdown (f : Nat)
  | shutdownProceed (f : Nat)
  | thermalRestart (f : Nat)
  -- Bench (R201 to R232)
  | benchSegmentEnd (f slot : Nat) (seg : SegmentEnd)
  | benchSlotStart (f slot : Nat)
  | benchIdleWindow (f : Nat)
  | benchOverdue (tile : Nat)
  | benchDroopLockoutEnd (f : Nat)
  -- Sideboard
  | digestIntervalBoundary (t ctx : Nat)
  | exchangeRecordReceive (x : Exchange)
  | comparisonClose (t ctx : Nat)
  | reverifyDone (t group : Nat) (fresh : List (Nat × Nat))
  -- counters
  | computeCmdBoundary (f : Nat) (c : ComputeCmd)
  -- bring-up (R431 to R452)
  | stageComplete (found : StageFound)
  | stageTimeout
  | waveStart
  | wardenStartFail (f : Nat)
  | hubHeartbeatToggle
  | hubFeedLoss
  | buttonLongRelease
  | laneFrameCrcDiscard (lane : Nat) (chars : List Byte)
  | heldActionBlinkEnd
deriving DecidableEq, Repr

end Sys2Proof
end

