-- ==== Sys2Proof/Decode.lean ====
section
/-! DEFINITION. Words of the table. The rows of spec/opcode_table.json are operations and events of a block and give no bits,
so no word spells a command. (The 64-byte commands of host software are operands of COMMAND_FETCH; their fields are read in
Machine/Operands.lean.) -/

namespace Sys2Proof

/-- The command that a word spells by the bits of the table: none, since no row gives bits. -/
def decodeTableWord (_nbits _w : Nat) : Option Instr := none

end Sys2Proof
end

