-- ==== Sys2Proof/Config.lean ====
section
/-! DEFINITION. What an implementation fixes and the free values: constants without a body, so that no proof can see a value.
Each has an entry in notes/assumptions. -/

namespace Sys2Proof.Config

/-- Free values drawn by the block (random generator of the hub, R131, R135, R463; values no rule states), by a counter that
`State.free` holds. -/
opaque freeNat : Nat → Nat

/-- Length in words of a record body that no table lays out, by type and content (clamped to 4-1024 words by its reader). -/
opaque openBodyLen : Nat → List Nat → Nat

/-- The words of such a body. -/
opaque openBodyWords : Nat → List Nat → List Word

/-- ECDSA P-256 over SHA-256 (R278, R459): key number, message words; the pair (r, s) as numbers below 2^256. -/
opaque ecdsaSign : Nat → List Word → Nat × Nat

/-- Verification of such a signature under a public key (R463, R464). -/
opaque ecdsaVerify : Nat × Nat → List Byte → Nat × Nat → Bool

/-- ECDH shared x-coordinate (R454), 32 bytes: private key number, ephemeral public key (x, y). -/
opaque ecdhX : Nat → Nat × Nat → List Byte

/-- AES-256 key unwrap with padding, RFC 5649 (R454): key-encryption key, wrapped bytes; none where it fails. -/
opaque aesUnwrap : List Byte → List Byte → Option (List Byte)

/-- AES-256-GCM (R314): key, nonce, additional data, plaintext; ciphertext and tag. -/
opaque aesGcm : List Byte → List Word → List Word → List Word → List Word × List Word

/-- PKCS #10 request of a generated identity key (R464). -/
opaque pkcs10 : Nat → List Byte

/-- Public key (x, y) of an identity key number (R279). -/
opaque publicKey : Nat → Nat × Nat

/-- R351: current of one rail of one field over an estimate period, in amperes, before calibration: stepping, rail kind,
VCORE setpoint in mV, thermal node 0 in 1/16 degree, counts of Table 13.2. Charges and leakage tables lie in the signed firmware
image. -/
opaque railCurrent : Nat → Nat → Nat → Int → List Nat → Rat

/-- R354: setpoint in volts of the VSRAM (1) and VLINK (2) rails, which no rule states. -/
opaque railVolts : Nat → Rat

/-- R361: a draw or current measured at one operating point (MHz, mV), projected to another. -/
opaque scaleDraw : Nat × Nat → Nat × Nat → Rat → Rat

/-- R361, R362: a draw under an idle duty in sixteenths. -/
opaque idleDraw : Nat → Rat → Rat

/-- R372: thermal resistances and capacitances of the firmware image, one set per stepping: R1, R12, R2R, RLAT, DT/C0,
DT/C1, DT/C2 by index 0 to 6. Resistances are used through their inverses, so no division by zero can arise. -/
opaque thermalCoeff : Nat → Nat → Rat

/-- R372: power of the hub in W over a model period, by block time, which no rule states. -/
opaque hubWatts : Nat → Rat

/-- R373: whether a node temperature between two multiples of 1/16 degree is held as the upper one. -/
opaque thermalRoundsUp : Rat → Bool

/-- R373, R377: rounding of a mean of readings between two multiples of 1/16 degree. -/
opaque meanRoundsUp : Rat → Bool

/-- R135: the draw of the sampling generator, by seed, seam and logical tile; the step is sampled where it is 0 modulo 2^n. -/
opaque spotDraw : Nat → Nat → Nat → Nat

/-- R60: Jalzor's USB vendor ID, which no rule states. -/
opaque usbVendor : BitVec 16

/-- R313: plaintext of a crash dump, by what it captures. -/
opaque dumpBody : List Nat → List Word

end Sys2Proof.Config
end

