-- ==== Sys2Proof/Machine/Codes.lean ====
section
/-! DEFINITION. The code tables of the spec: event types (Table 12.6), completion statuses (Table 3.8), opcodes and their
access, path and target (Table 3.7), status-word bits (Table 2.6). -/

namespace Sys2Proof.Machine

/-! ### Table 12.6: event types -/
def evStage : Nat := 0x001
def evLogRecovery : Nat := 0x002
def evNorFail : Nat := 0x003
def evNorRestored : Nat := 0x004
def evLogClear : Nat := 0x005
def evDropped : Nat := 0x006
def evTimeCorr : Nat := 0x007
def evTimeStep : Nat := 0x008
def evMeter : Nat := 0x009
def evFault : Nat := 0x010
def evStorm : Nat := 0x011
def evSignature : Nat := 0x012
def evCheckerFault : Nat := 0x013
def evPinFault : Nat := 0x014
def evPmbusFail : Nat := 0x015
def evReplay : Nat := 0x020
def evSpotMismatch : Nat := 0x021
def evSpotSpareFail : Nat := 0x022
def evStepLost : Nat := 0x023
def evProgramFault : Nat := 0x024
def evSlackWarn : Nat := 0x025
def evSlackExhausted : Nat := 0x026
def evTokenLate : Nat := 0x027
def evBorrow : Nat := 0x028
def evDigestBaseline : Nat := 0x030
def evDigestChanged : Nat := 0x031
def evDigestDisagree : Nat := 0x032
def evDigestAbsent : Nat := 0x033
def evDigestReverify : Nat := 0x034
def evDigestGroupFail : Nat := 0x035
def evExpel : Nat := 0x036
def evChainFull : Nat := 0x037
def evBenchResult : Nat := 0x040
def evBenchOverdue : Nat := 0x041
def evBenchDroop : Nat := 0x042
def evTrimRaise : Nat := 0x043
def evTrimLimit : Nat := 0x044
def evRemap : Nat := 0x048
def evQuarantine : Nat := 0x049
def evRelease : Nat := 0x04A
def evSpareLevel : Nat := 0x04B
def evMapConflict : Nat := 0x04C
def evReset : Nat := 0x050
def evStale : Nat := 0x051
def evWardenReset : Nat := 0x052
def evWdog : Nat := 0x053
def evCycleReq : Nat := 0x054
def evCycleIgnored : Nat := 0x055
def evQuiesce : Nat := 0x056
def evHostLoss : Nat := 0x057
def evDump : Nat := 0x058
def evCapChange : Nat := 0x060
def evCapUnreachable : Nat := 0x061
def evDroop : Nat := 0x062
def evFreqAbort : Nat := 0x063
def evZonePgood : Nat := 0x064
def evClockChange : Nat := 0x065
def evThermBand : Nat := 0x068
def evSensorFault : Nat := 0x069
def evThermShutdown : Nat := 0x06A
def evThermTrip : Nat := 0x06B
def evThermRestart : Nat := 0x06C
def evTimeAlign : Nat := 0x070
def evFreeze : Nat := 0x071
def evAlarm : Nat := 0x078
def evAlarmAck : Nat := 0x079
def evKeyLoad : Nat := 0x07A
def evScrub : Nat := 0x07B
def evSvcStart : Nat := 0x07C
def evSvcEnd : Nat := 0x07D
def evAuthFail : Nat := 0x07E

/-- Table 12.6: the codes that name a type. -/
def evDefined (t : Nat) : Bool :=
  t == 0x001 || (0x002 ≤ t && t ≤ 0x009) || (0x010 ≤ t && t ≤ 0x015) || (0x020 ≤ t && t ≤ 0x028) ||
  (0x030 ≤ t && t ≤ 0x037) || (0x040 ≤ t && t ≤ 0x044) || (0x048 ≤ t && t ≤ 0x04C) || (0x050 ≤ t && t ≤ 0x058) ||
  (0x060 ≤ t && t ≤ 0x065) || (0x068 ≤ t && t ≤ 0x06C) || t == 0x070 || t == 0x071 || (0x078 ≤ t && t ≤ 0x07E)

/-- Table 12.6, last column: the types that reach the window of a tenant 1-15 (R332). -/
def evTenantVisible (t : Nat) : Bool :=
  (0x023 ≤ t && t ≤ 0x028) || t == evReset || t == evDump || t == evTimeAlign || t == evFreeze || t == evScrub

/-- R489: the types whose records are deferred while the commit queue holds more than 12 KiB (EV_TIME_ALIGN only of the
kinds 0 and 2, which its callers say). -/
def evDeferrable (t : Nat) : Bool := t == evStale || t == evMeter || t == evSpareLevel

/-! ### Table 3.8: statuses -/
def stOk : Nat := 0x00
def stAccepted : Nat := 0x01
def stBusy : Nat := 0x02
def stDenied : Nat := 0x03
def stBadOpcode : Nat := 0x04
def stBadParam : Nat := 0x05
def stShortfall : Nat := 0x06
def stUnreachable : Nat := 0x07
def stStaleGen : Nat := 0x08
def stFenceAbort : Nat := 0x09
def stDegraded : Nat := 0x0A
def stAlarmLocked : Nat := 0x0B

/-- R84: the statuses that do not abort a fence. -/
def stGood (st : Nat) : Bool := st == stOk || st == stAccepted || st == stDegraded

/-! ### Table 3.7: opcodes -/
def opNop : Nat := 0x00
def opFence : Nat := 0x01
def opMapGrid : Nat := 0x10
def opUnmap : Nat := 0x11
def opQueryMap : Nat := 0x12
def opCheckPolicy : Nat := 0x20
def opSpotRate : Nat := 0x21
def opRedundancy : Nat := 0x22
def opReplayPolicy : Nat := 0x23
def opDigestDefine : Nat := 0x28
def opDigestCompare : Nat := 0x29
def opExpel : Nat := 0x2A
def opBenchSchedule : Nat := 0x30
def opBenchRun : Nat := 0x31
def opBenchResult : Nat := 0x32
def opQuarantine : Nat := 0x38
def opRelease : Nat := 0x39
def opSpareStatus : Nat := 0x3A
def opSigExport : Nat := 0x40
def opReset : Nat := 0x48
def opHeartbeatCfg : Nat := 0x49
def opLogOpen : Nat := 0x50
def opLogClear : Nat := 0x51
def opDumpFetch : Nat := 0x52
def opPowerCap : Nat := 0x58
def opOpmode : Nat := 0x59
def opThermalRead : Nat := 0x5A
def opCounterLatch : Nat := 0x60
def opCounterFreeze : Nat := 0x61
def opTraceCfg : Nat := 0x62
def opTimeAlign : Nat := 0x63
def opBarrierArm : Nat := 0x64
def opTenantScrub : Nat := 0x68
def opKeyLoad : Nat := 0x69
def opAlarmAck : Nat := 0x6A

/-- Opcodes with target "queue" of Table 3.7. -/
def opQueueTarget : List Nat := [opNop, opFence]

/-- Opcodes with target "part". -/
def opPartTarget : List Nat :=
  [opMapGrid, opUnmap, opQueryMap, opCheckPolicy, opSpotRate, opRedundancy, opReplayPolicy, opDigestDefine, opDigestCompare,
   opExpel, opOpmode, opCounterLatch, opCounterFreeze, opTraceCfg, opTimeAlign, opBarrierArm]

/-- Opcodes with target "field". -/
def opFieldTarget : List Nat := [opBenchRun, opBenchResult, opQuarantine, opRelease, opSpareStatus, opThermalRead]

/-- Opcodes with target "none". -/
def opNoneTarget : List Nat :=
  [opBenchSchedule, opSigExport, opHeartbeatCfg, opLogOpen, opLogClear, opDumpFetch, opPowerCap, opTenantScrub, opKeyLoad,
   opAlarmAck]

/-- R93: the opcodes of Table 3.7. -/
def opDefined (o : Nat) : Bool :=
  opQueueTarget.contains o || opPartTarget.contains o || opFieldTarget.contains o || opNoneTarget.contains o || o == opReset

/-- R91: the fast-path opcodes (HW). -/
def opHw (o : Nat) : Bool :=
  [opNop, opFence, opQueryMap, opReset, opLogOpen, opCounterLatch, opCounterFreeze, opBarrierArm].contains o

/-- Table 3.7: firmware-path opcodes. -/
def opFw (o : Nat) : Bool := opDefined o && !opHw o

/-- Check 3 of Table 3.4: the opcodes that run under a security lock. -/
def opUnderLock (o : Nat) : Bool := [opNop, opFence, opLogOpen, opQueryMap, opAlarmAck].contains o

/-- Table 3.7: opcodes with access A whatever their parameters. -/
def opAdminOnly (o : Nat) : Bool :=
  [opBenchSchedule, opBenchRun, opQuarantine, opRelease, opSigExport, opHeartbeatCfg, opPowerCap, opThermalRead,
   opTenantScrub].contains o

/-! ### Table 2.6: tray status word -/
def tsReady : Nat := 0
def tsDegraded : Nat := 1
def tsThermWarn : Nat := 2
def tsThermtrip : Nat := 3
def tsCycleReq : Nat := 4
def tsAlarm : Nat := 5
def tsPinFault : Nat := 6
def tsPmbusFail : Nat := 7
def tsRefloss : Nat := 8
def tsHang : Nat := 9
def tsQuiesced : Nat := 10
def tsReduced : Nat := 11
def tsAlertAssert : Nat := 12

/-- The W1C bits of Table 2.6. -/
def tsW1c : BitVec 16 := 0x0388

end Sys2Proof.Machine
end

