-- ==== Sys2Proof/Machine/Crypto.lean ====
section
/-! DEFINITION. The checks and hashes that the spec names by their standards: CRC-8 with polynomial 0x07 (Table 2.9),
CRC-32C (R326), SHA-256, HMAC-SHA-256 (R89) and HKDF-SHA-256 (R314). -/

namespace Sys2Proof.Machine

/-- One bit step of CRC-8, polynomial 0x07. -/
def crc8Bit (r : Nat) : Nat := if r.testBit 7 then ((r <<< 1) ^^^ 0x07) % 256 else (r <<< 1) % 256

/-- Table 2.9: CRC-8 of a list of bytes, initial value 0. -/
def crc8 (bs : List Byte) : Nat :=
  bs.foldl (fun r b => (List.range 8).foldl (fun x _ => crc8Bit x) (r ^^^ b.toNat)) 0

/-- One bit step of CRC-32C (reflected polynomial 0x82F63B78). -/
def crc32cBit (r : Nat) : Nat := if r.testBit 0 then (r >>> 1) ^^^ 0x82F63B78 else r >>> 1

/-- CRC-32C of a list of bytes (R326). -/
def crc32c (bs : List Byte) : Nat :=
  (bs.foldl (fun r b => (List.range 8).foldl (fun x _ => crc32cBit x) (r ^^^ b.toNat)) 0xFFFFFFFF) ^^^ 0xFFFFFFFF

/-- The four bytes of a word, little-endian (R6). -/
def wordBytes (w : Word) : List Byte :=
  [w.extractLsb' 0 8, w.extractLsb' 8 8, w.extractLsb' 16 8, w.extractLsb' 24 8]

/-- Bytes of a list of words. -/
def bytesOf (ws : List Word) : List Byte := ws.flatMap wordBytes

/-- Words of a list of bytes, little-endian, the last padded with zeros. -/
def wordsOfBytes : List Byte → List Word
  | a :: b :: c :: d :: r => (d ++ c ++ b ++ a : BitVec 32) :: wordsOfBytes r
  | [] => []
  | l => [BitVec.ofNat 32 (l.foldr (fun b acc => acc * 256 + b.toNat) 0)]

/-! ### SHA-256 (FIPS 180-4) -/

/-- The first 64 primes: numbers below 312 that no smaller number from 2 to 17 divides. -/
def shaPrimes : List Nat := (List.range 312).filter (fun n => decide (2 ≤ n) && (List.range n).all (fun d => decide (d < 2) || decide (17 < d) || n % d != 0))

/-- The greatest number below 2^b whose k-th power is at most x, found bit by bit from the top. -/
def rootFloor (k b x : Nat) : Nat := (List.range b).foldr (fun i r => if (r + 2 ^ i) ^ k ≤ x then r + 2 ^ i else r) 0

/-- FIPS 180-4, 4.2.2: the first 32 bits of the fractional part of the k-th root of a number. -/
def rootFraction (k p : Nat) : Word := BitVec.ofNat 32 (rootFloor k 40 (p * 2 ^ (32 * k)))

/-- FIPS 180-4, 4.2.2: from the cube roots of the first 64 primes. -/
def shaK : List Word := shaPrimes.map (rootFraction 3)

/-- FIPS 180-4, 5.3.3: from the square roots of the first eight primes. -/
def shaInit : List Word := (shaPrimes.take 8).map (rootFraction 2)

/-- Next word of the message schedule from the last sixteen, newest first. -/
def shaSchedule (w : List Word) : Word :=
  let s0 := let x := w.getD 14 0; (x.rotateRight 7) ^^^ (x.rotateRight 18) ^^^ (x >>> 3)
  let s1 := let x := w.getD 1 0; (x.rotateRight 17) ^^^ (x.rotateRight 19) ^^^ (x >>> 10)
  w.getD 15 0 + s0 + w.getD 6 0 + s1

/-- One round. -/
def shaRound (v : List Word) (k w : Word) : List Word :=
  match v with
  | [a, b, c, d, e, f, g, h] =>
    let s1 := (e.rotateRight 6) ^^^ (e.rotateRight 11) ^^^ (e.rotateRight 25)
    let ch := (e &&& f) ^^^ (~~~e &&& g)
    let t1 := h + s1 + ch + k + w
    let s0 := (a.rotateRight 2) ^^^ (a.rotateRight 13) ^^^ (a.rotateRight 22)
    let maj := (a &&& b) ^^^ (a &&& c) ^^^ (b &&& c)
    [t1 + (s0 + maj), a, b, c, d + t1, e, f, g]
  | v => v

/-- One block of sixteen big-endian words. -/
def shaBlock (h : List Word) (blk : List Word) : List Word :=
  let sched := ((List.range 48).foldl (fun w _ => shaSchedule w :: w) blk.reverse).reverse
  List.zipWith (· + ·) h ((List.zip shaK sched).foldl (fun v kw => shaRound v kw.1 kw.2) h)

/-- Big-endian words of a list of bytes whose length is a multiple of 4. -/
def beWords : List Byte → List Word
  | a :: b :: c :: d :: r => (a ++ b ++ c ++ d : BitVec 32) :: beWords r
  | _ => []

/-- FIPS 180-4 padding. -/
def shaPad (m : List Byte) : List Byte :=
  let n := m.length
  m ++ [0x80#8] ++ List.replicate ((119 - n % 64) % 64) 0#8 ++
    (List.range 8).map (fun i => BitVec.ofNat 8 ((8 * n) >>> (8 * (7 - i))))

/-- Blocks of sixteen words, at most `fuel` of them. -/
def shaBlocks : Nat → List Word → List Word → List Word
  | 0, h, _ => h
  | n + 1, h, ws => if ws.isEmpty then h else shaBlocks n (shaBlock h (ws.take 16)) (ws.drop 16)

/-- SHA-256, as eight big-endian words. -/
def sha256 (m : List Byte) : List Word :=
  let ws := beWords (shaPad m)
  shaBlocks (ws.length / 16 + 1) shaInit ws

/-- Bytes of big-endian words. -/
def beBytes (ws : List Word) : List Byte := ws.flatMap (fun w => (wordBytes w).reverse)

/-- HMAC-SHA-256 (R89). -/
def hmac (key m : List Byte) : List Byte :=
  let k0 := if key.length > 64 then beBytes (sha256 key) else key
  let k := k0 ++ List.replicate (64 - k0.length) 0#8
  beBytes (sha256 (k.map (· ^^^ 0x5C#8) ++ beBytes (sha256 (k.map (· ^^^ 0x36#8) ++ m))))

/-- HKDF-SHA-256 of one output block (R314, R454): salt, input key, info. -/
def hkdf (salt key info : List Byte) : List Byte := hmac (hmac salt key) (info ++ [0x01#8])

/-- R89: the authenticator, the first 64 bits of the HMAC, as the words 14 and 15 that carry it. -/
def authenticator (key : List Byte) (words0to13 : List Word) : List Word :=
  wordsOfBytes ((hmac key (bytesOf words0to13)).take 8)

end Sys2Proof.Machine
end

