-- ==== Sys2Proof/Machine/State.lean ====
section
/-! DEFINITION. The state of the block as plain data: every register, queue, buffer, counter, mode and pin that the spec gives
the machine, the queue of waiting commands, and `State.reset`. The comment behind a field gives its rule, width and reset
value; INVENTORY.md is made from them. -/

namespace Sys2Proof.Machine

/-- Why the machine stops with a fault. -/
inductive Fault where
  /-- Raised by a meaning whose operand describes nothing that can reach the block (a field index above 83, a lane above 63,
  a command that is not 16 words). Safe: the model stops where no such event exists. -/
  | malformed (row : String)
deriving DecidableEq, Repr

/-- Why a command has no effect to give. -/
inductive Refusal where
  /-- Not modelled yet, by the mnemonic of the table. Raised by no arm of `exec`. -/
  | notModelled (mnemonic : String)
deriving DecidableEq, Repr

/-- A table keyed by numbers, in rising key order; a key that is not listed reads as its reader's default. -/
abbrev Table (α : Type) := List (Nat × α)

/-! ### Front end -/

/-- Where an in-flight command stands (R79, R86, R91). -/
inductive Phase where
  | held        -- check 6: waits under ORDERED, FENCE or a reset of its domain (R82, R83, R100)
  | queuedFw    -- waits for the management cores (R86, R486)
  | running     -- started: its own row may execute it
  | applying    -- executed; completes when the fields of `waits` have applied it at a seam (R81)
  | background  -- executed; completes by another row (a digest read, a latch, a freeze, an alignment, a barrier, a reset)
deriving DecidableEq, Repr

/-- A command in flight (R86), identified by queue slot and submission entry (R75). -/
structure Cmd where
  q : Nat := 0  -- R75; 7; 0; queue slot 0-127
  e : Nat := 0  -- R75; 12; 0; submission entry
  words : List Word := []  -- R74; 16 x 32; none; the command as fetched
  seqNo : Nat := 0  -- R83; model; 0; fetch order
  scopeFrom : Nat := 0  -- R84; model; 0; fetch order of the previous fenced command of the queue
  phase : Phase := .held  -- R79; enum; held
  gen : BitVec 6 := 0  -- R287; 6; 0; generation of the target domain when issued
  dom : Nat := 0  -- R78; 8; 0; target domain
  aPlus : Bool := false  -- R89; 1; 0; an accepted A+ command
  waits : List Nat := []  -- R81; model; none; fields that have still to apply it
  status : Nat := 0  -- R81; 8; 0; status to complete with
  results : List Word := []  -- R77; 5 x 32; none; results to complete with
deriving DecidableEq, Repr

/-- Queue slot (Table 19.9) with its doorbell group (Table 19.8). -/
structure QSlot where
  enable : Bool := false  -- Table 19.9 ENABLE; 1; 0
  draining : Bool := false  -- Table 19.9 DRAINING; 1; 0
  cfgErr : Bool := false  -- Table 19.9 CFG_ERR; 1; 0
  sqLog2 : Nat := 0  -- Table 19.9 SQ_LOG2; 4; 0
  cqLog2 : Nat := 0  -- Table 19.9 CQ_LOG2; 4; 0
  owner : Nat := 0  -- Table 19.9 OWNER; 4; 0
  qnum : Nat := 0  -- Table 19.9 QNUM; 3; 0
  irqEn : Bool := false  -- Table 19.9 IRQ_EN; 1; 0
  vector : Nat := 0  -- Table 19.9 VECTOR; 11; 0
  sqBase : BitVec 64 := 0  -- Table 19.9 SQ_BASE; 64; 0
  cqBase : BitVec 64 := 0  -- Table 19.9 CQ_BASE; 64; 0
  sqHead : Nat := 0  -- Table 19.8 SQ_HEAD; 12; 0
  sqTail : Nat := 0  -- Table 19.8 SQ_TAIL; 12; 0
  cqHead : Nat := 0  -- Table 19.8 CQ_HEAD; 14; 0
  cqTail : Nat := 0  -- Table 19.8 CQ_TAIL; 14; 0
  pass : Bool := true  -- R72 PHASE of the present pass; 1; 1
  dbBad : Bool := false  -- Table 19.8 DB_BAD; 1; 0
  badCount : Nat := 0  -- Table 19.8 BAD_COUNT; 8; 0
  reserved : Nat := 0  -- R73; model; 0; notifications reserved on the ring
  lastFence : Nat := 0  -- R84; model; 0; fetch order of the last fenced command
  failed : List Nat := []  -- R84; model; none; fetch orders of commands that failed
  fwBlocked : Bool := false  -- R486; 1; 0; fetching stopped at a firmware-path entry
  ringBlocked : Bool := false  -- R73; 1; 0; fetching stopped at an entry for whose notification the ring has no room
deriving DecidableEq, Repr

/-- An operation accepted in the background (R85). -/
structure Op where
  handle : Nat := 0  -- R85; 32; 0
  q : Nat := 0  -- R85; 7; 0
  e : Nat := 0  -- R85; 12; 0
  tag : Nat := 0  -- R85; 9; 0
  opcode : Nat := 0  -- R85; 8; 0
  tenant : Nat := 0  -- R85; 4; 0
  notify : Bool := false  -- R85; 1; 0
  dom : Nat := 0  -- R290; 8; 0
  args : List Nat := []  -- R457; model; none; what the operation works on
  final : Option (Nat × List Word) := none  -- R85; model; none; final status and results
deriving DecidableEq, Repr

structure FrontEnd where
  slots : Table QSlot := []  -- Table 19.9; 128; disabled; the 128 queue slots
  flight : List Cmd := []  -- R86; up to 16,384; none; commands in flight, oldest first
  ops : List Op := []  -- R85; model; none; background operations
  nextSeqNo : Nat := 1  -- R83; model; DESIGN CHOICE 1 (log entry 3); fetch order counter
  nextHandle : Nat := 1  -- R85; 32; DESIGN CHOICE 1 (log entry 3); operation handles
  rrTenant : Nat := 0  -- R87; 4; DESIGN CHOICE 0 (log entry 3); tenant whose turn it is
  rrQueue : Table Nat := []  -- R87; 16 x 3; DESIGN CHOICE 0 (log entry 3); per tenant, the queue number served last
  rrCount : Nat := 0  -- R87; 4; 0; commands fetched in this turn
  fwTenant : Nat := 0  -- R487; 4; DESIGN CHOICE 0 (log entry 3); tenant served last by the cores
  bgQuiesce : Bool := false  -- R309; 1; 0; fetching stopped for tenants 1-15
deriving DecidableEq, Repr

/-- What the block drives outwards, newest first. -/
inductive Out where
  | completion (q index : Nat) (words : List Word)
  | irq (tenant vector : Nat)
  | statusIrq (bits : Nat)
  | bulk (q e addr : Nat) (words : List Word)
  | exchange (port : Nat) (words : List Word)
  /-- R67: characters 1 to 7 of a timing-lane frame, behind its comma (Table 2.9). -/
  | frame (lane : Nat) (chars : List Byte)
  | pmbus (seg page cmd value : Nat)
  | console (data : List Nat)
  /-- R60: the device that the service port presents: vendor, product, endpoint addresses with their maximum packet (Table 2.8). -/
  | usbDevice (vendor product : Nat) (endpoints : List (Nat × Nat))
  | ep3 (data : List Byte)
  /-- R158: a withheld marker: the header with its WITHHELD flag set, so many payload words of zeros, a valid end-to-end check. -/
  | marker (tile : Nat) (header : List Word) (zeros : Nat) (dest : Dest)
  /-- R169: a recall marker: the header of a released export with its RECALL flag set. -/
  | recallMark (tile : Nat) (addressee : Nat) (header : List Word)
  /-- An export that leaves, with its digest and the epoch bit that its packets carry (R164, R248). -/
  | released (tile : Nat) (digest : Nat) (dest : Dest) (epoch : Bool)
  /-- R156: the replay image restored in place: the seam checkpoint and the undo rows written back. -/
  | restore (tile : Nat) (checkpoint : List Word) (undo : List (Nat × BitVec 512))
  /-- R157, R216, R217, R252: an image copied between two physical tiles: the seam checkpoint and the undo rows overlaid. -/
  | image (src dst : Nat) (checkpoint : List Word) (undo : List (Nat × BitVec 512))
  /-- R137: a snapshot of a tile streamed to its spot spare. -/
  | snapshot (src dst : Nat)
  /-- R203, R211: the corner of a tile under test: supply in per cent of field VCORE, test clock in MHz, heat, whole tile. -/
  | corner (tile supply clock : Nat) (heat whole : Bool)
deriving DecidableEq, Repr

/-! ### Registers of the aperture that are not queue slots -/

structure Regs where
  legacy : Bool := false  -- Table 19.3 LEGACY_FMT; 1; 0
  statusIrq : Bool := false  -- Table 19.3 STATUS_IRQ; 1; 0
  shadow : Table Word := []  -- R473; 16 x 32; 0 (none stated: DESIGN CHOICE 0, log entry 3); shadow of the high word, per tenant
  wallLow : Option Word := none  -- R479; 32; none; pending low word of ZRM_WALLCLOCK
  lastCorr : Option (Nat × Nat) := none  -- R340; 2 x 64; none; wall value and block time of the last correlation
deriving DecidableEq, Repr

/-- A log cursor and its window (Table 12.7, R333). -/
structure Cursor where
  opened : Bool := false  -- R483; 1; 0; a LOG_OPEN has been made
  ready : Bool := false  -- Table 12.7 READY; 1; 0
  atEnd : Bool := true  -- Table 12.7 END; 1; 1
  follow : Bool := false  -- Table 12.7 FOLLOW; 1; 0
  lost : Bool := false  -- Table 12.7 LOST; 1; 0
  lostCount : Nat := 0  -- Table 12.7 LOST_COUNT; 13; 0
  seqNo : Nat := 0  -- R333 ZRM_LOG_SEQ; 48; 0; sequence number at the cursor
  copy : List Word := []  -- R333; 8 KiB; none; the record in the window
deriving DecidableEq, Repr

/-! ### Tray interface, pins, panel -/

/-- Readback of one pin (R41, R43). -/
structure Pin where
  confirm : Nat := 0  -- R41; 2; 0; disagreeing samples so far
  fault : Bool := false  -- R43; 1; 0; declared faulty, high-impedance
  retries : Nat := 0  -- R43; model; 0; retry count of the record
deriving DecidableEq, Repr

/-- R47: what the SMBus target shows of the values that firmware refreshes. -/
structure SmbView where
  tempMax : Nat := 0xFFFF  -- Table 2.5 TEMP_MAX; 16
  power : Nat := 0xFFFF  -- Table 2.5 POWER; 16
  reason : Nat := 0xFF  -- Table 2.5 CYCLE_REASON; 8
  panel : Nat := 0xFF  -- Table 2.5 PANEL; 8
  ident : List Byte := []  -- Table 2.5 IDENT; 16 x 8
deriving DecidableEq, Repr

/-- Pads that stand at a level of their own (Table 2.1). Between transactions the SMBus, PMBus and other xSPI pads are at their reset state. -/
structure Pads where
  xspiReset : Bool := false  -- Table 2.1 XSPI_RESET_N; 1; low
  xspiOctal : Bool := false  -- R59; 1; 0; the NOR runs in 8D-8D-8D
  laneTx : Bool := false  -- Table 2.1 TL_TX; 1; idle at common mode; the timing lanes transmit
deriving DecidableEq, Repr

structure Tray where
  status : BitVec 16 := 0  -- Table 2.6; 16; 0x0000; tray status word
  capCeil : Nat := 0  -- R47 CAP_LIMIT; 16; 0 (none); tray power ceiling in 100 W
  smbAddrHigh : Bool := false  -- R46; strap; sampled at power-on; DESIGN CHOICE low (log entry 3)
  smbActive : Bool := false  -- R46; 1; 0; target's bus state not idle
  smbDead : Bool := false  -- R66; 1; 0; target silent for want of its clock
  pins : Table Pin := []  -- R41; 7; no fault; readback of the pins of Table 2.3
  cycleReason : Nat := 0  -- R308; 8; 0x00
  pwrcycLow : Bool := false  -- R51, Table 2.1 PWRCYC_REQ_N; 1; released
  view : Option (Nat × SmbView) := none  -- R47; model; none; while firmware is down, the values it refreshed last, with their block time
  pads : Pads := {}  -- R38; model; see Pads
deriving DecidableEq, Repr

structure Panel where
  pressed : Bool := false  -- R63; 1; 0; a press is under way
  hold4 : Bool := false  -- R63; 1; 0; the 4 s action has fired
  hold10 : Bool := false  -- R63; 1; 0; the 10 s action has fired
  ignored : Bool := false  -- R44; 1; 0; input held low at power-on, ignored until its release
  lidOpen : Bool := false  -- R64; 1; closed (input); accepted level of LID_SW_N
  locate : Bool := false  -- R467; 1; 0 (LOC_LED low at reset, Table 2.1); locate state
  blink : Bool := false  -- R468; 1; 0; LOC_LED blinks after a held action
deriving DecidableEq, Repr

/-! ### The Cabinet and the NOR -/

/-- Body of a record: the words of a table, or the content of a body that no table lays out. -/
inductive Body where
  | words (w : List Word)
  | fields (f : List Nat)
deriving DecidableEq, Repr

/-- An event record (R326, Table 12.5). -/
structure Rec where
  seqNo : Nat := 0  -- R327; 48; 0
  typ : Nat := 0  -- Table 12.6; 12; 0
  tenant : Nat := 0  -- R331; 4; 0
  part : Option Nat := none  -- Table 12.5 PART_VALID, PARTITION; 5; none
  fallback : Bool := false  -- Table 12.5 FALLBACK; 1; 0
  body : Body := .words []  -- R326; 16-4,096 bytes; none
  opTime : Nat := 0  -- R339; 40; 0; operating time at commit
  cycles : Nat := 0  -- R339; 24; 0; power-cycle count
  cleared : Bool := false  -- Table 12.5 STATE 0x1F; 1; 0
  sector : Nat := 0  -- R325; model; 0; ring sector it lies in
deriving DecidableEq, Repr

/-- System-block snapshot (R321). -/
structure Snapshot where
  num : Nat := 0  -- R321; 32; 0
  opTime : Nat := 0  -- R321; 40; 0
  cycles : Nat := 0  -- R321; 24; 0
  nextSeq : Nat := 1  -- R321; 48; 1
  aCounter : Nat := 0  -- R321, R89; 32; 0
  reason : Nat := 0  -- R321, R308; 8; 0
  marks : Table Nat := []  -- R321, R95; 84 x 4; 0; last-tenant marks
  meters : Table (Nat × Nat) := []  -- R321, R342; 16 x 2; 0; accumulators of the interval
deriving DecidableEq, Repr

/-- Golden digest entry (Table 12.4). -/
structure Golden where
  tenant : Nat := 0  -- Table 12.4; 4
  group : Nat := 0  -- Table 12.4; 16
  length : Nat := 0  -- Table 12.4; 32
  digest : Nat := 0  -- Table 12.4; 61
deriving DecidableEq, Repr

/-- A crash dump (Table 11.8). -/
structure Dump where
  tenant : Nat := 0  -- Table 11.8 TENANT; 4
  cause : Nat := 0  -- Table 11.8 CAUSE; 5
  level : Nat := 0  -- Table 11.8 LEVEL; 3
  trunc : Bool := false  -- Table 11.8 TRUNC; 1
  time : Nat := 0  -- Table 11.8 TIMESTAMP; 64
  opTime : Nat := 0  -- Table 11.8 OP_TIME; 40
  cycles : Nat := 0  -- Table 11.8 CYCLES; 24
  resetWord : Dword := 0  -- Table 11.8 RESET_WORD; 64
  nonce : List Word := []  -- Table 11.8 NONCE; 96
  tag : List Word := []  -- Table 11.8 TAG; 128
  eventSeq : Nat := 0  -- Table 11.8 EVENT_SEQ; 64
  plain : List Word := []  -- R313; model; plaintext while staged
  cipher : List Word := []  -- R314; up to 8 MiB - 128
  readEnd : Bool := false  -- R315; 1; read to its end by DUMP_FETCH
  order : Nat := 0  -- R315; model; age order of the slots
deriving DecidableEq, Repr

/-- Tile record (Table 9.2). -/
structure TileRec where
  quar : Bool := false  -- Table 9.2 QUAR; 1; 0
  suspect : Bool := false  -- Table 9.2 SUSPECT; 1; 0
  routerFault : Bool := false  -- Table 9.2 ROUTER_FAULT; 1; 0
  fmaxSteps : Nat := 0  -- Table 9.2 FMAX_STEPS; 5; 0
  rows : Nat := 0  -- Table 9.2 ROWS; 4; 0
  links : Nat := 0  -- Table 9.2 LINKS; 4; 0
  lastResult : Nat := 15  -- Table 9.2 LAST_RESULT; 4; 0xF
  passes : Nat := 0  -- Table 9.2 PASSES; 2; 0
  suspectCount : Nat := 0  -- Table 9.2 SUSPECT_COUNT; 4; 0
  qreason : Nat := 0  -- Table 9.2 QREASON; 4; 0x0
  lastTest : Nat := 0  -- Table 9.2 LAST_TEST; 18; 0; whole hours
deriving DecidableEq, Repr

/-- The map of one field: layout and substitutions (R244, R247, R260). Logical and physical places are y x 100 + x. -/
structure FieldMap where
  laidOut : Bool := false  -- R245; 1; 0; a layout has been built
  clock : Nat := 1000  -- R243; 16; DESIGN CHOICE 1000 MHz until a layout is built (log entry 4); clock of the layout
  owners : Table Nat := []  -- R15, R244; 9,216; P(x,y) serves L(x,y); exceptions to the identity, 10000 for an unfilled place
  missing : List Nat := []  -- R256; model; none; coordinates the last layout left missing
  vacant : List Nat := []  -- R255; model; none; coordinates fallen vacant since
  shadows : Nat := 0  -- R150; 7; 0; shadows borrowed
  reserve : Nat := 0  -- R150; 4; 0; check-reserve tiles borrowed
  unshadowed : List Nat := []  -- R151; model; none; logical tiles without a shadow
deriving DecidableEq, Repr

/-- What the Hutch persists (R260, Table 12.3). -/
structure HutchImage where
  recs : Table TileRec := []  -- R240; 840,000 x 48; no history; tile records by physical tile address
  rowList : List (Nat × Nat) := []  -- R260; 65,536; none; retired SRAM rows (tile, row)
  deadLinks : List (Nat × Nat) := []  -- R260; 1,024; none; dead links (tile, edge)
  badSectors : List Nat := []  -- R237; model; none; retired NOR sectors
  swapped : List (Nat × Nat) := []  -- R237; model; none; ring sectors that stand in for failed sectors outside the ring (failed, ring)
  erases : Table Nat := []  -- R237; 24 each; 0; erase counts
  badSlots : List (Nat × Nat) := []  -- R238; 84 x 40; none; retired warden command slots (field, slot)
  badPhases : List (Nat × Nat) := []  -- R239; 8 x 64; none; retired regulator phases (zone, phase)
  trim : Table Nat := []  -- R225; 84 x 8; 0 mV; VCORE trim
  vchar : List (Nat × Nat × Nat) := []  -- R442; model; none; V_char (field, rung MHz, mV)
  maps : Table FieldMap := []  -- R260; 84; identity; layouts and substitutions
  nextSig : Nat := 1  -- R278; 32; 1; next signature sequence number
deriving DecidableEq, Repr

/-- The NOR's content (Table 12.1). It survives CYCLE and power loss. -/
structure Nor where
  ring : List Rec := []  -- R325; 96 MiB; empty; committed records, oldest first
  torn : List Nat := []  -- R328; model; none; sequence numbers of records found torn
  sector : Nat := 0  -- R325; model; 0; sector being written
  offset : Nat := 32  -- R325; model; 32 (after the sector header); write offset
  big : Bool := false  -- R325; device; DESIGN CHOICE 64 KiB (log entry 3); sectors of 128 KiB
  snap : Option Snapshot := none  -- R321; 512 x 512 bytes; none; current snapshot
  golden : List Golden := []  -- R324; 131,072; none; golden digests
  dumps : Table Dump := []  -- R315; 3; empty; Drawer slots
  base : HutchImage := {}  -- R322; 5,376 KiB; no history; Hutch base image
  journal : List (Nat × HutchImage) := []  -- R323; 256 KiB; none; complete journal entries
  board : List Byte := []  -- R348; 4 KiB; written at manufacture; board descriptor in force
  spare : Bool := false  -- R320; model; 0; the compaction spare holds content in state 0x7F, to be copied to its target at S0
  boardNext : Option (List Byte) := none  -- R464 BOARD; 4 KiB; none; descriptor for the next power-up
deriving DecidableEq, Repr

structure Cabinet where
  nextSeq : Nat := 1  -- R327; 48; 1; next sequence number
  queue : List Rec := []  -- R329; 64 KiB; empty; commit queue, oldest first
  dropped : Nat := 0  -- R329; model; 0; records dropped since the last EV_DROPPED
  droppedFirst : Nat := 0  -- Table 12.8 EV_DROPPED; 12; 0; type of the first dropped
  deferred : List Rec := []  -- R489; model; none; deferred record-only tasks
  failed : Bool := false  -- R343; 1; 0; NOR declared failed
  failTime : Nat := 0  -- Table 12.8; 40; 0; operating time of the failure
  store : List Rec := []  -- R343; 224 KiB; empty; fallback store
  storeLost : Nat := 0  -- Table 12.8; 32; 0; fallback records lost to wrap
  storeCfg : List HutchImage := []  -- R343; 32 KiB; none; journal entries kept while the NOR is failed
  reclaim : Bool := false  -- R338; 1; 0; reclaim running
  opTime : Nat := 0  -- R339; 40; 0; operating time, 1/16 s
  cycles : Nat := 1  -- R339; 24; 1 (first power-up, Table 17.6); power-cycle count
  meters : Table (Nat × Nat) := []  -- R342; 16 x 2; 0; FIELD_TIME and PROGRAM_TIME
  meterDue : Option (Nat × Table (Nat × Nat)) := none  -- R342; model; none; the meter interval that has ended, with its counts, whose EV_METER is due
  cursors : Table Cursor := []  -- R332; 16; END set; log cursors
  aCounter : Nat := 0  -- R89; 32; 0; last accepted A+ counter
  marks : Table Nat := []  -- R456; 84 x 4; 0; last-tenant marks
deriving DecidableEq, Repr

structure Drawer where
  staging : Option Dump := none  -- R312; 8 MiB; empty; staging buffer
  count : Nat := 0  -- R315; model; 0; dumps written
deriving DecidableEq, Repr

/-! ### Armoire and alarm -/

structure Armoire where
  identity : Option Nat := some 0  -- Table 18.1; 256; made at manufacture (the key's own value is DESIGN CHOICE, log entry 5); device identity key
  admin : Option (List Byte) := none  -- Table 18.1; 256; empty (DESIGN CHOICE, log entry 5); slot 0
  tenantKeys : Table (List Byte) := []  -- Table 18.1; 15 x 256; empty (DESIGN CHOICE, log entry 5); slots 1-15
  svcKey : Nat × Nat := (0, 0)  -- Table 18.1; 512; manufacture (DESIGN CHOICE, log entry 5); service authority key
  actions : List Nat := [0, 1, 1, 1]  -- Table 18.5; 4 x 2; defaults; alarm action per source
  hold10 : Bool := false  -- R469; 1; disabled; panel policy
  active : Nat := 0  -- R461; 8; 0; active alarm sources
  locked : Nat := 0  -- R461; 8; 0; sources holding the lock
  highest : Nat := 0  -- Table 19.5 HIGHEST; 2; 0
  unsealed : Bool := false  -- R453, R436; 1; 0; keys unsealed
  fails : Nat := 0  -- R90; 2; 0; failed privileged authentications in a row
  digestKey : Nat := 0  -- R131; 61; 0 until S1 draws it (DESIGN CHOICE, log entry 3); step digest key k
  feedGlitch : Option Nat := none  -- Table 18.5; 64; none; block time of the last supply glitch
  clockGlitch : Option Nat := none  -- Table 18.5; 64; none; block time of the last clock glitch
deriving DecidableEq, Repr

/-- Service port and console (R60 to R64, R463). -/
structure Service where
  vbus : Bool := false  -- R61; 1; 0; pull-up connected
  role : Option Nat := none  -- R463; 2; none; authenticated role
  challenge : Option Nat := none  -- R463; 128; none; challenge outstanding
  challengeTime : Nat := 0  -- R463; 64; 0; block time of the challenge
  wrongTime : Option Nat := none  -- R463; 64; none; block time of the last wrong response
  request : Option Nat := none  -- R464 IDENTITY; model; none; generated key whose certificate is awaited
  romOnly : Bool := false  -- R465; 1; 0; the hub ROM serves the console
  cert : List Byte := []  -- R279, R464; up to 2,048 bytes; none (DESIGN CHOICE, log entry 5); identity certificate
deriving DecidableEq, Repr

/-! ### Programs and partitions -/

/-- A seam of a seam table (Table 3.11). -/
structure Seam where
  pos : Nat  -- Table 3.11 POSITION; 40
  margin : Nat  -- Table 3.11 MARGIN; 16
  token : Bool  -- Table 3.11 TOKEN; 1
  window : Bool  -- Table 3.11 TEST_WINDOW; 1
  cross : Bool  -- Table 3.11 CROSS; 1
deriving DecidableEq, Repr

structure Program where
  id : Word := 0  -- Table 3.7 MAP_GRID w9; 32
  slack : Nat := 30  -- R173; 10; replay slack in 0.1 %
  windowUs : Nat := 40  -- R208; 10; test window length
  period : Nat := 64  -- R208; 16; test window period
  seams : Table (List Seam) := []  -- R94; model; seam table per field
deriving DecidableEq, Repr

/-- An armed start barrier (R408). -/
structure Barrier where
  id : Nat := 0  -- Table 3.7 BARRIER_ARM; 16
  count : Nat := 1  -- Table 3.7 BARRIER_ARM; 9
  timeout : Nat := 0  -- Table 3.7 BARRIER_ARM; 32; us
  armedAt : Nat := 0  -- R411; 64; block time of the arm
  sent : Bool := false  -- R408; 1; ARM sent to the parent
  rel : Option Int := none  -- R408; 64; local release time
  lateNs : Nat := 0  -- R409; 32; ns by which RELEASE came late
  q : Nat := 0  -- R408; 7
  e : Nat := 0  -- R408; 12
deriving DecidableEq, Repr

/-- A pending freeze or thaw (R425). -/
structure FreezePend where
  freeze : Bool := true  -- R425; 1
  late : Bool := false  -- Table 16.6 LATE; 1; trigger arrived after its converted time
  left : List Nat := []  -- R425; model; none; fields that have still to act at a seam
  trigger : Nat := 0  -- R425; 64; as given
  local_ : Int := 0  -- R425; 64; converted local time
  q : Nat := 0  -- R425; 7
  e : Nat := 0  -- R425; 12
deriving DecidableEq, Repr

/-- The timing tree of a partition's job (R405). -/
structure Tree where
  job : Nat := 0  -- R405; 16; job identifier
  peers : List PeerInfo := []  -- R405; model; peers measured directly
  parent : Option Nat := none  -- R405; 6; port of the parent; none at the root
  uncert : Nat := 0  -- R405; 32; U in ps
  theta : Int := 0  -- R406; 64; offset to the root, ns
  size : Nat := 1  -- R422; 9; wafers of the tree
  depth : Nat := 0  -- Table 15.5; 8; hops to the root
  rate : Int := 0  -- R403; 32; rate of the path, ppb
  lost : Bool := false  -- R407; 1; 0; no path to the root
  above : Int := 0  -- R406; 64; offset of the parent to the root, ns
  aboveAt : Nat := 0  -- R406; 64; block time of that offset
deriving DecidableEq, Repr

structure Part where
  tenant : Nat := 0  -- R18; 4; none; holder
  colLo : Nat := 0  -- R17; 4; none
  colHi : Nat := 0  -- R17; 4; none
  rowLo : Nat := 0  -- R17; 3; none
  rowHi : Nat := 0  -- R17; 3; none
  prog : Option Program := none  -- R245; model; none; loaded program
  opmode : Nat := 0  -- R358; 2; 0 (no default stated: DESIGN CHOICE, log entry 6); mode last set
  opmodeRun : Nat := 0  -- R358; 2; 0; mode in force since the last LOAD
  redund : Bool := false  -- R146; 1; 0 (DESIGN CHOICE, log entry 6)
  policy : Nat := 0  -- R125, R492; 4; 0 (DESIGN CHOICE, log entry 6); CHECK_POLICY word 3 last set
  spotN : Nat := 6  -- R141; 5; 6
  spareFirst : Bool := false  -- R175; 1; 0
  lateOk : Bool := false  -- R175; 1; 0
  warnPct : Nat := 80  -- R175; 7; 80
  engines : Nat := 0  -- R420; 4; 0
  reasons : Nat := 0  -- R420; 8; 0
  sampleExp : Nat := 12  -- R420; 5; 12
  tree : Option Tree := none  -- R405; model; none; last TIME_ALIGN
  aligning : Option (Nat × Nat) := none  -- R405; model; none; TIME_ALIGN command in flight
  ports : List Nat := []  -- R402; 64; none; ports of the mask whose lanes measure
  job : Nat := 0  -- R405; 16; 0; job identifier of the last TIME_ALIGN
  arms : List (Nat × Nat) := []  -- R408; model; none; ARM frames heard from children (serial, barrier)
  barrier : Option Barrier := none  -- R408; model; none
  waitLimit : Option Nat := none  -- R300; 32; none; timeout of the last BARRIER_ARM, us
  freeze : Option FreezePend := none  -- R425; model; none
  heldAll : Bool := false  -- R197, R255, R294; 1; 0; held until unload or reset
  idleDuty : Nat := 0  -- R362; 4; 0; in sixteenths
  capCeil : Nat := 0  -- R361; 16; 0 (none); ceiling of the cap plan, MHz
  thermCeil : Nat := 0  -- R380; 16; 0 (none); thermal ceiling, MHz
  thermDuty : Nat := 0  -- R380; 4; 0; thermal idle duty
  thermDone : Bool := false  -- R380; 1; 0; the arbiter has stopped tightening
  railCeil : Nat := 0  -- R364; 16; 0 (none); ceiling after a rail excess, MHz
  railTime : Nat := 0  -- R364; 64; 0; block time of the last excess
  lastRaise : Nat := 0  -- R361; 64; 0; block time of the last raise
  findings : Nat := 0  -- R284; 32; 0
  slackWarned : List Nat := []  -- R175; model; none; token numbers with an EV_SLACK_WARN
  slackOut : List Nat := []  -- R175; model; none; token numbers with an EV_SLACK_EXHAUSTED
  gone : Bool := false  -- R294; 1; 0; the program is unloaded by a FIELD reset; fields in a step end it first
  unloading : Option (Nat × Nat) := none  -- R22, R81; model; none; UNMAP command whose fields have still to reach their seams
  programStart : Nat := 0  -- R298; 64; 0; block time of the load
deriving DecidableEq, Repr

/-! ### Fields -/

inductive Run where
  | idle     -- no program loaded
  | running  -- between two seams
  | held     -- held at a seam
  | gated    -- compute islands gated (R295, R383)
deriving DecidableEq, Repr

/-- A failed tile of a step, as the warden has latched it (R36, R162). -/
structure ReplayFail where
  tile : Nat  -- R162; 24; logical tile address
  cls : Nat  -- Table 4.5; 4; check class
  word : Dword  -- Table 4.4, Table 5.5; 64; syndrome or comparison word
  time : Nat := 0  -- R162, R270; 64; warden timestamp of the latch
deriving DecidableEq, Repr

/-- A substitution claim (R250). -/
structure Claim where
  source : Nat  -- Table 9.4; 3; order 1-4
  place : Nat  -- R250; 14; logical place
  expected : Nat  -- R250; 14; expected owner
  owner : Nat  -- R250; 14; new owner
  gen : BitVec 6  -- R250; 6; field generation
  back : Bool := false  -- R250; 1; the claim returns its own tile
  q : Nat := 0  -- R252; 7; QUARANTINE command, if any
  e : Nat := 0  -- R252; 12
  source9 : Nat := 0  -- Table 9.9; 3; EV_QUARANTINE source of the tile replaced (0 a command's, 3 in-service detection)
  reason : Nat := 8  -- Table 9.3; 4; quarantine reason of the tile replaced
  copied : Bool := false  -- R157, R252; 1; the image copy to the new owner has been made at this seam
  tries : Nat := 0  -- R157; 2; image copies at this seam whose digests disagreed
deriving DecidableEq, Repr

/-- A Bench test in a rotation slot (R201, R213). -/
structure BenchSlot where
  tile : Nat := 0  -- R201; 14; tested place
  trigger : Nat := 0  -- Table 8.5 TRIGGER; 3
  corner : Nat := 0  -- Table 8.1; 2
  inPlace : Bool := true  -- R202; 1; tested in place
  subst : Option Nat := none  -- R205; 14; substitute
  place : Nat := 0  -- R206; 14; logical place the substitute holds
  out : Bool := false  -- R216; 1; swap-out made
  copied : Bool := false  -- R216; 1; image copy of the swap done at this seam
  tries : Nat := 0  -- R157, R216; 2; image copies at this seam whose digests disagreed
  from_ : Nat := 0  -- R250; 14; owner from which the image was copied, the claim's expected owner
  whole : Bool := false  -- R203; 1; the corner applies to the whole tile, router included
  done : Bool := false  -- R217; 1; last segment run, swap-back due
  freq : Nat := 1000  -- R211; 16; corner frequency, MHz
  fmaxOld : Nat := 0  -- Table 8.5; 11
  ladder : Nat := 0  -- R220; 4; j of the ladder, 0 none
  pattern : Nat := 1  -- Table 8.2; 4; pattern being run
  left : Nat := 810000  -- R213; model; us of segments left of the standard test
  failOnce : Bool := false  -- R219; 1; the segment has failed once
  firstBad : Nat := 0  -- Table 8.5 PATTERN; 4
  rowsBad : List Nat := []  -- R214, R218; model; none; rows that SRAM_MARCH found failing
  linksBad : List Nat := []  -- R214, R218; model; none; edges that DMA_LOOP found failing
  windows : Nat := 0  -- Table 8.5; 16
  admitted : Bool := false  -- R209; 1; stress admitted in the present window
  droops : Nat := 0  -- R229; 2
  drooped : Bool := false  -- R229; 1; a droop struck during the admitted window
  site : Nat := 0  -- R215; 4; injection site armed in the running CHECKER segment, 0 none
  nextSite : Nat := 1  -- R215; 4; site of the next CHECKER injection
  miss : Bool := false  -- R215; 1; an injected contraction did not fail with its expected class
  result : Nat := 15  -- Table 8.4; 4; 0xF while it runs
  rows : Nat := 0  -- Table 8.5 ROWS; 4; rows spared by the test
  links : Nat := 0  -- Table 8.5 LINKS; 4; links spared by the test
  instrBad : Bool := false  -- R234; 1; SRAM_MARCH found an instruction SRAM fault
  lowered : Bool := false  -- R220; 1; the ladder found a lower frequency
  syndrome : Dword := 0  -- R214; 64
  handles : List Nat := []  -- R231; model; BENCH_RUN operations attached
deriving DecidableEq, Repr

/-- A test waiting for a slot (R226). -/
structure BenchWait where
  tile : Nat  -- R226; 14
  trigger : Nat  -- Table 8.5; 3
  corner : Nat  -- Table 8.1; 2
  order : Nat  -- R226; model; age
  handles : List Nat  -- R231; model; BENCH_RUN operations
  fetched : Option Nat := none  -- R226; model; none; fetch order of the first BENCH_RUN that names the tile
deriving DecidableEq, Repr

/-- A spot check under way (R137). -/
structure Spot where
  tile : Nat  -- R137; 14; logical place
  phys : Nat  -- R139; 14; physical place that ran the step
  spare : Nat  -- R136; 14; spot spare
  seamNo : Nat  -- R137; 24; seam at which the snapshot started
  startAt : Nat := 0  -- R137; 64; block time at which the snapshot started
  running : Bool := false  -- R137; 1; the spare is executing
  digest : Nat := 0  -- R130; 61; digest of the original
  lines : List Nat := []  -- R137; 32 x 64 bytes; none; lines captured in the snapshot side buffer
deriving DecidableEq, Repr

/-- One episode of a field (R266, Table 10.4). -/
structure Episode where
  first : SourceDetail  -- R262; model; first source
  time : Nat  -- R270; 64; first latch
  gen : BitVec 6  -- Table 10.2 GEN; 6
  classes : Nat  -- Table 10.2 CLASSES; 13
  later : Nat := 0  -- Table 10.2 LATER; 16
  storm : Bool := false  -- Table 10.2 STORM; 1
  late : Bool := false  -- R268; 1
  second : Nat := 0xFFFFFF  -- Table 10.4; 24
  last : Nat := 0xFFFFFF  -- Table 10.4; 24
  more : Nat := 0  -- Table 10.4; 16
  layer : Nat := 0  -- Table 10.4; 16
  op : Nat := 0  -- Table 10.4; 16
  released : Bool := false  -- R266; 1; the following seam has been released
  seam : Nat := 0  -- R266; model; seams reached at the first latch
deriving DecidableEq, Repr

/-- An open storm record (R275). -/
structure Storm where
  start : Nat  -- Table 10.6 START; 64
  stopped : Nat  -- Table 10.6; 64; close time, 0 while open
  bursts : Nat  -- Table 10.6; 16
  peak : Nat  -- Table 10.6; 16
  counts : List Nat  -- Table 10.6; 13 x 16
  droop : Bool  -- Table 10.6; 1
  prog : Bool  -- Table 10.6; 1
  continued : Bool  -- Table 10.6; 1
  first : Nat  -- Table 10.6 FIRST_ADDR; 24
  classes : Nat := 0  -- R275; 13; field-level classes latched in its episodes
  routers : Nat := 0  -- R275; model; 0; router pins that rose in the storm
  lastRise : Nat := 0  -- R275; 64; block time at which a pin last rose
  seam0 : Nat := 0  -- R275; 24; seam of the first burst, from which the ring walk counts
deriving DecidableEq, Repr

/-- Warden state (R301 to R303). -/
inductive WardenState where
  | off | starting | up | inReset
deriving DecidableEq, Repr

/-- Three-node thermal model and its diodes (R372 to R377). -/
structure Thermal where
  node0 : Int := 400  -- R373; 16; DESIGN CHOICE 25 degrees until seeded (log entry 7); 1/16 degree
  node1 : Int := 400  -- R373; 16; DESIGN CHOICE 25 degrees (log entry 7); 1/16 degree
  node2 : Int := 400  -- R373; 16; DESIGN CHOICE 25 degrees (log entry 7); 1/16 degree
  tref : Int := 400  -- R376; 16; DESIGN CHOICE 25 degrees (log entry 7); 1/16 degree
  hist : List (Nat × Int) := []  -- R380, R381; model; none; node 0 over the last millisecond with its block time, newest first
  band : Nat := 0  -- R379; 3; 0 (DESIGN CHOICE, log entry 7)
  bandSet : Nat := 0  -- R379; 3; 0; band whose settings the tile guards apply since the last seam
  hold : Bool := false  -- R377; 1; 0; sensor hold in T4
  firstHold : Bool := false  -- R388; 1; 0; kept at T3 or above until S4 completes
  rising : Bool := false  -- R381; 1; 0; treated as in T4 for its rate of rise
  diodes : List (Option Int) := [none, none, none, none]  -- R389; 4 x 16; 0x8000; last readings, none if never, failed or excluded
  excluded : List Nat := []  -- R377; 4; none
  next : Nat := 0  -- R375; 2; 0; next diode of the rotation
  pending : List Nat := []  -- R375; 4; none; reads under way
  bandSecond : Nat := 0  -- R391; model; 0; second of the last EV_THERM_BAND plus one
  bandSkipped : Nat := 0  -- R391; 32; 0
  shut : Option Nat := none  -- R383; 48; none; sequence number of the EV_THERM_SHUTDOWN record
  shutDone : Bool := false  -- R383; 1; 0; shutdown carried out
  shutAt : Nat := 0  -- R391; 64; 0; block time of the shutdown's decision
  coolFrom : Option Nat := none  -- R384; 64; none; block time since which a shut-down field has stayed below 85 degrees
  coolBreaks : Nat := 0  -- R391; 32; 0; restart counts broken by a rise to 85 degrees
deriving DecidableEq, Repr

/-- A frequency change (R357). -/
structure FreqChange where
  from_ : Nat  -- R357; 16; previous clock, MHz
  dest : Nat  -- R357; 16; new clock, MHz
  stage : Nat := 0  -- R367; 2; 0 before the switch, 1 switched, 2 switched and voltage written
  wrote : Bool := false  -- R357; 1; the voltage write has been made
  wroteAt : Nat := 0  -- R357; 64; block time of the write
  switchedAt : Nat := 0  -- R357; 64; block time of the switch
  abort : Bool := false  -- R367; 1; aborting back
  cause : Nat := 0  -- Table 13.4; 3
deriving DecidableEq, Repr

structure FieldPower where
  kVcore : Rat := 5/4  -- R352; model; 1.25
  kVsram : Rat := 5/4  -- R352; model; 1.25
  kVlink : Rat := 5/4  -- R352; model; 1.25
  est : List (Nat × List Rat) := []  -- R350, R351; model; none; raw estimates of the last ms per rail with their block time, newest first
  peak : List (Nat × List Rat) := []  -- R365; model; none; 2 us windows of the last second per rail with their block time
  watts : List (Nat × List Rat) := []  -- R354; model; none; calibrated power of the last ms per rail with its block time
  excessDue : Nat := 0  -- R364; model; 0; rungs to lower the ceiling at the next seam
  excessSeen : Bool := false  -- R364; 1; 0; a seam has passed since the first excess
  excessLost : Option Nat := none  -- R364; model; none; rail whose excess cannot be cured
  kOut : List Nat := []  -- R353; 3; none; rail kinds whose calibration is out of range
  setpoint : Nat := 720  -- R355, R449; 16; 720 mV (reduced default of Table 17.6); VCORE setpoint
  change : Option FreqChange := none  -- R357; model; none
  lockout : Bool := false  -- R367; 1; 0
  postLock : Bool := false  -- Table 13.4 cause 4; 1; 0; a change was held back by a lockout
  excess : Nat := 0  -- R364; 32; 0; excess windows counted
  limits : Table Nat := []  -- R349; 3 x 16; board maximum; rail limit set by POWER_CAP, A, by kind
  droopSecond : Nat := 0  -- R371; model; 0
  droopSkipped : Nat := 0  -- R371; 32; 0
  clkSecond : Nat := 0  -- R371; model; 0
  clkSkipped : Nat := 0  -- R371; 32; 0
  lowered : List (Nat × Nat) := []  -- R225; model; none; tiles with a LOWERED result and its operating time
  lastTrim : Option Nat := none  -- R225; 40; none; operating time of the last raise
  trimLimit : Bool := false  -- R225; 1; 0; EV_TRIM_LIMIT has been committed
deriving DecidableEq, Repr

/-- A profile entry (Table 16.5). -/
structure Profile where
  layer : Nat := 0  -- Table 16.5; 16
  op : Nat := 0  -- Table 16.5; 16
  frozen : Bool := false  -- Table 16.5; 1
  partly : Bool := false  -- Table 16.5; 1
  maskChanged : Bool := false  -- Table 16.5; 1
  startSeam : Nat := 0  -- Table 16.5; 32
  endSeam : Nat := 0  -- Table 16.5; 32
  startTs : Nat := 0  -- Table 16.5; 64
  endTs : Nat := 0  -- Table 16.5; 64
  sums : List Word := []  -- Table 16.5 SUMS; model; none
deriving DecidableEq, Repr

/-- Field counters of the latch header (Table 16.4). -/
structure FieldCount where
  hold : Nat := 0  -- Table 16.4 HOLD_CYCLES; 48; 0
  idleHold : Nat := 0  -- Table 16.4 IDLE_HOLD; 48; 0
  drawn : Nat := 0  -- Table 16.4 SPOT_DRAWN; 32; 0
  agree : Nat := 0  -- Table 16.4 SPOT_AGREE; 32; 0
  skipCap : Nat := 0  -- Table 16.4 SPOT_SKIP_CAP; 32; 0
  skipOther : Nat := 0  -- Table 16.4 SPOT_SKIP_OTHER; 32; 0
  superseded : Nat := 0  -- Table 16.4 SPOT_SUPERSEDED; 32; 0
  lost : Nat := 0  -- Table 16.4 LOST_STEPS; 16; 0
  late : Nat := 0  -- Table 16.4 LATE_TOKENS; 16; 0
  disturbed : Nat := 0  -- Table 16.4 DISTURBED; 32; 0
  profilesLost : Nat := 0  -- Table 16.4 PROFILES_LOST; 16; 0
deriving DecidableEq, Repr

structure Field where
  stage : Nat := 0  -- R432; 3; 0
  excluded : Bool := false  -- R433; 1; 0
  exclStage : Nat := 0  -- R451; 3; 0; stage that failed
  exclCause : Nat := 0  -- Table 17.3; 8; 0; cause of the exclusion
  reduced : Bool := false  -- R445; 1; 0; in reduced service
  deferred : Bool := false  -- R447; 1; 0
  quickFailed : List Nat := []  -- R438; 10,000; none; places whose tiles failed the quick test, left out of the reduced layout
  zoneDown : Bool := false  -- R369; 1; 0; its zone has lost power-good
  tripped : Bool := false  -- R386; 1; 0; stopped by a zone trip
  run : Run := .idle  -- R21; enum; idle
  clock : Nat := 1000  -- R356; 16; DESIGN CHOICE 1000 MHz until a layout is built (log entry 4); field clock in force
  map : FieldMap := {}  -- R244; model; identity
  redund : Bool := false  -- R146, R149; 1; 0; runs with redundancy
  epoch : Bool := false  -- R248; 1; 0; current route-table version
  idleDirty : Bool := false  -- R249; 1; 0; the idle version is not writable
  switched : Bool := false  -- R249; 1; 0; no seam released since the switch
  fwd : List (Nat × Nat) := []  -- R248; model; none; forward entries (old owner, new owner)
  idleMap : List (Nat × Nat) := []  -- R164, R250; model; none; entries of the idle version that differ from the current one (position, owner)
  lent : Table Nat := []  -- Table 3.9; model; none; lent spares: 0 spot check, 2 Bench
  quarReturn : Table Nat := []  -- R252; model; none; lent tiles to quarantine at their return, with the reason
  quarUnload : List (Nat × Nat) := []  -- R234, R241; model; none; tiles whose quarantine waits for unload or reset, with the reason
  level : Nat := 0  -- R254; 3; 0 (AMPLE)
  -- seam and step
  seam : Nat := 0  -- R105; 32; 0; index of the next seam
  count : Nat := 0  -- R298; 64; 0; running count of cycles
  arrived : Nat := 0  -- R21; 14; 0; logical tiles arrived
  arriveTs : Nat := 0  -- R270; 64; 0
  releaseTs : Nat := 0  -- R270; 64; 0
  stepLen : Nat := 0  -- R362; 32; 0; cycles of the step just ended
  failed : List ReplayFail := []  -- R162; model; none; failed tiles of the step in latch order
  taints : List (Nat × Nat) := []  -- R162; model; none; (tainted tile, origin)
  crossSent : List Nat := []  -- R163; model; none; fields to which markers of the step have gone
  droop : Bool := false  -- R169; 1; 0; the step counts as failed
  noReplay : Bool := false  -- R170; 1; 0; class PROGRAM or an unshared marker
  lostCause : Option Nat := none  -- R171; 5; none; a lost step awaits its reset
  reserved : List (Nat × Nat) := []  -- R165; model; none; (logical place, reserved spare)
  rowsDue : List (Nat × Nat × Nat) := []  -- R234; model; none; rows to retire at the next seam (place, row, record source)
  linksDue : List (Nat × Nat × Nat) := []  -- R235; model; none; links that failed, switched at the next seam (place, edge, record source)
  backDue : List (Nat × Nat × Nat) := []  -- R253; model; none; rows (1), links (2) and slots (4) back in service at the next seam (kind, place, index)
  slotsDue : List Nat := []  -- R252; model; none; command slots to retire at the next seam
  releaseDue : List (Nat × Nat × Nat) := []  -- R229; model; none; RELEASE of a tile under test (place, queue slot, entry)
  claims : List Claim := []  -- R250; model; none; claims due
  -- tokens and slack
  token : Nat := 0  -- R172; 32; 0; token number
  charge : Nat := 0  -- R174; 32; 0; charged cycles of the token
  shed : Bool := false  -- R175; 1; 0
  disturbed : Bool := false  -- R401; 1; 0; the token is disturbed
  tokenStart : Nat := 0  -- R172; 40; 0; position of the token's start
  -- settings in force since the field's last seam (R125, R141, R175, R420)
  observe : Nat := 0  -- R125; 2; 0; observe bits in force
  spotN : Nat := 6  -- R141; 5; 6; rate in force
  spareFirst : Bool := false  -- R175; 1; 0
  lateOk : Bool := false  -- R175; 1; 0
  warnPct : Nat := 80  -- R175; 7; 80
  engines : Nat := 0  -- R420; 4; 0
  reasons : Nat := 0  -- R420; 8; 0
  sampleExp : Nat := 12  -- R420; 5; 12
  spotSeed : Nat := 0  -- R135; model; 0; seed of the sampling generator
  spotOwed : List Nat := []  -- R140; model; none; tiles to sample at the next step
  sampled : List Nat := []  -- R135; model; none; tiles sampled in the running step
  spots : List Spot := []  -- R137; model; none
  atStart : Bool := false  -- R408; 1; 0; held at program start by an armed barrier
  headers : Nat := 0  -- R420; 16; DESIGN CHOICE 0 (log entry 160); router headers since the last one sampled
  injected : Option (Nat × Nat × Nat) := none  -- R127; model; none; armed injection (tile, site, count)
  injectDue : Option (Nat × Nat × Nat) := none  -- R125, R127; model; none; injection to arm at the next seam
  quiet : Bool := false  -- R309; 1; 0; held at a seam by a quiesce
  stopped : Bool := false  -- R81; 1; 0; stopped at its seam for an UNMAP
  -- faults
  guardPins : List Nat := []  -- R261; 10,000; none; asserted guard pins in order of rise
  routerPins : List SourceDetail := []  -- R261; 10,000; none; asserted router pins
  latched : Option SourceDetail := none  -- R262; model; none; source whose detail is being read
  lateLatch : Bool := false  -- R268; 1; 0; pins stood when the warden came up
  episode : Option Episode := none  -- R266; model; none
  ringLost : Nat := 0  -- Table 10.2 RING_LOST; 16; 0
  rateSecond : Nat := 0  -- R271; model; 0; second of block time of the count
  rateCount : Nat := 0  -- R271; 5; 0; episode records of that second
  summary : Option (Episode × Nat) := none  -- R271; model; none; first summarised episode and how many
  storm : Option Storm := none  -- R275; model; none
  -- warden
  warden : WardenState := .off  -- R29; enum; off
  beats : Nat := 0  -- R302; 3; 0; heartbeats missed in a row
  starts : Nat := 0  -- R303, R437; 2; 0; failed restarts or starts
  resends : Table (List (Nat × Nat)) := []  -- R25, R235; model; none; per-path resend counters of the last second by place x 4 + edge (operating time, resends)
  wardenTs : Nat := 0  -- R270; 64; 0; warden's timestamp copy
  ring : List (Nat × Nat × Nat × List Nat) := []  -- R428; 1,024 x 32 bytes; empty; entries (type, seam, time, identifiers in force and detail)
  link : List (Nat × Option Nat × List Word) := []  -- R35, R428; 576; none; records waiting for the hub, oldest first (type, partition, body): 64 in the link's queue, the rest in the ring marked BACKLOG
  waitBarrier : Bool := false  -- R300; 1; 0; waits on the barrier tree
  -- Bench
  bench : Table BenchSlot := []  -- R201; 4; free
  waitTests : List BenchWait := []  -- R226; model; none
  benchLock : Bool := false  -- R229; 1; 0; no stress for 10 minutes after the third droop
  window : Nat := 0  -- R207; 64; 0; block time at which the open test window ends, 0 for none
  lastStart : Table Nat := []  -- R227; model; none; last rotation start per slot, operating time
  defers : Nat := 0  -- R205; 32; 0
  benchSkips : Table Nat := []  -- R209; model; 0; windows not admitted, by reason (0 allowance, 1 band, 2 droop)
  benchCold : Nat := 0  -- R211; model; 0; segments whose heat target was not reached
  benchPassing : Nat := 0  -- R219; model; 0; Bench transients
  -- thermal, power, counters
  therm : Thermal := {}  -- R372; model; see Thermal
  power : FieldPower := {}  -- R351; model; see FieldPower
  cnt : FieldCount := {}  -- Table 16.4; model; 0
  latchWait : List (Nat × Nat) := []  -- R423; model; none; COUNTER_LATCH commands waiting for the next seam
  latchOut : Option (Nat × Nat) := none  -- R423; model; none; COUNTER_LATCH whose output of the field is being written
  latchTs : Nat := 0  -- R423; 64; 0; latch seam
  latchHead : List Word := []  -- R424; 32 x 32; none; header of the latch being written
  latchProfiles : List Profile := []  -- R424; model; none; profile entries of the latch being written
  compute : Option ComputeCmd := none  -- R413; 32; none; compute command running
  computeDue : List ComputeCmd := []  -- R413; model; none; compute commands reported whose start seam is not reached
  profiles : List Profile := []  -- R421; 128; none; profile entries since the last latch, oldest first
  cycLive : Table Nat := []  -- R415, R421; 4 x 48; 0; cycles counted per enabled engine of every tile, LIVE
  cycStart : Table Nat := []  -- R421; 4 x 48; 0; the same, START
  cycStop : Table Nat := []  -- R421; 4 x 48; 0; the same, END
  cycLatch : Table Nat := []  -- R421; 4 x 48; 0; the same, LATCH
  frozen : Option Nat := none  -- R425; 64; none; time at which the field's counters froze
  cut : Nat := 0  -- R425; 48; 0; cycles of the step or hold in progress that lie before the last freeze or thaw in it
  frozenSeen : Bool := false  -- Table 16.5 FROZEN; 1; 0; a freeze was in force during the compute command
  startTs : Nat := 0  -- Table 16.5; 64; 0
  maskChanged : Bool := false  -- Table 16.5; 1; 0
deriving DecidableEq, Repr

/-! ### Tile guards and tile counters -/

/-- Entry of a tile ring (R427). -/
structure RingEntry where
  typ : Nat  -- Table 16.8; 8
  seam : Nat  -- R427; 24
  cycle : Nat  -- R427; 16
  arg : Nat  -- R427; 16
  detail : Dword  -- R427; 64
deriving DecidableEq, Repr

/-- What Table 10.9 gives of a failure as it stood at its first detection. -/
structure Detection where
  time : Nat  -- Table 10.9 TIMESTAMP; 64
  part : Option Nat  -- Table 10.9 PARTITION; 4
  tenant : Nat  -- Table 10.9 TENANT; 4
  logical : Nat  -- Table 10.9 TILE_LOG; 24
  clock : Nat  -- Table 10.9 FIELD_CLOCK; 16
  layer : Nat  -- Table 10.9 LAYER_ID; 16
  op : Nat  -- Table 10.9 OP_ID; 16
  temp : Int  -- Table 10.9 TEMP; 16
  vcore : Nat  -- Table 10.9 VCORE; 16
deriving DecidableEq, Repr

/-- R277: the failure that last made a tile suspect. -/
structure SuspectCause where
  kind : Nat  -- Table 10.7 KIND; 8
  severity : Nat  -- Table 10.8 ErrorSeverity; 32
  word : Dword  -- Table 10.9 DETAIL0; 64
  seen : Detection
deriving DecidableEq, Repr

/-- R144: an export of a primary that waits at the gate for the export digest of its shadow. -/
structure Gated where
  n : Nat  -- Table 5.5 EXPORT; 16; number within the step
  digest : Nat  -- R130; 61; export digest
  x : Export
deriving DecidableEq, Repr

/-- The step state of a tile guard, its hold buffer and its ring (physical tile). -/
structure Guard where
  gateShut : Bool := false  -- R106; 1; 0; a verdict of the step has failed
  pin : Bool := false  -- R26; 1; 0; error pin
  arrived : Bool := false  -- R21; 1; 0
  tainted : Bool := false  -- Table 6.1 TAINTED; 1; 0
  recalled : Bool := false  -- Table 6.1 RECALLED; 1; 0
  holdOvf : Bool := false  -- Table 6.1 HOLD_OVF; 1; 0
  inbound : Bool := false  -- Table 6.1 INBOUND_ORDER; 1; 0
  checkpoint : Nat := 0  -- Table 6.1; 24; 0; seam index of the seam checkpoint
  engines : List Word := []  -- Table 6.1; 64 x 32; none before the first arrival; seam checkpoint: program and loop counters, DMA descriptors, handle table
  enginesNext : List Word := []  -- R152; 64 x 32; none; the same as at the arrival, for the next step
  undo : List (Nat × BitVec 512) := []  -- Table 6.1; 120 x 64 bytes; none; tagged undo rows
  touched : List Nat := []  -- R154; model; none; rows own engines wrote in the step
  digest : Nat := 0  -- R130; 61; 0; step digest so far
  symbols : Nat := 0  -- R130; 24; 0; symbols folded
  exportNo : Nat := 0  -- Table 5.5 EXPORT; 16; 0
  owed : List (Nat × Nat) := []  -- R144; model; none; export digests of a shadow that its primary has not reached yet (number, digest)
  gated : List Gated := []  -- R144; model; none; exports waiting for the shadow's digest
  ownFail : Bool := false  -- R145; 1; 0; a verdict of this tile itself has failed in the step or its replay
  again : Option (Nat × Dword) := none  -- R145, R164, R137; model; none; class and word of the first failure of the replay or re-execution in progress
  redone : Bool := false  -- R164; 1; 0; the replay or re-execution in progress has reached its seam
  recent : List (Nat × Nat × List Word) := []  -- R169; model; none; exports released: (cycle, addressee, header)
  ports : List (Nat × Dest) := []  -- R160; model; none; exports held at ports: (digest, port)
  tokenWords : List Word := []  -- R198; 8,192 bytes; none; payload held at the host interface
  syndrome : Dword := 0  -- R122; 64; 0; first failing contraction's syndrome word
  cls : Nat := 0  -- Table 4.5; 4; 0
  instrAddr : Nat := 0  -- Table 10.4 LOCAL; 16; 0
  more : Nat := 0  -- R122; 16; 0; later failures of the step
  seen : Option Detection := none  -- R277; model; none; the step's first failure as it stood at its detection
  injCount : Nat := 0  -- R127 site 0x1; 32; 0; injections in the tile since power-up
  underTest : Bool := false  -- R214; 1; 0
  rowUses : List (Nat × Nat) := []  -- R234; model; none; corrected errors (row, operating time)
  ring : List RingEntry := []  -- R427; 32 x 16 bytes; empty
deriving DecidableEq, Repr

/-- One bank of an engine's counters (R415, R416). -/
structure TileCount where
  matrixBusy : Nat := 0  -- Table 16.2; 48; 0
  replayCycles : Nat := 0  -- Table 16.2; 48; 0
  residue : Nat := 0  -- Table 16.2; 32; 0
  round : Nat := 0  -- Table 16.2; 32; 0
  parity : Nat := 0  -- Table 16.2; 32; 0
  specialFail : Nat := 0  -- Table 16.2; 32; 0
  tolerance : Nat := 0  -- Table 16.2; 32; 0
  parityAbst : Nat := 0  -- Table 16.2; 32; 0
  tolAbst : Nat := 0  -- Table 16.2; 32; 0
  specialContr : Nat := 0  -- Table 16.2; 32; 0
  injected : Nat := 0  -- Table 16.2; 32; 0
  replaySame : Nat := 0  -- Table 16.2; 32; 0
  replaySpare : Nat := 0  -- Table 16.2; 32; 0
  taint : Nat := 0  -- Table 16.2; 32; 0
  recalls : Nat := 0  -- Table 16.2; 32; 0
  holdOvf : Nat := 0  -- Table 16.2; 32; 0
  inbound : Nat := 0  -- Table 16.2; 32; 0
  eccCorr : Nat := 0  -- Table 16.2; 32; 0
  eng : Table Nat := []  -- R415, R416; 48 each; 0; engine counters by 16 x engine + kind (0 BUSY, 1 STALL, 8 + reason); IDLE is the rest of the field's cycles
deriving DecidableEq, Repr

/-- The four banks of a logical tile (R421). -/
structure TileBanks where
  live : TileCount := {}  -- R421 LIVE; model; 0
  start : TileCount := {}  -- R421 START; model; 0
  stop : TileCount := {}  -- R421 END; model; 0
  latch : TileCount := {}  -- R421 LATCH; model; 0
deriving DecidableEq, Repr

/-! ### Replay groups -/

inductive GroupState where
  | waiting      -- waits for a same-tile slot
  | same         -- replays on the same tiles
  | waitSpare    -- failed tiles wait for spare-replay slots
  | copying      -- image copies under way
  | spare        -- replays on the spares
  | done         -- released
deriving DecidableEq, Repr

/-- A replay group (R162). Tiles are logical tile addresses. -/
structure Group where
  id : Nat  -- R162; model
  field : Nat  -- R176; 7; field of the triggering tile
  fields : List Nat  -- R163; model; fields of the group
  tiles : List Nat  -- R162; model
  failed : List ReplayFail  -- R162; model; failed tiles, first latched first
  trigger : Nat  -- Table 6.3 TRIGGER; 3
  state : GroupState  -- R164; enum
  spareFirst : Bool  -- Table 6.3 SPARE_FIRST; 1
  spares : List (Nat × Nat) := []  -- R164; model; (logical tile, spare physical tile)
  copies : List Nat := []  -- R157; model; logical tiles whose image copy is not done
  retried : List Nat := []  -- R157; model; copies repeated after a digest disagreement
  copyTime : List (Nat × Nat) := []  -- Table 6.2; model; cycles that the copies under way have taken (logical tile, cycles)
  since : Nat := 0  -- R168; 64; block time at which the replay or copy in progress started
  round : List Nat := []  -- R164; model; logical tiles that replay on their own tiles in this round
  noted : List Nat := []  -- R167; model; tiles of the group whose transient has been counted
  cycles : Nat := 0  -- Table 6.3 HOLD; 18; charged cycles
deriving DecidableEq, Repr

/-! ### Sideboard -/

/-- A replica's report for an interval (R190, R192). -/
structure Report where
  replica : Nat  -- Table 7.1 REPLICA; 8
  interval : Nat  -- Table 7.1 INTERVAL; 32
  digest : Nat  -- Table 7.1 DIGEST; 61
  changed : Bool  -- Table 7.1 CHANGED; 1
  tokens : Nat  -- Table 7.1 TOKENS; 24
  remote : Bool  -- R200; 1; it came from another wafer
deriving DecidableEq, Repr

/-- A comparison that is open (R192). -/
structure OpenComp where
  interval : Nat  -- Table 7.1 INTERVAL; 32
  since : Nat  -- R192; 64; block time of the local report
  cmds : List (Nat × Nat) := []  -- R190; model; DIGEST_COMPARE commands with NOW that it answers
deriving DecidableEq, Repr

/-- A stream context (R182). -/
structure Context where
  kind : Nat := 0  -- R182; 1
  tenant : Nat := 0  -- R182; 4
  num : Nat := 0  -- R182; 17
  part : Nat := 0  -- R182; 4
  field : Nat := 0  -- R182; 7
  first : Nat := 0  -- R182; 24; first logical tile
  length : Nat := 0  -- R182; 32
  masks : List (BitVec 1024) := []  -- R177; 1,024 each; masks of covered rows, tile by tile from the first
  group : Nat := 0  -- R183; 16
  replica : Nat := 0  -- R183; 8
  ready : Bool := false  -- R184; 1; the definition has completed
  defined : Nat := 0  -- R188; 61; defined digest
  parts : List Nat := []  -- R277; model; digest parts per tile
  digest : Nat := 0  -- R188; 61; maintained digest or chain value
  changed : Bool := false  -- R187; 1
  written : Bool := false  -- R179; 1
  expelled : Bool := false  -- R197; 1
  badTile : Option Nat := none  -- R277; 24; logical address of the first tile whose part differed
  interval : Nat := 64  -- R190; 16
  seams : Nat := 0  -- R190; 32; seams since program start at the last report of the context
  intervalNo : Nat := 0  -- Table 7.1 INTERVAL; 32
  tokens : Nat := 0  -- R199; 24
  opens : List OpenComp := []  -- R192; model; none; comparisons that are open, oldest first
  sentAt : Nat := 0  -- R193; 64; 0; block time at which the records of its last report have left
  passFrom : Option Nat := none  -- R189; 64; none; block time at which the scrub pass under way was restarted on another tile
  reports : List Report := []  -- R192; model; reports of the open intervals, and of later ones
  known : Table Nat := []  -- R192; model; known replicas and comparisons missed in a row
  remotes : List Nat := []  -- R196; model; replicas heard from other wafers
  gone : List Nat := []  -- R196; model; replicas of other wafers that EXPEL removed from this wafer's view
  agree : Nat := 0  -- R190; 8; replicas agreeing at the last close
  disagree : Nat := 0  -- R190; 8
  nowCmd : List (Nat × Nat) := []  -- R190; model; DIGEST_COMPARE commands with NOW whose comparison has not begun
  nowAt : Nat := 0  -- R190; model; count of seams from which NOW asks for its comparison
  reverify : Bool := false  -- R195; 1
  reverifyNo : Nat := 0  -- R195; 32; 0; interval whose comparison the re-verification settles
  matches_ : List (Nat × Nat × Bool) := []  -- R195; model; re-verification results heard (replica, interval, match)
deriving DecidableEq, Repr

structure Sideboard where
  contexts : List Context := []  -- R182; 131,072; none
  sendUntil : Nat := 0  -- R193; 64; 0; block time at which the records queued to be sent have left, in units of 1 ns
  discards : Nat := 0  -- R191; 32; 0
  crcBad : Nat := 0  -- R191; 32; 0
  skipped : Nat := 0  -- R193; 32; 0
  unaligned : Nat := 0  -- R199; 32; 0
  transients : Nat := 0  -- R195; 32; 0
  agreed : Nat := 0  -- R194; 32; 0; comparisons that agreed
deriving DecidableEq, Repr

/-! ### Timing lanes -/

structure Lane where
  sync : Bool := false  -- R68; 1; 0 (S3 brings lanes to sync)
  excl : Bool := false  -- R403; 1; 0; excluded for disagreement
  seqNo : Nat := 0  -- Table 2.9; 4; 0; next PROBE sequence number
  sent : List (Nat × Nat) := []  -- R402; model; none; (sequence, t1) of own PROBEs
  peerProbe : Option (Nat × Nat × Nat) := none  -- R402; model; none; (sequence, t3 in ns, t4 in half ns) of the peer's last PROBE
  rounds : List (Int × Int) := []  -- R403; 64; none; (local time, offset in quarters of 1 ns), newest first
  crcBad : Nat := 0  -- R67; 32; 0
deriving DecidableEq, Repr

/-! ### Hang detection and resets -/

/-- A requested or running reset (R292, R295). -/
structure ResetRun where
  level : Nat  -- Table 11.2; 3
  dom : Nat  -- R285; 8; target domain
  cause : Nat  -- Table 11.10; 5
  escalated : Bool := false  -- Table 11.9; 1
  cmd : Option (Nat × Nat) := none  -- R96; model; RESET command
  dump : Bool := false  -- Table 11.9 DUMP; 1
  aborted : Nat := 0  -- Table 11.9 ABORTED; 16
  started : Nat := 0  -- R295; 64; block time of the start
deriving DecidableEq, Repr

structure Hang where
  gens : Table (BitVec 6) := []  -- R285; 229 x 6; 0; generation counters by domain
  requests : List ResetRun := []  -- R292; model; none; resets requested, oldest first
  running : List ResetRun := []  -- R295; model; none; resets under way
  stale : Table (Nat × BitVec 6 × Nat) := []  -- R289; model; none; drops per domain: count, generation, reset time
  hbCount : Nat := 0  -- Table 19.6 COUNT; 16; 0
  hbAt : Option Nat := none  -- Table 19.4 HUB_FW; 64; none; block time of the last hub heartbeat toggle
  fires : Nat := 0  -- Table 19.6 FIRES; 8; 0
  windowOpen : Bool := false  -- R304; 1; 0; recovery window open
  restarted : Bool := false  -- R304; 1; 0; the hub restart of the open window has started
  fwUp : Bool := false  -- R476 HUB_FW; 1; 0
  heldRef : Bool := false  -- R306; 1; 0; the reference is lost, the hub is held in reset
  refOk : Bool := true  -- R66; 1; 1 (input)
  lossOn : Bool := false  -- R310; 1; 0; host-loss detection
  lossTimeout : Nat := 0  -- R310; 16; 0 (DESIGN CHOICE, log entry 6); ms
  lossAction : Nat := 0  -- R310; 3; 0
  hbCfg : Word := 0  -- R492; 32; 0 (DESIGN CHOICE, log entry 6); HEARTBEAT_CFG word 3 last set
  grace : Nat := 0  -- R298; 8; 0; us
  hostLost : Bool := false  -- R310; 1; 0
  hostBeats : Nat := 0  -- R310; model; 0; heartbeat writes counted
  quiesce : Nat := 0  -- R309; 2; 0; 0 none, 1 in progress, 2 complete
  quiesceAt : Nat := 0  -- R309; 64; 0; block time of the quiesce request
  cycleReq : Bool := false  -- R307; 1; 0; compute held by a CYCLE request
  cycleWant : Option Nat := none  -- R307; 8; none; reason of a CYCLE asked for and not yet driven
  staleGen : Nat := 0  -- R250; 32; 0; stale claims dropped
deriving DecidableEq, Repr

/-! ### Power, thermal hub side, bring-up, signatures -/

/-- A latched trip (R386). -/
structure Trip where
  source : TripSource  -- R391; 8
  opTime : Nat  -- R386; 40
  parts : Nat  -- Table 14.3; 16; partitions affected
deriving DecidableEq, Repr

structure Arbiter where
  cap : Nat := 0  -- R359; 16; 0 (none); POWER_CAP wafer cap, 10 W
  estimate : Rat := 0  -- R354; model; 0; wafer power in W, 1 ms mean
  atFloor : Bool := false  -- R363; 1; 0; a period at the floor is open
  replans : Nat := 0  -- R360; model; 0
  segFails : Table Nat := []  -- R57; 8 x 2; 0; failed transactions in a row
  segDown : List Nat := []  -- R57; 8; none; segments declared failed
  segPage : Table Nat := []  -- R55; 8 x 6; 0; next page of the calibration sweep
  segStatus : Table Nat := []  -- R55; model; none; pages of a STATUS_WORD round still to read
  segFault : Table (List Nat) := []  -- R55; model; none; pages to clear with CLEAR_FAULTS
  writes : Table (List (Nat × Nat × Nat)) := []  -- R357; model; none; writes waiting per segment (page, command, value)
  trips : List Trip := []  -- R386; 9; none
  hubTherm : Thermal := {}  -- R372; model; see Thermal
  tripDue : List (Trip × Nat × Nat) := []  -- R387; model; none; hub trip whose records follow the WAFER reset, with seconds and broken counts
  hubOff : Bool := false  -- R386; 1; 0; domains 1, 2, 4, 5, 91, 93 switched off
  mfrOk : List Bool := []  -- R56; 8; none; zones with phase sparing
  pgood : List Bool := []  -- R52; 8; accepted levels (input)
deriving DecidableEq, Repr

structure Boot where
  stage : Nat := 0  -- R431; 3; 0; stage in progress, wafer-wide
  failed : Bool := false  -- R433; 1; 0; wafer failure
  s1 : Bool := false  -- R436; 1; 0; S1 report committed with FAILED clear
  first : Bool := true  -- R449; 1; 1; first power-up
  wave : Nat := 0  -- R439; 8; 0; number of the next wave
  inWave : List Nat := []  -- R439; 84; none; fields of the running wave
  waveStage : Nat := 4  -- R432; 3; 4; stage of the running wave
  pendingFields : List Nat := []  -- R439; 84; none; fields still to take a wave
  reported : Bool := false  -- R448; 1; 0; S7 report committed
  redo : List (Nat × Nat) := []  -- R451; model; none; fields repeating S2 or S3, or from S4 or S5 on (field, stage)
  waveDeferred : List Nat := []  -- Table 17.4; 84; none; fields deferred at the start of the running wave
  waveW : Nat := 0  -- Table 17.4; 8; 0; wave limit W of the running wave
  waveP : Nat := 0  -- Table 17.4; 16; 0; test power limit of the running wave, 10 W
  started : Nat := 0  -- R434; 64; 0; block time at which the stage in progress started
  limitFrom : Nat := 0  -- R431, R450; 64; 0; block time from which the limit of the stage in progress runs
  waveFrom : Nat := 0  -- R450; 64; 0; block time at which the running wave started
  waveFirst : Nat := 4  -- R450; 3; 4; first stage of the running wave
  joining : List Nat := []  -- R447, R451; 84; none; fields that join the first wave with room
  image : List Word := []  -- Table 17.4; 8 x 32; none; SHA-256 of the authenticated firmware image
deriving DecidableEq, Repr

/-- A confirmed finding awaiting its signature (R277, Table 10.9). -/
structure Finding where
  kind : Nat  -- Table 10.7 KIND; 8
  confirm : Nat  -- Table 10.7 CONFIRM; 8
  phys : Nat  -- Table 10.9 TILE_PHYS; 24
  severity : Nat  -- Table 10.8 ErrorSeverity; 32
  seen : Detection
  d0 : Dword  -- Table 10.9 DETAIL0; 64
  d1 : Dword  -- Table 10.9 DETAIL1; 64
  d2 : Dword  -- Table 10.9 DETAIL2; 64
  opTime : Nat  -- Table 10.9 OP_TIME; 40
  eventSeq : Nat  -- Table 10.9 EVENT_SEQ; 64
  occ : Nat  -- Table 10.9 OCCURRENCES; 32
deriving DecidableEq, Repr

structure Signer where
  queue : List Finding := []  -- R278; 1,024; empty
  dropped : Nat := 0  -- R278; 16; 0
  counts : Table Nat := []  -- Table 10.9 OCCURRENCES; 32 each; 0; findings per physical tile
  lastSig : Option Nat := none  -- R283; model; none
deriving DecidableEq, Repr

/-- Hutch state that is not persisted (R167, R241, R263). -/
structure HutchLive where
  img : HutchImage := {}  -- R260; model; no history; the live copy of what is persisted
  dirty : Bool := false  -- R37, R260; 1; 0; changes not yet journalled
  transients : List (Nat × Nat) := []  -- R167; model; none; transients (tile, operating time)
  resends : Nat := 0  -- R235; model; 0
  journalNo : Nat := 0  -- R323; 32; 0
  causes : Table SuspectCause := []  -- R277; model; none; the failure that last made a tile suspect
deriving DecidableEq, Repr

structure BenchSched where
  enable : Bool := true  -- R230; 1; enabled
  slots : Nat := 4  -- R230; 3; 4
  period : Nat := 360  -- R230; 16; 360 minutes
  setWord : Word := 0x401  -- R492; 32; 0x401 (enabled, 4 slots); BENCH_SCHEDULE word 3 last set
  order : Nat := 1  -- R226; model; DESIGN CHOICE 1 (log entry 3); age of the next waiting test (0 for a rescheduled one)
  lastDone : Table Nat := []  -- R228; model; none; operating time of the last completed test per tile
  overdue : Table Nat := []  -- R228; model; none; operating time of the last EV_BENCH_OVERDUE per tile
deriving DecidableEq, Repr

/-- What manufacture fixes. -/
structure Mfg where
  stepping : Nat := 0xB0  -- Table 19.2 STEPPING; 8; 0xB0 (0xB0 or 0xB1; DESIGN CHOICE, log entry 5)
  serial : Nat := 0  -- Table 2.5 IDENT; 96; DESIGN CHOICE 0 (log entry 5); wafer serial
  fwVersion : Nat := 0  -- Table 2.5 IDENT; 24; DESIGN CHOICE 0 (log entry 5)
  romVersion : Nat := 0  -- Table 17.4; 24; DESIGN CHOICE 0 (log entry 5)
  fuseAll : Nat := 1000  -- R12 Fmax; 11; DESIGN CHOICE 1000 MHz (log entry 5); fused Fmax of tiles not listed
  fuses : Table Nat := []  -- R12 Fmax; 840,000 x 11; none (log entry 5); fused Fmax of the listed tiles
deriving DecidableEq, Repr

/-- The state of the block. -/
structure State where
  pending : List Instr := []  -- model; model; empty; commands waiting, first in first out
  free : Nat := 0  -- model; model; DESIGN CHOICE 0 (log entry 1); the model's own counter of free values
  feed : Bool := true  -- R28; 1; 1; the hub feed is present
  now : Nat := 0  -- R12 Block timestamp; 64; 0; ns since the hub's power-on
  mfg : Mfg := {}  -- R25; model; see Mfg
  fe : FrontEnd := {}  -- R79; model; see FrontEnd
  regs : Regs := {}  -- Table 19.1; model; see Regs
  tray : Tray := {}  -- Table 2.6; model; see Tray
  panel : Panel := {}  -- Table 2.1; model; see Panel
  nor : Nor := {}  -- Table 12.1; model; see Nor
  cab : Cabinet := {}  -- R318; model; see Cabinet
  drawer : Drawer := {}  -- R312; model; see Drawer
  arm : Armoire := {}  -- R453; model; see Armoire
  svc : Service := {}  -- R463; model; see Service
  hutch : HutchLive := {}  -- R233; model; see HutchLive
  parts : Table Part := []  -- R17; 16; none; partitions defined
  fields : Table Field := []  -- R14; 84; see Field
  guards : Table Guard := []  -- R25; 840,000; see Guard; by physical tile address
  tiles : Table TileBanks := []  -- R414; 774,144; 0; by logical tile address
  groups : List Group := []  -- R162; model; none; replay groups
  side : Sideboard := {}  -- R182; model; see Sideboard
  lanes : Table Lane := []  -- R67; 64; see Lane
  hang : Hang := {}  -- R285; model; see Hang
  arb : Arbiter := {}  -- R360; model; see Arbiter
  boot : Boot := {}  -- R431; model; see Boot
  sched : BenchSched := {}  -- R230; model; see BenchSched
  sig : Signer := {}  -- R278; model; see Signer
  storms : List (Nat × Storm) := []  -- R276; model; none; closed field storms awaiting the merge
  out : List Out := []  -- R77; model; none; what the block has driven outwards, newest first
deriving DecidableEq, Repr

/-- The machine right after reset: the hub feed has just risen on a device with no history (R10, Table 17.6), stage S0 is in
progress. Every field of every part of the state is at the value its comment gives. -/
def State.reset : State := {}

end Sys2Proof.Machine
end

