-- ==== Sys2Proof/Machine/Ops.lean ====
section
/-! DEFINITION. The shared operations over the state: tables, parts of the state, free values, coordinates and addresses,
domains and generations, tray status bits and ALERT_N, records arriving at the Cabinet. -/

namespace Sys2Proof.Machine

/-- Outcome of a command. -/
abbrev Result := Host.Outcome State Fault Refusal

/-- A row whose event the spec does not know in the present state changes nothing (log entry 10). The text says, for the reader,
what the event lacks. -/
def idle (s : State) (_why : String) : Result := .next s

/-- A row whose event can occur only under a condition. -/
def whenOk (s : State) (c : Bool) (why : String) (t : State) : Result := if c then .next t else idle s why

/-- R31, R65: the block's clocks run, but for the watchdog's own: the hub feed and the board reference are there. -/
def clocked (s : State) : Bool := s.feed && s.hang.refOk

/-- A row over something that must be there. -/
def whenSome {α : Type} (s : State) (o : Option α) (why : String) (k : α → Result) : Result :=
  match o with
  | some a => k a
  | none => idle s why

/-! ### Tables -/

/-- The entry of a key. -/
def tfind {α : Type} (t : Table α) (k : Nat) : Option α :=
  match t with
  | [] => none
  | (a, v) :: r => if a = k then some v else tfind r k

/-- The entry of a key, or a default. -/
def tget {α : Type} (t : Table α) (d : α) (k : Nat) : α := (tfind t k).getD d

/-- Store an entry, keeping the keys rising. -/
def tset {α : Type} (t : Table α) (k : Nat) (v : α) : Table α :=
  match t with
  | [] => [(k, v)]
  | (a, w) :: r => if k = a then (k, v) :: r else if k < a then (k, v) :: (a, w) :: r else (a, w) :: tset r k v

/-- Remove an entry. -/
def tdel {α : Type} (t : Table α) (k : Nat) : Table α := t.filter (fun e => e.1 != k)

/-- Two lists in order as one; an element of the first stands before one of the second that ranks the same. -/
def mergeBy {α : Type} (le : α → α → Bool) : Nat → List α → List α → List α
  | 0, a, b => a ++ b
  | _ + 1, [], b => b
  | _ + 1, a, [] => a
  | n + 1, x :: a, y :: b => if le x y then x :: mergeBy le n a (y :: b) else y :: mergeBy le n (x :: a) b
/-- A list of at most 2^n elements in order. -/
def sortHalves {α : Type} (le : α → α → Bool) : Nat → List α → List α
  | 0, l => l
  | n + 1, l =>
    let k := l.length / 2
    mergeBy le l.length (sortHalves le n (l.take k)) (sortHalves le n (l.drop k))
/-- A list in order; elements that rank the same keep their order. -/
def sortBy {α : Type} (le : α → α → Bool) (l : List α) : List α := sortHalves le (l.length.log2 + 1) l

/-- Rising keys: the canonical form of a table. -/
def tsorted {α : Type} : Table α → Bool
  | [] => true
  | [_] => true
  | a :: b :: r => decide (a.1 < b.1) && tsorted (b :: r)

/-! ### Parts of the state -/

def fieldOf (s : State) (f : Nat) : Field := tget s.fields {} f
def setField (s : State) (f : Nat) (x : Field) : State := { s with fields := tset s.fields f x }
def modField (s : State) (f : Nat) (g : Field → Field) : State := setField s f (g (fieldOf s f))
/-- The same change in several fields. -/
def modFields (s : State) (fs : List Nat) (g : Field → Field) : State := fs.foldl (fun s f => modField s f g) s

/-- The warden of a field runs (R29, R31). -/
def wardenRuns (s : State) (f : Nat) : Bool := clocked s && (fieldOf s f).warden == .up

/-- R32: an odd warden has power and a clock only while its even partner's domain is on. -/
def partnerOn (s : State) (f : Nat) : Bool := f % 2 == 0 || (fieldOf s (f - 1)).warden == .up || (fieldOf s (f - 1)).warden == .starting

def partOf (s : State) (p : Nat) : Option Part := tfind s.parts p
def setPart (s : State) (p : Nat) (x : Part) : State := { s with parts := tset s.parts p x }
def modPart (s : State) (p : Nat) (g : Part → Part) : State :=
  match partOf s p with
  | some x => setPart s p (g x)
  | none => s

def guardOf (s : State) (t : Nat) : Guard := tget s.guards {} t
def setGuard (s : State) (t : Nat) (x : Guard) : State := { s with guards := tset s.guards t x }
def modGuard (s : State) (t : Nat) (g : Guard → Guard) : State := setGuard s t (g (guardOf s t))

def tileBanks (s : State) (t : Nat) : TileBanks := tget s.tiles {} t
/-- Change the live counters of a logical tile. -/
def modLive (s : State) (t : Nat) (g : TileCount → TileCount) : State :=
  { s with tiles := tset s.tiles t { tileBanks s t with live := g (tileBanks s t).live } }

def slotOf (s : State) (q : Nat) : QSlot := tget s.fe.slots {} q
def setSlot (s : State) (q : Nat) (x : QSlot) : State := { s with fe := { s.fe with slots := tset s.fe.slots q x } }
def modSlot (s : State) (q : Nat) (g : QSlot → QSlot) : State := setSlot s q (g (slotOf s q))

def laneOf (s : State) (l : Nat) : Lane := tget s.lanes {} l
def modLane (s : State) (l : Nat) (g : Lane → Lane) : State := { s with lanes := tset s.lanes l (g (laneOf s l)) }

def cursorOf (s : State) (t : Nat) : Cursor := tget s.cab.cursors {} t
def modCursor (s : State) (t : Nat) (g : Cursor → Cursor) : State :=
  { s with cab := { s.cab with cursors := tset s.cab.cursors t (g (cursorOf s t)) } }

def pinKey : PinId → Nat
  | .alertN => 1 | .thermtripN => 2 | .pwrcycReqN => 3 | .locLed => 4 | .fltLed => 5 | .svcLed => 6 | .attnBtn => 7
def pinOf (s : State) (p : PinId) : Pin := tget s.tray.pins {} (pinKey p)
def setPin (s : State) (p : PinId) (x : Pin) : State :=
  { s with tray := { s.tray with pins := tset s.tray.pins (pinKey p) x } }

/-- Something the block drives outwards. -/
def drive (s : State) (o : Out) : State := { s with out := o :: s.out }

/-- A free value below `bound`, and the counter's advance. -/
def freeVal (s : State) (bound : Nat) : Nat := Config.freeNat s.free % (max bound 1)
def advFree (s : State) : State := { s with free := s.free + 1 }

/-- R131: a step digest key drawn at random, from 2 to 2^61 - 3: a free value. -/
def drawKey (s : State) : Nat := 2 + Config.freeNat s.free % (2 ^ 61 - 4)

/-! ### Coordinates (R3, R4, R5, R54) -/

/-- The 84 fields. -/
def allFields : List Nat := List.range 84
def fieldCol (f : Nat) : Nat := f % 12
def fieldRow (f : Nat) : Nat := f / 12

/-- R5: tile address of logical (`phys` false) or physical place `pl` = y * 100 + x of field `f`. -/
def tileAddr (f : Nat) (phys : Bool) (pl : Nat) : Nat := f * 131072 + bit01 phys * 65536 + (pl / 100) * 256 + pl % 100

def taField (a : Nat) : Nat := bitsOf a 17 7
def taPhys (a : Nat) : Bool := bitAt a 16
def taY (a : Nat) : Nat := bitsOf a 8 8
def taX (a : Nat) : Nat := bitsOf a 0 8
/-- The place y * 100 + x of an address. -/
def taPlace (a : Nat) : Nat := taY a * 100 + taX a

/-- A logical tile address of an existing tile (R493). -/
def logicalOk (a : Nat) : Bool := decide (a < 2 ^ 24) && decide (taField a < 84) && !taPhys a && decide (taX a < 96) && decide (taY a < 96)
/-- A physical tile address of an existing tile (R493). -/
def physicalOk (a : Nat) : Bool := decide (a < 2 ^ 24) && decide (taField a < 84) && taPhys a && decide (taX a < 100) && decide (taY a < 100)

/-- The 96 x 96 logical places of a field, in row-major order. -/
def logicalPlaces : List Nat := (List.range 96).flatMap (fun y => (List.range 96).map (fun x => y * 100 + x))
/-- The 10,000 physical places. -/
def physicalPlaces : List Nat := List.range 10000
def inLogicalGrid (pl : Nat) : Bool := decide (pl % 100 < 96) && decide (pl / 100 < 96)

/-- Distance in mesh hops of two places of one field. -/
def hops (a b : Nat) : Nat :=
  let d := fun m n : Nat => (m - n) + (n - m)
  d (a % 100) (b % 100) + d (a / 100) (b / 100)

/-- R54: the power-entry zone of a field. -/
def zoneOf (f : Nat) : Nat := fieldCol f / 3 + (if fieldRow f < 4 then 0 else 4)
/-- R54: page of a field's rail (0 VCORE, 1 VSRAM, 2 VLINK). -/
def pageOf (f rail : Nat) : Nat :=
  let firstRow := if fieldRow f < 4 then 0 else 4
  3 * ((fieldRow f - firstRow) * 3 + fieldCol f % 3) + rail
def zonePages (z : Nat) : Nat := if z < 4 then 36 else 27
def zoneFields (z : Nat) : List Nat := allFields.filter (fun f => zoneOf f == z)
/-- The field that a page of a zone's regulator supplies. -/
def fieldOfPage (z page : Nat) : Nat :=
  let k := page / 3
  ((if z < 4 then 0 else 4) + k / 3) * 12 + 3 * (z % 4) + k % 3

/-! ### Partitions (R17, R18) -/

def partFields (x : Part) : List Nat :=
  allFields.filter (fun f => decide (x.colLo ≤ fieldCol f) && decide (fieldCol f ≤ x.colHi) &&
    decide (x.rowLo ≤ fieldRow f) && decide (fieldRow f ≤ x.rowHi))
def partHas (x : Part) (f : Nat) : Bool := (partFields x).contains f
/-- The partition that a field belongs to. -/
def fieldPart (s : State) (f : Nat) : Option (Nat × Part) := s.parts.find? (fun e => partHas e.2 f)
/-- The tenant of a field, none for a field of no partition. -/
def fieldTenant (s : State) (f : Nat) : Option Nat := (fieldPart s f).map (·.2.tenant)
/-- R17: a program is loaded on the field. -/
def fieldLoaded (s : State) (f : Nat) : Bool :=
  match fieldPart s f with
  | some (_, x) => x.prog.isSome
  | none => false
def fieldProg (s : State) (f : Nat) : Option Program :=
  match fieldPart s f with
  | some (_, x) => x.prog
  | none => none
/-- The seam table of a field's loaded program. -/
def fieldSeams (s : State) (f : Nat) : List Seam :=
  match fieldProg s f with
  | some g => tget g.seams [] f
  | none => []
/-- The partition's fields, for a partition number. -/
def fieldsOfPart (s : State) (p : Nat) : List Nat :=
  match partOf s p with
  | some x => partFields x
  | none => []
/-- The partition number of a field, for a record about its partition (R331). -/
def partNo (s : State) (f : Nat) : Option Nat := (fieldPart s f).map (·.1)

/-- R425: the counters of the field's partition are frozen. -/
def fieldFrozen (s : State) (f : Nat) : Bool := (fieldOf s f).frozen.isSome
/-- The counters of a field advance, unless frozen (R425). -/
def countField (s : State) (f : Nat) (g : FieldCount → FieldCount) : State :=
  if fieldFrozen s f then s else modField s f (fun x => { x with cnt := g x.cnt })
/-- The live counters of a logical tile advance, unless frozen (R425). -/
def countTile (s : State) (log : Nat) (g : TileCount → TileCount) : State :=
  if fieldFrozen s (taField log) then s else modLive s log g
/-- R419: a 32-bit event counter, and a 16-bit one, saturate; a 48-bit cycle counter wraps. -/
def sat32 (n : Nat) : Nat := sat 0xFFFFFFFF n
def sat16 (n : Nat) : Nat := sat 0xFFFF n
def wrap48 (n : Nat) : Nat := n % 2 ^ 48

/-! ### Domains and generations (R285, R286) -/

def domQueue (tenant qnum : Nat) : Nat := tenant * 8 + qnum
def domPart (p : Nat) : Nat := 128 + p
def domField (f : Nat) : Nat := 144 + f
def domWafer : Nat := 228
def genOf (s : State) (d : Nat) : BitVec 6 := tget s.hang.gens 0 d
def bumpGen (s : State) (d : Nat) : State := { s with hang := { s.hang with gens := tset s.hang.gens d (genOf s d + 1) } }
def bumpGens (s : State) (ds : List Nat) : State := ds.foldl bumpGen s
/-- Table 11.1: the domains whose generation a reset advances. -/
def levelDomains (s : State) (level dom : Nat) : List Nat :=
  if level = 2 then dom :: (fieldsOfPart s (dom - 128)).map domField
  else if level = 3 then List.range 229
  else if level = 4 then []
  else [dom]
/-- R100: a running reset covers the domain. -/
def domInReset (s : State) (d : Nat) : Bool := s.hang.running.any (fun r => (levelDomains s r.level r.dom).contains d)
/-- The fields on which a reset acts (R295). -/
def resetFields (s : State) (level dom : Nat) : List Nat :=
  if level = 1 then [dom - 144] else if level = 2 then fieldsOfPart s (dom - 128) else if level = 3 then allFields else []
/-- A running FIELD, PART or WAFER reset covers the field. -/
def fieldInReset (s : State) (f : Nat) : Bool := s.hang.running.any (fun r => (resetFields s r.level r.dom).contains f)

/-! ### Tray status word (R45, R48, R49, R475) -/

def tsBit (s : State) (b : Nat) : Bool := s.tray.status.getLsbD b
def bitMask (b : Nat) : BitVec 16 := (1 : BitVec 16) <<< b

/-- R49, R475: bits of STATUS rise; a bit of [11:0] that was 0 drives ALERT_N low, sets ALERT_ASSERT and, where STATUS_IRQ is
set, interrupts tenant 0. -/
def raiseStatus (s : State) (mask : BitVec 16) : State :=
  let new := mask &&& ~~~s.tray.status &&& 0x0FFF
  let st := s.tray.status ||| mask ||| (if new = 0 then 0 else bitMask tsAlertAssert)
  let s' := { s with tray := { s.tray with status := st } }
  if new ≠ 0 ∧ s.regs.statusIrq then drive s' (.statusIrq new.toNat) else s'

/-- Bits of STATUS fall; ALERT_N is not driven (R49). -/
def clearStatus (s : State) (mask : BitVec 16) : State :=
  { s with tray := { s.tray with status := s.tray.status &&& ~~~mask } }

def raiseBit (s : State) (b : Nat) : State := raiseStatus s (bitMask b)
def clearBit (s : State) (b : Nat) : State := clearStatus s (bitMask b)
def setBitTo (s : State) (b : Nat) (v : Bool) : State := if v then raiseBit s b else clearBit s b

/-! ### Records arriving at the Cabinet (R326, R327, R329, R489) -/

/-- Length in words of a body (R326: 4 to 1,024 words). -/
def bodyLen (typ : Nat) : Body → Nat
  | .words w => max 4 (min 1024 w.length)
  | .fields f => max 4 (min 1024 (Config.openBodyLen typ f))

/-- The words of a body, padded with zeros to its length. -/
def bodyWords (typ : Nat) (b : Body) : List Word :=
  let w := match b with
    | .words w => w
    | .fields f => Config.openBodyWords typ f
  let n := bodyLen typ b
  (w ++ List.replicate n 0).take n

/-- Bytes of a record: 20 of header, the body, 4 of CRC (R326). -/
def recBytes (r : Rec) : Nat := 24 + 4 * bodyLen r.typ r.body

/-- Bytes waiting in the commit queue (R329). -/
def queueBytes (s : State) : Nat := (s.cab.queue.map recBytes).sum

/-- The 64 KiB of the commit queue. -/
def queueCap : Nat := 65536

/-- A record arrives: it takes the next sequence number and waits in the commit queue, or, where the queue cannot hold it, is
dropped and counted without a number (R327, R329). -/
def arrive (s : State) (r : Rec) : State :=
  let fits := decide (queueBytes s + recBytes r ≤ queueCap)
  { s with cab := { s.cab with
      queue := if fits then s.cab.queue ++ [{ r with seqNo := s.cab.nextSeq }] else s.cab.queue,
      nextSeq := if fits then s.cab.nextSeq + 1 else s.cab.nextSeq,
      dropped := if fits then s.cab.dropped else s.cab.dropped + 1,
      droppedFirst := if !fits && s.cab.dropped == 0 then r.typ else s.cab.droppedFirst } }

/-- A record is handed to the Cabinet: type, tenant (for a record about no partition), partition, body. Record-only tasks are
deferred while the queue holds more than 12 KiB (R489). -/
def emitBody (s : State) (typ tenant : Nat) (part : Option Nat) (b : Body) : State :=
  let r : Rec := { typ := typ, tenant := tenant, part := part, body := b }
  let later := evDeferrable typ && decide (12288 < queueBytes s)
  let t := arrive s r
  { s with cab := { s.cab with
      queue := if later then s.cab.queue else t.cab.queue,
      nextSeq := if later then s.cab.nextSeq else t.cab.nextSeq,
      dropped := if later then s.cab.dropped else t.cab.dropped,
      droppedFirst := if later then s.cab.droppedFirst else t.cab.droppedFirst,
      deferred := if later then s.cab.deferred ++ [r] else s.cab.deferred } }

/-- A record whose body no table lays out: its content as a list of numbers. -/
def emit (s : State) (typ : Nat) (content : List Nat) : State := emitBody s typ 0 none (.fields content)
/-- The same about a partition. -/
def emitPart (s : State) (typ : Nat) (part : Option Nat) (content : List Nat) : State :=
  emitBody s typ 0 part (.fields content)
/-- A record with a laid-out body of words. -/
def emitWords (s : State) (typ : Nat) (part : Option Nat) (ws : List Word) : State := emitBody s typ 0 part (.words ws)

/-- The sequence number that a record arriving now would take. -/
def nextSeqNo (s : State) : Nat := s.cab.nextSeq

/-- A number as a word, and as two words, low first. -/
def w32 (n : Nat) : Word := BitVec.ofNat 32 n
def w64 (n : Nat) : List Word := [w32 n, w32 (n / 2 ^ 32)]

/-! ### Stream contexts -/

/-- Row-major index of a logical tile in its field (R177). -/
def tileIndex (log : Nat) : Nat := taY log * 96 + taX log

/-- R177: a tile of the context's shard. -/
def coversTile (c : Context) (log : Nat) : Bool :=
  decide (c.kind = 0) && decide (taField log = c.field) && decide (tileIndex c.first ≤ tileIndex log) &&
    decide (tileIndex log < tileIndex c.first + c.masks.length)

/-- The DIGEST_COMPARE commands that a context holds (R190). -/
def waitingCmds (k : Context) : List (Nat × Nat) := k.nowCmd ++ k.opens.flatMap (·.cmds)
/-- They are forgotten where `drop` says so. -/
def dropCmds (drop : Nat × Nat → Bool) (k : Context) : Context :=
  { k with nowCmd := k.nowCmd.filter (fun a => !drop a),
           opens := k.opens.map (fun o => { o with cmds := o.cmds.filter (fun a => !drop a) }) }

/-! ### The Hutch's tile records -/

def tileRec (s : State) (phys : Nat) : TileRec := tget s.hutch.img.recs {} phys
/-- A Hutch change marks the journal due (R37, R260). -/
def modImg (s : State) (g : HutchImage → HutchImage) : State :=
  { s with hutch := { s.hutch with img := g s.hutch.img, dirty := true } }
def modTileRec (s : State) (phys : Nat) (g : TileRec → TileRec) : State :=
  modImg s (fun i => { i with recs := tset i.recs phys (g (tget i.recs {} phys)) })

/-- Fused Fmax in MHz of a physical tile (R12). -/
def fusedFmax (s : State) (phys : Nat) : Nat := tget s.mfg.fuses s.mfg.fuseAll phys
/-- R221, R240: recorded Fmax, the fused Fmax less 25 MHz per step, never below 0.800 GHz (a fused Fmax below that stays). -/
def recordedFmax (s : State) (phys : Nat) : Nat :=
  max (fusedFmax s phys - 25 * (tileRec s phys).fmaxSteps) (min (fusedFmax s phys) 800)
/-- R221, R240: the most steps that a tile's record takes. -/
def fmaxStepCap (s : State) (phys : Nat) : Nat := (fusedFmax s phys - 800) / 25

/-! ### Spare map of a field (R15, R142, R244) -/

/-- Value of an unfilled place. -/
def unfilled : Nat := 10000
/-- R142: position in the 96 x 96 mapped grid of a logical place: the primary's under redundancy. -/
def posOf (x : Field) (l : Nat) : Nat := if x.redund then 2 * (l / 100) * 100 + l % 100 else l
/-- R142: the shadow's position of a logical place. -/
def shadowPos (l : Nat) : Nat := (2 * (l / 100) + 1) * 100 + l % 100
/-- The logical place that a position belongs to. -/
def placeOfPos (x : Field) (p : Nat) : Nat := if x.redund then (p / 100 / 2) * 100 + p % 100 else p
/-- The logical places of a field: 96 x 96, or 96 x 48 under redundancy (R142). -/
def fieldPlaces (x : Field) : List Nat := if x.redund then logicalPlaces.filter (fun l => decide (l / 100 < 48)) else logicalPlaces
/-- The physical place that serves a position, `unfilled` where none does. -/
def ownerOf (x : Field) (pos : Nat) : Nat := tget x.map.owners pos pos
/-- The position that a physical place serves. -/
def servedBy (x : Field) (p : Nat) : Option Nat :=
  match x.map.owners.find? (fun e => e.2 == p) with
  | some (l, _) => some l
  | none => if inLogicalGrid p && decide (ownerOf x p = p) then some p else none
/-- A physical place becomes the owner of a position. -/
def withOwner (x : Field) (pos p : Nat) : Field :=
  { x with map := { x.map with owners := if p = pos then tdel x.map.owners pos else tset x.map.owners pos p } }
/-- The physical tile address that serves (as primary) a logical tile address; 0xFFFFFF where none does. -/
def physOf (s : State) (log : Nat) : Nat :=
  let x := fieldOf s (taField log)
  let p := ownerOf x (posOf x (taPlace log))
  if p = unfilled then 0xFFFFFF else tileAddr (taField log) true p
/-- The logical tile address that a physical tile address serves (as primary or shadow). -/
def logOf (s : State) (phys : Nat) : Option Nat :=
  let x := fieldOf s (taField phys)
  (servedBy x (taPlace phys)).map (fun pos => tileAddr (taField phys) false (placeOfPos x pos))

end Sys2Proof.Machine
end

