-- ==== Sys2Proof/Machine/Operands.lean ====
section
/-! DEFINITION. Command words (Tables 3.1, 3.2), target domains (R78), completions (Tables 3.3, 3.13, 3.14) and output
buffers (R76, R102). -/

namespace Sys2Proof.Machine

/-- Word `i` of a command as a number. -/
def cw (ws : List Word) (i : Nat) : Nat := (ws.getD i 0).toNat
def Cmd.w (c : Cmd) (i : Nat) : Nat := cw c.words i
/-- Bits of word `i`. -/
def Cmd.f (c : Cmd) (i lo n : Nat) : Nat := bitsOf (c.w i) lo n
def Cmd.b (c : Cmd) (i bit : Nat) : Bool := bitAt (c.w i) bit

/-! Table 3.1 and Table 3.2 -/
def Cmd.opcode (c : Cmd) : Nat := c.f 0 0 8
def Cmd.ordered (c : Cmd) : Bool := c.b 0 8
def Cmd.fenced (c : Cmd) : Bool := c.b 0 9
def Cmd.notify (c : Cmd) : Bool := c.b 0 10
def Cmd.priv (c : Cmd) : Bool := c.b 0 11
def Cmd.tenant (c : Cmd) : Nat := c.f 0 16 4
def Cmd.qnum (c : Cmd) : Nat := c.f 0 20 3
def Cmd.tag (c : Cmd) : Nat := c.f 0 23 9
def Cmd.layer (c : Cmd) : Nat := c.f 1 0 16
def Cmd.opId (c : Cmd) : Nat := c.f 1 16 16
def Cmd.part (c : Cmd) : Nat := c.f 2 0 4
def Cmd.genExpect (c : Cmd) : BitVec 6 := BitVec.ofNat 6 (c.f 2 4 6)
def Cmd.genCheck (c : Cmd) : Bool := c.b 2 10

/-- The field that a "field" command names, none where it names none (0x7F, or a resource kind without a field). -/
def cmdField (c : Cmd) : Option Nat :=
  let o := c.opcode
  if o = opSpareStatus ∨ o = opThermalRead then
    if c.f 3 0 7 < 84 then some (c.f 3 0 7) else none
  else if (o = opQuarantine ∨ o = opRelease) ∧ (c.f 4 0 4 = 3 ∨ c.f 4 0 4 = 5) then none
  else if c.f 3 17 7 < 84 then some (c.f 3 17 7) else none

/-- R78: the target domain of a command; a field command that names no field has the wafer's. -/
def cmdDomain (c : Cmd) : Nat :=
  let o := c.opcode
  if opQueueTarget.contains o then domQueue c.tenant c.qnum
  else if opPartTarget.contains o then domPart c.part
  else if opFieldTarget.contains o then
    match cmdField c with
    | some f => domField f
    | none => domWafer
  else if o = opReset then
    if c.f 3 0 3 = 0 then domQueue c.tenant (c.f 4 0 3)
    else if c.f 3 0 3 = 1 then (if c.f 4 0 7 < 84 then domField (c.f 4 0 7) else domWafer)
    else if c.f 3 0 3 = 2 then domPart c.part
    else domWafer
  else domWafer

/-! ### In-flight commands -/

def findCmd (s : State) (q e : Nat) : Option Cmd := s.fe.flight.find? (fun c => c.q == q && c.e == e)

/-- What executes the opcode is there: the front end, and hub firmware for the firmware path (R31, R91, R92). -/
def executes (s : State) (o : Nat) : Bool := clocked s && !s.arb.hubOff && (opHw o || s.hang.fwUp)

/-- The fields whose wardens carry out a command's execution. QUERY_MAP, BENCH_RESULT and SPARE_STATUS are answered from the hub's own
tables (DEDUCED, log entry 162). -/
def requestFields (s : State) (c : Cmd) : List Nat :=
  if c.opcode = opQueryMap ∨ c.opcode = opBenchResult ∨ c.opcode = opSpareStatus then []
  else if opPartTarget.contains c.opcode then fieldsOfPart s c.part
  else if opFieldTarget.contains c.opcode then (cmdField c).toList
  else []

/-- R238: the command slots of a warden that are not retired, and those of them in use: 32 at most. -/
def goodSlots (s : State) (f : Nat) : List Nat := (List.range 40).filter (fun k => !s.hutch.img.badSlots.contains (f, k))
def usedSlots (s : State) (f : Nat) : List Nat := (goodSlots s f).take 32
/-- R238: the operations that the hub has for a warden, oldest first: the first take its slots, the rest are queued (log entry 166). -/
def wardenOps (s : State) (f : Nat) : List Cmd :=
  s.fe.flight.filter (fun d : Cmd => d.phase != .held && d.phase != .queuedFw && (requestFields s d).contains f)
/-- Every warden that carries the command out has a slot for it (R238). -/
def hasSlots (s : State) (c : Cmd) : Bool :=
  (requestFields s c).all (fun f => ((wardenOps s f).take (usedSlots s f).length).any (fun d => d.q == c.q && d.e == c.e))

/-- The command of queue slot `q`, entry `e`, with opcode `o`, started and not yet executed. -/
def runCmd (s : State) (q e o : Nat) : Option Cmd :=
  match findCmd s q e with
  | some c => if c.phase = .running ∧ c.opcode = o ∧ executes s o = true ∧ hasSlots s c = true then some c else none
  | none => none

def modCmd (s : State) (q e : Nat) (g : Cmd → Cmd) : State :=
  { s with fe := { s.fe with flight := s.fe.flight.map (fun c => if c.q == q && c.e == e then g c else c) } }

def inFlight (s : State) (q : Nat) : Nat := (s.fe.flight.filter (fun c => c.q == q)).length

/-! ### Completions -/

/-- Table 3.14: status under LEGACY_FMT. -/
def legacyStatus (st : Nat) : Nat :=
  if st = stStaleGen ∨ st = stFenceAbort then stBusy
  else if st = stDegraded then stOk
  else if st = stAlarmLocked then stDenied
  else st

/-- Table 3.3: the eight words of a completion. -/
def completionWords (st tag gen : Nat) (phase notif : Bool) (slot qnum tenant head handle : Nat) (res : List Word) :
    List Word :=
  [w32 (st + tag * 2 ^ 8 + gen * 2 ^ 17 + bit01 phase * 2 ^ 23 + bit01 notif * 2 ^ 24),
   w32 (slot + qnum * 2 ^ 12 + tenant * 2 ^ 15 + head * 2 ^ 19), w32 handle] ++ (res ++ List.replicate 5 0).take 5

/-- Table 3.13: the four words of a ZRM-2 completion. -/
def legacyWords (st tag : Nat) (phase : Bool) (slot qnum head : Nat) (res : List Word) : List Word :=
  [w32 (legacyStatus st + tag * 2 ^ 8 + bit01 (st == stDegraded) * 2 ^ 17 + bit01 phase * 2 ^ 31),
   w32 (slot + qnum * 2 ^ 12 + head * 2 ^ 15), res.getD 0 0, res.getD 1 0]

/-- Depth of a slot's completion ring, and of its submission ring (R70). -/
def cqDepth (x : QSlot) : Nat := 2 ^ x.cqLog2
def sqDepth (x : QSlot) : Nat := 2 ^ x.sqLog2

/-- One completion written at the tail of the completion ring of slot `q` (R72, R77), with the interrupt of NOTIFY. -/
def writeCompletion (s : State) (q e tag dom st handle : Nat) (notify notif : Bool) (res : List Word) : State :=
  let x := slotOf s q
  let ws :=
    if s.regs.legacy then legacyWords st tag x.pass e x.qnum x.sqHead res
    else completionWords st tag (genOf s dom).toNat x.pass notif e x.qnum x.owner x.sqHead handle res
  let tail := (x.cqTail + 1) % cqDepth x
  let s : State := setSlot s q { x with cqTail := tail, pass := if tail = 0 then !x.pass else x.pass }
  let s : State := drive s (.completion q x.cqTail ws)
  if notify && x.irqEn then drive s (.irq x.owner x.vector) else s

/-- A command leaves the flight; DRAINING ends with the last (R481). -/
def dropCmd (s : State) (q e : Nat) : State :=
  let s : State := { s with fe := { s.fe with flight := s.fe.flight.filter (fun c => !(c.q == q && c.e == e)) } }
  if inFlight s q = 0 then modSlot s q (fun x => { x with draining := false }) else s

/-- Completion of an in-flight command with a status and results (R77); a failure is remembered for the fence scope (R84). -/
def completeWith (s : State) (c : Cmd) (st handle : Nat) (res : List Word) : State :=
  let s : State := dropCmd s c.q c.e
  let s : State := modSlot s c.q (fun x => { x with failed := if stGood st then x.failed else x.failed ++ [c.seqNo] })
  writeCompletion s c.q c.e c.tag c.dom st handle c.notify false res

/-- Completion without an operation handle. -/
def complete (s : State) (c : Cmd) (st : Nat) (res : List Word) : State := completeWith s c st 0 res

/-- The command is executed, and completes when the fields of `waits` have applied it at a seam (R81); with none it completes
at once. -/
def applyAt (s : State) (c : Cmd) (waits : List Nat) (st : Nat) (res : List Word) : State :=
  if waits.isEmpty then complete s c st res
  else modCmd s c.q c.e (fun d => { d with phase := .applying, waits := waits, status := st, results := res })

/-- The fields that a command waits for once field `f` has applied it; 84 + f stands for the seam after `f`'s next (R99). -/
def waitsAfter (f : Nat) (l : List Nat) : List Nat := (l.filter (· != f)).map (fun w => if w = 84 + f then f else w)

/-- A field has applied what waited for it (R81): commands whose last field this was complete. -/
def fieldApplied (s : State) (f : Nat) : State :=
  let s : State := { s with fe := { s.fe with flight := s.fe.flight.map (fun c : Cmd =>
    if c.phase = .applying then { c with waits := waitsAfter f c.waits } else c) } }
  (s.fe.flight.filter (fun c : Cmd => c.phase == .applying && c.waits.isEmpty)).foldl
    (fun s c => complete s c c.status c.results) s

/-- R81, R236, R252: at a seam where a dead link loses the step, the retirements and releases of resources have been applied. -/
def retirementsApplied (s : State) (f : Nat) : State :=
  let done := fun c : Cmd => c.phase == .applying && (c.opcode == opQuarantine || c.opcode == opRelease)
  let s : State := { s with fe := { s.fe with flight := s.fe.flight.map (fun c : Cmd =>
    if done c then { c with waits := waitsAfter f c.waits } else c) } }
  (s.fe.flight.filter (fun c : Cmd => done c && c.waits.isEmpty)).foldl (fun s c => complete s c c.status c.results) s

/-- The command goes on in the background and completes by another row. -/
def background (s : State) (c : Cmd) : State := modCmd s c.q c.e (fun d => { d with phase := .background })

/-- R102: a command that would be accepted asks for a notification, which the ZRM-2 format does not have. -/
def noNotification (s : State) (c : Cmd) : Bool := s.regs.legacy && c.notify

/-- R85: the command completes with ST_ACCEPTED under a new operation handle; with NOTIFY a notification is reserved (R73). -/
def accept (s : State) (c : Cmd) (args : List Nat) : State :=
  let h := s.fe.nextHandle
  let op : Op := { handle := h, q := c.q, e := c.e, tag := c.tag, opcode := c.opcode, tenant := c.tenant,
                   notify := c.notify, dom := c.dom, args := args }
  let s : State := { s with fe := { s.fe with nextHandle := h + 1, ops := s.fe.ops ++ [op] } }
  let s : State := if c.notify then modSlot s c.q (fun x => { x with reserved := x.reserved + 1 }) else s
  completeWith s c stAccepted h []

/-- The final outcome of an operation is known; OPERATION_OUTCOME records it (R85). -/
def finishOp (s : State) (h st : Nat) (res : List Word) : State :=
  { s with fe := { s.fe with ops := s.fe.ops.map (fun o =>
      if o.handle == h && o.final.isNone then { o with final := some (st, res) } else o) } }

/-! ### Output buffers (R76, R102) -/

def outLen (c : Cmd) : Nat := c.w 11
def outAddr (c : Cmd) : Nat := c.w 12 + c.w 13 * 2 ^ 32
/-- R76: the descriptor's length is a multiple of 64 up to 16 MiB and its address is aligned to 64 bytes. -/
def outDescOk (c : Cmd) : Bool :=
  decide (outLen c % 64 = 0) && decide (outLen c ≤ 2 ^ 24) && decide (outAddr c % 64 = 0)
/-- The command names an output buffer. -/
def outPresent (c : Cmd) : Bool := decide (outLen c ≠ 0)

/-- R76: completion with bulk data. A buffer too small receives as much as fits, and the command completes with ST_BAD_PARAM
and the length needed in result word 7; under LEGACY_FMT with RESULT0 = 0 and RESULT1 the length (R102). -/
def completeBulk (s : State) (c : Cmd) (st : Nat) (res : List Word) (bulk : List Word) : State :=
  let need := 4 * bulk.length
  let s : State := if bulk.isEmpty then s else drive s (.bulk c.q c.e (outAddr c) (bulk.take (outLen c / 4)))
  if need ≤ outLen c then complete s c st res
  else if s.regs.legacy then complete s c stBadParam [0, w32 need]
  else complete s c stBadParam ((res.take 4 ++ List.replicate 4 0).take 4 ++ [w32 need])

/-- R102: the result words 3-7 padded to 64 bytes, in front of the bulk data of MAP_GRID, SPARE_STATUS and THERMAL_READ under
LEGACY_FMT. -/
def legacyBlock (res : List Word) : List Word := (res ++ List.replicate 16 0).take 16

end Sys2Proof.Machine
end

