-- ==== Sys2Proof/Machine/ResetOps.lean ====
section
/-! DEFINITION. Requests for resets, quiesce and CYCLE (R292, R293, R307, R309). -/

namespace Sys2Proof.Machine

/-- A reset is asked for; RESET_START starts it (R288, R295). -/
def requestReset (s : State) (level dom cause : Nat) (escalated : Bool) (cmd : Option (Nat × Nat)) : State :=
  { s with hang := { s.hang with requests := s.hang.requests ++
      [{ level := level, dom := dom, cause := cause, escalated := escalated, cmd := cmd }] } }

/-- A requested reset already covers the domain. -/
def resetAwaited (s : State) (d : Nat) : Bool :=
  s.hang.requests.any (fun r => (levelDomains s r.level r.dom).contains d)

/-- R293: an automatic cause in a domain that is, or is about to be, in reset starts no reset of its own. -/
def autoReset (s : State) (level dom cause : Nat) : State :=
  if domInReset s dom || resetAwaited s dom then s else requestReset s level dom cause false none

/-- R309: a quiesce starts unless one is in progress or complete. -/
def startQuiesce (s : State) : State :=
  if s.hang.quiesce = 0 then
    { s with hang := { s.hang with quiesce := 1, quiesceAt := s.now }, fe := { s.fe with bgQuiesce := true } }
  else s

/-- R307: a CYCLE is asked for with a reason; CYCLE_REQUEST makes it. No new request arises while one is made. -/
def wantCycle (s : State) (reason : Nat) : State :=
  if s.tray.pwrcycLow || s.hang.cycleWant.isSome then s
  else { s with hang := { s.hang with cycleWant := some reason } }

/-- R321: the system-block snapshot of the present values; its reason is that of a CYCLE asked for, none else (R308). -/
def snapshotNow (s : State) : Snapshot :=
  { num := (match s.nor.snap with | some x => x.num + 1 | none => 0),
    opTime := s.cab.opTime, cycles := s.cab.cycles, nextSeq := s.cab.nextSeq, aCounter := s.cab.aCounter,
    reason := if s.tray.pwrcycLow then s.tray.cycleReason else 0, marks := s.cab.marks, meters := s.cab.meters }

/-- R321, R343: a snapshot is written to the NOR; while the NOR is failed it stays in the hub. -/
def writeSnapshot (s : State) : State :=
  if s.cab.failed then s else { s with nor := { s.nor with snap := some (snapshotNow s) } }

end Sys2Proof.Machine
end

