-- ==== Sys2Proof/Machine/SecurityOps.lean ====
section
/-! DEFINITION. The alarm (R460 to R462), the Armoire's blobs (R454) and the service session (R61 to R63, R463). -/

namespace Sys2Proof.Machine

/-- R461: the security lock is in force. -/
def lockInForce (s : State) : Bool := decide (s.arm.locked ≠ 0)

/-- R460, Tables 18.5 and 18.6: a source is raised with the action its policy sets. A source that is active already is not
raised again. -/
def raiseAlarm (s : State) (src : Nat) : State :=
  if bitAt s.arm.active src then s
  else
    let act := s.arm.actions.getD src 0
    let arm := { s.arm with
      active := s.arm.active + 2 ^ src,
      locked := if 1 ≤ act then s.arm.locked + 2 ^ src else s.arm.locked,
      highest := if s.arm.active = 0 then act else max s.arm.highest act,
      tenantKeys := if 2 ≤ act then [] else s.arm.tenantKeys,
      admin := if 3 ≤ act then none else s.arm.admin,
      identity := if 3 ≤ act then none else s.arm.identity }
    let s : State := { s with arm := arm }
    let s : State := emit s evAlarm [src, act]
    if 1 ≤ act then raiseBit s tsAlarm else s

/-- Table 18.5, last column: the source may be acknowledged. -/
def alarmClearable (s : State) (src : Nat) : Bool :=
  let clean := fun g : Option Nat =>
    match g with
    | none => true
    | some t => decide (t + 1000000000 ≤ s.now)
  if src = 0 then !s.panel.lidOpen
  else if src = 1 then true
  else if src = 2 then clean s.arm.feedGlitch
  else if src = 3 then clean s.arm.clockGlitch
  else false

/-- The named active sources that may be cleared, as a mask. -/
def ackMask (s : State) (mask : Nat) : Nat :=
  ((List.range 8).map (fun i => if bitAt mask i && bitAt s.arm.active i && alarmClearable s i then 2 ^ i else 0)).sum

/-- R462: acknowledgement of a mask of sources; the lock and ALARM end with the last locked source. -/
def ackAlarm (s : State) (mask : Nat) : State :=
  let m := ackMask s mask
  if m = 0 then s
  else
    let active := s.arm.active &&& (255 - m)
    let locked := s.arm.locked &&& (255 - m)
    let s : State := { s with arm := { s.arm with
      active := active, locked := locked, highest := if active = 0 then 0 else s.arm.highest } }
    let s : State := if locked = 0 then clearBit s tsAlarm else s
    emit s evAlarmAck [m, active]

/-- R90, R463: a failed privileged authentication; the third in a row raises AUTH. -/
def authFailed (s : State) : State :=
  let s : State := { s with arm := { s.arm with fails := s.arm.fails + 1 } }
  if s.arm.fails = 3 then raiseAlarm { s with arm := { s.arm with fails := 0 } } 1 else s

/-- The 12 bytes of the wafer serial. -/
def serialBytes (s : State) : List Byte := (List.range 12).map (fun i => BitVec.ofNat 8 (s.mfg.serial >>> (8 * i)))

/-- A big-endian number of 32 bytes. -/
def beNat (bs : List Byte) : Nat := bs.foldl (fun n b => n * 256 + b.toNat) 0

/-- R454: the key in a wrapped blob for a slot, none where a check or the unwrapping fails. -/
def unwrapBlob (s : State) (slot : Nat) (blob : List Byte) : Option (List Byte) :=
  match if s.arm.unsealed then s.arm.identity else none with
  | none => none
  | some k =>
    if blob.length = 112 ∧ blob.take 4 = [0x4A#8, 0x4B#8, 0x45#8, 0x59#8] ∧ blob.getD 4 0 = 1#8 ∧
        blob.getD 5 0 = BitVec.ofNat 8 slot ∧ (blob.drop 6).take 2 = [0#8, 0#8] then
      let x := beNat ((blob.drop 8).take 32)
      let y := beNat ((blob.drop 40).take 32)
      let info : List Byte := [0x4A#8, 0x5A#8, 0x2D#8, 0x4B#8, 0x45#8, 0x59#8, BitVec.ofNat 8 slot]
      let kek := hkdf (serialBytes s) (Config.ecdhX k (x, y)) info
      match Config.aesUnwrap kek (blob.drop 72) with
      | some key => if key.length = 32 then some key else none
      | none => none
    else none

/-- R61: the console may enumerate. -/
def consoleServed (s : State) : Bool := s.boot.s1 || s.svc.romOnly

/-- R464, R465: a console command of a role may run in the present session. `rom` says that the hub ROM offers it too. -/
def consoleMay (s : State) (role : Nat) (rom : Bool) : Bool :=
  clocked s && s.svc.vbus && (rom || !s.svc.romOnly) &&
    (match s.svc.role with
     | some r => decide (role ≤ r)
     | none => false)

end Sys2Proof.Machine
end

