-- ==== Sys2Proof/Machine/CabinetOps.lean ====
section
/-! DEFINITION. The Cabinet as it is read: visible records (R332), the bytes of a record (Tables 12.5, R336), cursors and what
a removal does to them (R333 to R335). -/

namespace Sys2Proof.Machine

/-- The records that windows read: the ring, or the fallback store while the NOR is failed (R343), without cleared ones. -/
def committed (s : State) : List Rec :=
  (if s.cab.failed then s.cab.store else s.nor.ring).filter (fun r => !r.cleared)

/-- R332: the window of a tenant shows the record. -/
def visibleTo (t : Nat) (r : Rec) : Bool := decide (t = 0) || (decide (r.tenant = t) && evTenantVisible r.typ)

def visibleRecs (s : State) (t : Nat) : List Rec := (committed s).filter (visibleTo t)

/-- The first visible record at or above a sequence number. -/
def visibleFrom (s : State) (t seqNo : Nat) : Option Rec := (visibleRecs s t).find? (fun r => decide (seqNo ≤ r.seqNo))

/-- R332: for a tenant 1-15, EV_STEP_LOST and EV_PROGRAM_FAULT show the syndrome or comparison word (words 2-3 of the body) as
zeros and the SPARE field of the replay word (words 0-1) as 0xFFFFFF. -/
def redact (t : Nat) (r : Rec) (ws : List Word) : List Word :=
  if t ≠ 0 ∧ (r.typ = evStepLost ∨ r.typ = evProgramFault) then
    match ws with
    | a :: b :: _ :: _ :: rest => (a ||| 0xFFC00000#32) :: (b ||| 0x00003FFF#32) :: 0 :: 0 :: rest
    | l => l
  else ws

/-- Table 12.5: header words of a record in a state. -/
def recHeader (r : Rec) (st : Nat) : List Word :=
  [w32 (st + (bodyLen r.typ r.body - 1) * 2 ^ 8 + 3 * 2 ^ 18 + bit01 r.part.isSome * 2 ^ 22 + bit01 r.fallback * 2 ^ 23 +
      r.tenant * 2 ^ 26),
   w32 (r.typ + (r.part.getD 0) * 2 ^ 12 + (r.seqNo % 2 ^ 16) * 2 ^ 16), w32 (r.seqNo / 2 ^ 16), w32 r.opTime,
   w32 (r.opTime / 2 ^ 32 + r.cycles * 2 ^ 8)]

/-- R326: the CRC-32C over header bytes 1-19 and the body. -/
def recCrc (hdr body : List Word) : Word := w32 (crc32c ((bytesOf hdr).drop 1 ++ bytesOf body))

/-- R333: header, body and CRC of a committed record as the window of a tenant presents them; the ZRM-2 layout under
LEGACY_FMT (R336). -/
def windowWords (legacy : Bool) (t : Nat) (r : Rec) : List Word :=
  let body := redact t r (bodyWords r.typ r.body)
  if legacy then
    let hdr := [w32 (0x3F + (r.typ % 256) * 2 ^ 8 + (4 * body.length) * 2 ^ 16), w32 r.seqNo, w32 r.opTime,
      w32 (r.opTime / 2 ^ 32 + r.cycles * 2 ^ 8)]
    hdr ++ body ++ [recCrc hdr body]
  else
    let hdr := recHeader r 0x3F
    hdr ++ body ++ [recCrc hdr (bodyWords r.typ r.body)]

/-- R335: the records `gone` are removed; cursors that had not reached them move on and count those visible to them. -/
def cursorsPast (s : State) (gone : List Rec) : State :=
  { s with cab := { s.cab with cursors := s.cab.cursors.map (fun e =>
    let t := e.1
    let c := e.2
    let n := (gone.filter (fun r => visibleTo t r && decide ((if c.ready then c.seqNo + 1 else c.seqNo) ≤ r.seqNo))).length
    if c.opened && !(c.atEnd && !c.follow) && decide (0 < n) then
      (t, { c with lost := true, lostCount := min 0x1FFF (c.lostCount + n) })
    else (t, c)) } }

/-- R333: the cursor of a tenant leaves its record. -/
def advanceCursor (s : State) (t : Nat) : State :=
  let c := cursorOf s t
  if !c.ready then s
  else
    let next := c.seqNo + 1
    modCursor s t (fun c => { c with ready := false, copy := [], seqNo := next, atEnd := (visibleFrom s t next).isNone })

/-! ### Sectors of the event ring (R325, R237, R345) -/

def sectorBytes (n : Nor) : Nat := if n.big then 131072 else 65536
def ringSectors (n : Nor) : Nat := if n.big then 768 else 1536
/-- The 64 KiB units of a ring sector. -/
def sectorUnits (n : Nor) (k : Nat) : List Nat := if n.big then [2 * k, 2 * k + 1] else [k]
def sectorRetired (s : State) (k : Nat) : Bool := (sectorUnits s.nor k).any (fun u => s.hutch.img.badSectors.contains u || s.hutch.img.swapped.any (fun e => e.2 == u))
def goodSectors (s : State) : List Nat := (List.range (ringSectors s.nor)).filter (fun k => !sectorRetired s k)
/-- The next good sector of the circle. -/
def nextSector (s : State) (k : Nat) : Nat :=
  let n := ringSectors s.nor
  (((List.range n).map (fun i => (k + 1 + i) % n)).find? (fun j => !sectorRetired s j)).getD ((k + 1) % n)

/-- Table 9.9: EV_QUARANTINE. -/
def emitQuarantine (s : State) (kind reason field source tile idx left : Nat) : State :=
  emitWords s evQuarantine (partNo s field)
    [w32 (kind + reason * 2 ^ 4 + field * 2 ^ 8 + source * 2 ^ 15), w32 tile, w32 idx, w32 (left % 2 ^ 16)]

/-- Table 9.9: EV_RELEASE. -/
def emitRelease (s : State) (kind reason field tile idx left : Nat) : State :=
  emitWords s evRelease (partNo s field) [w32 (kind + reason * 2 ^ 4 + field * 2 ^ 8), w32 tile, w32 idx, w32 (left % 2 ^ 16)]

/-- R343: the NOR is declared failed. EV_NOR_FAIL is the first record of the fallback store. -/
def declareNorFailed (s : State) (cause addr : Nat) : State :=
  if s.cab.failed then s
  else
    let r : Rec := { seqNo := s.cab.nextSeq, typ := evNorFail, fallback := true, opTime := s.cab.opTime, cycles := s.cab.cycles,
                     body := .words [w32 cause, w32 addr, 0, 0] }
    let s : State := { s with cab := { s.cab with
      failed := true, failTime := s.cab.opTime, store := [r], storeLost := 0, storeCfg := [], nextSeq := s.cab.nextSeq + 1 } }
    raiseBit s tsDegraded

/-- R237, R345: a unit of the device leaves use; a ring below 8 MiB of good sectors fails the NOR with cause 3. -/
def retireUnit (s : State) (u source : Nat) : State :=
  if s.hutch.img.badSectors.contains u then s
  else
    let s : State := modImg s (fun i => { i with badSectors := i.badSectors ++ [u] })
    let s : State := if u < 1536 then s else
      match (goodSectors s).reverse with
      | k :: _ => modImg s (fun i => { i with swapped := i.swapped ++ [(u, (sectorUnits s.nor k).getD 0 k)] })
      | [] => s
    let s : State := emitQuarantine s 3 0 0x7F source 0 u (goodSectors s).length
    if (goodSectors s).length * sectorBytes s.nor < 8388608 then declareNorFailed s 3 (u * 65536) else s

/-- R237: units count one erase each; one that reaches 100,000 is retired. -/
def eraseUnits (s : State) (us : List Nat) : State :=
  us.foldl (fun s u =>
    let n := tget s.hutch.img.erases 0 u + 1
    let s : State := modImg s (fun i => { i with erases := tset i.erases u n })
    if 100000 ≤ n then retireUnit s u 3 else s) s

/-- R237: the device reports a program or erase failure in a unit, which leaves use before the write is made. -/
def reportUnit (s : State) (bad : Option Nat) : State :=
  match bad with
  | some u => retireUnit s u 3
  | none => s

/-- The records of a ring sector go and its units count an erase (R237, R325). -/
def eraseRingSector (s : State) (k : Nat) : State :=
  let gone := s.nor.ring.filter (fun r => r.sector == k && !r.cleared)
  let s : State := { s with nor := { s.nor with ring := s.nor.ring.filter (fun r => r.sector != k) } }
  let s : State := cursorsPast s gone
  eraseUnits s (sectorUnits s.nor k)

/-- A sector that still holds records is erased. -/
def clearAhead (s : State) (k : Nat) : State :=
  if s.nor.ring.any (fun r => r.sector == k) then eraseRingSector s k else s

/-- Writing goes on in the next good sector; two sectors ahead of it are kept erased (R325). -/
def moveSector (s : State) : State :=
  let w := nextSector s s.nor.sector
  let s : State := clearAhead s w
  let s : State := { s with nor := { s.nor with sector := w, offset := 32 } }
  let a := nextSector s w
  let s : State := clearAhead s a
  clearAhead s (nextSector s a)

/-- A record is programmed into the ring at the write position; it never spans two sectors (R325). -/
def ringAppend (s : State) (r : Rec) : State :=
  let s : State := if s.nor.offset + recBytes r ≤ sectorBytes s.nor then s else moveSector s
  { s with nor := { s.nor with
      ring := s.nor.ring ++ [{ r with sector := s.nor.sector }], offset := s.nor.offset + recBytes r } }

/-- R343: the 224 KiB of the fallback store, overwriting the oldest. -/
def trimStore : Nat → List Rec → Nat → List Rec × Nat
  | 0, l, n => (l, n)
  | k + 1, l, n =>
    if (l.map recBytes).sum ≤ 229376 then (l, n)
    else match l with
      | [] => ([], n)
      | r :: rest =>
        let _ := r
        trimStore k rest (n + 1)

def storeAppend (s : State) (r : Rec) : State :=
  let l := s.cab.store ++ [r]
  let t := trimStore l.length l s.cab.storeLost
  { s with cab := { s.cab with store := t.1, storeLost := t.2 } }

/-- R331: the tenant of a record when it is committed. -/
def recTenant (s : State) (r : Rec) : Nat :=
  match r.part with
  | none => r.tenant
  | some p => ((partOf s p).map (·.tenant)).getD r.tenant

/-- R329: once the queue has room again, EV_DROPPED is committed with the count. -/
def noteDropped (s : State) : State :=
  if s.cab.dropped ≠ 0 ∧ queueBytes s + 40 ≤ queueCap then
    let n := s.cab.dropped
    let typ := s.cab.droppedFirst
    let s : State := { s with cab := { s.cab with dropped := 0, droppedFirst := 0 } }
    emitWords s evDropped none [w32 n, w32 typ, 0, 0]
  else s

/-- The record at the front of the commit queue is committed (R327, R339), in the ring or in the fallback store (R343). -/
def commitFront (s : State) : State :=
  match s.cab.queue with
  | [] => s
  | r :: rest =>
    let r : Rec := { r with
      opTime := s.cab.opTime, cycles := s.cab.cycles, tenant := recTenant s r, fallback := s.cab.failed }
    let s : State := { s with cab := { s.cab with queue := rest } }
    noteDropped (if s.cab.failed then storeAppend s r else ringAppend s r)

/-- Every pending record is committed (R307, R309). -/
def commitAll (s : State) : State := (List.range (s.cab.queue.length + 1)).foldl (fun s _ => commitFront s) s

/-! ### Power loss -/

/-- What a power loss leaves (R37, R344, R453, R461, Table 11.3): the NOR, what manufacture fixed, the Armoire's store; the
fallback store, queued records, unjournalled changes and everything else are gone. -/
def afterLoss (s : State) : State :=
  { pending := s.pending, free := s.free, out := s.out, feed := false, mfg := s.mfg, nor := s.nor,
    arm := { identity := s.arm.identity, admin := s.arm.admin, tenantKeys := s.arm.tenantKeys, svcKey := s.arm.svcKey,
             actions := s.arm.actions, hold10 := s.arm.hold10, active := s.arm.active, locked := s.arm.locked, highest := s.arm.highest },
    svc := { cert := s.svc.cert } }

/-- The hub feed is lost: the record being programmed may be complete, torn or not begun (R328), and a fold may have left its content in the
compaction spare (R320): free values. -/
def loseFeed (s : State) : State :=
  let s : State := match (if s.cab.failed then none else s.cab.queue.head?) with
    | none => s
    | some r =>
      let k := freeVal s 3
      let s : State := advFree s
      if k = 0 then s
      else if k = 1 then { s with nor := { s.nor with torn := s.nor.torn ++ [r.seqNo], offset := sectorBytes s.nor } }
      else commitFront s
  let s : State := if s.cab.failed || s.nor.journal.isEmpty then s
    else advFree { s with nor := { s.nor with spare := decide (freeVal s 2 = 1) } }
  afterLoss s

/-! ### Crash dumps as read (Table 11.8, R316) -/

/-- The 128-byte header of a dump in a slot. -/
def dumpHeader (slot : Nat) (d : Dump) : List Word :=
  let ws := [w32 0x504D444A, w32 (3 + slot * 2 ^ 16 + d.tenant * 2 ^ 18 + d.cause * 2 ^ 22 + d.level * 2 ^ 27 + bit01 d.trunc * 2 ^ 30),
     w32 (4 * d.cipher.length)] ++ w64 d.time ++ [w32 d.opTime, w32 (d.opTime / 2 ^ 32 + d.cycles * 2 ^ 8)] ++
     w64 d.resetWord.toNat ++ (d.nonce ++ List.replicate 3 0).take 3 ++ (d.tag ++ List.replicate 4 0).take 4 ++
     [w32 d.tenant] ++ w64 d.eventSeq
  (ws ++ List.replicate 32 0).take 32

/-- Header and ciphertext as one stream. -/
def dumpStream (slot : Nat) (d : Dump) : List Word := dumpHeader slot d ++ d.cipher

/-! ### Writing a dump (R312 to R315) -/

/-- Outcome codes of EV_DUMP, which no table lays out (the model's). -/
def emitDump (s : State) (outcome slot tenant size replaced : Nat) : State :=
  emitBody s evDump tenant none (.fields [outcome, slot, tenant, size, replaced])

/-- The Armoire key of a dump's owner (R314); none while the Armoire is sealed (R436). -/
def dumpKey (s : State) (t : Nat) : Option (List Byte) :=
  if !s.arm.unsealed then none else if t = 0 then s.arm.admin else tfind s.arm.tenantKeys t

/-- R315: the slot that the staged dump is written to. -/
def dumpSlot (s : State) : Nat :=
  let oldest := fun l : Table Dump => (l.foldl (fun (b : Option (Nat × Nat)) e =>
    match b with
    | none => some (e.1, e.2.order)
    | some (k, o) => if e.2.order < o then some (e.1, e.2.order) else some (k, o)) none).map (·.1)
  match [0, 1, 2].find? (fun k => (tfind s.nor.dumps k).isNone) with
  | some k => k
  | none => ((oldest (s.nor.dumps.filter (fun e => e.2.readEnd))).orElse (fun _ => oldest s.nor.dumps)).getD 0

/-- Units of a Drawer slot (Table 12.1). -/
def slotUnits (k : Nat) : List Nat := (List.range 128).map (· + 1536 + 128 * k)

/-- R315: a dump is staged and complete: its reset or its watchdog recovery has ended. -/
def stagedDue (s : State) : Bool :=
  match s.drawer.staging with
  | some d => if d.level = 7 then !s.hang.windowOpen else !s.hang.running.any (·.dump)
  | none => false

/-- R314, R315: the staged dump, once complete, is encrypted and written to its slot, and the staging buffer is free again; without its
tenant's key it is not written. -/
def writeStaged (s : State) (bad : Option Nat) : State :=
  match if stagedDue s then s.drawer.staging else none with
  | none => s
  | some d =>
    match dumpKey s d.tenant with
    | none => emitDump { s with drawer := { s.drawer with staging := none } } 1 0 d.tenant 0 0
    | some key =>
      let k := dumpSlot s
      let s : State := eraseUnits (reportUnit s bad) (slotUnits k)
      let replaced := match tfind s.nor.dumps k with | some o => bit01 (!o.readEnd) | none => 0
      let d0 : Dump := { d with cipher := List.replicate d.plain.length 0, tag := [], plain := [] }
      let ct := Config.aesGcm (hkdf (serialBytes s) key []) d.nonce (dumpHeader k d0) d.plain
      let done : Dump := { d0 with cipher := ct.1, tag := ct.2, order := s.drawer.count }
      let s : State := { s with
        nor := { s.nor with dumps := tset s.nor.dumps k done }, drawer := { s.drawer with staging := none, count := s.drawer.count + 1 } }
      emitDump s 0 k d.tenant (128 + 4 * ct.1.length) replaced

end Sys2Proof.Machine
end

