-- ==== Sys2Proof/Machine/HutchOps.lean ====
section
/-! DEFINITION. The Hutch: usable and lendable tiles (R133, R242), paired spares (R133, R134, R399), spare levels (R254), layouts
(R242 to R246), suspects (R241), quarantine and substitutions (R247 to R259). -/

namespace Sys2Proof.Machine

/-- The physical tile address of a place of a field. -/
def pa (f p : Nat) : Nat := tileAddr f true p

/-- A change of the spare map is persisted with the next journal entry (R260). -/
def syncMap (s : State) (f : Nat) : State := modImg s (fun i => { i with maps := tset i.maps f (fieldOf s f).map })
def modMap (s : State) (f : Nat) (g : FieldMap → FieldMap) : State :=
  syncMap (modField s f (fun x => { x with map := g x.map })) f

/-! ### Clock of the mapped set (R24, R356) -/

/-- Places of the field that have a fused Fmax or a tile record of their own. -/
def listedPlaces (s : State) (f : Nat) : List Nat :=
  let mine := fun a : Nat => taField a == f && taPhys a
  let fused := (s.mfg.fuses.map (·.1)).filter mine
  let recs := ((s.hutch.img.recs.map (·.1)).filter mine).filter (fun a => !fused.contains a)
  (fused ++ recs).map taPlace

/-- Positions of the mapped grid that no tile serves. -/
def unfilledCount (x : Field) : Nat := (x.map.owners.filter (fun e => e.2 == unfilled)).length

/-- The lowest recorded Fmax among the physical tiles mapped into the field (R12). -/
def lowestMapped (s : State) (f : Nat) : Nat :=
  let x := fieldOf s f
  let mapped := (listedPlaces s f).filter (fun p => (servedBy x p).isSome)
  let rest := decide (mapped.length < 9216 - unfilledCount x)
  mapped.foldl (fun m p => min m (recordedFmax s (pa f p))) (if rest then s.mfg.fuseAll else 100000)

/-- The clock against which spares are chosen: the mapped set's, at most the layout's (R133, R356). -/
def mapClock (s : State) (f : Nat) : Nat := min (lowestMapped s f) (fieldOf s f).map.clock

/-- The mode in force of a field's partition (R358). -/
def fieldOpmode (s : State) (f : Nat) : Nat :=
  match fieldPart s f with
  | some (_, x) => x.opmodeRun
  | none => 0

/-! ### Lendable spares (R133) -/

/-- The place is in a Bench rotation or under test. -/
def inBench (x : Field) (p : Nat) : Bool := x.bench.any (fun e => e.2.tile == p || e.2.subst == some p)
def isLent (x : Field) (p : Nat) : Bool := (tfind x.lent p).isSome
/-- R438: a tile that failed the quick test, in reduced service. -/
def quickBad (x : Field) (p : Nat) : Bool := x.reduced && x.quickFailed.contains p
/-- Unassigned, neither quarantined, suspect, lent nor rotating. -/
def spareBase (s : State) (f p : Nat) : Bool :=
  let x := fieldOf s f
  let r := tileRec s (pa f p)
  (servedBy x p).isNone && !r.quar && !r.suspect && !isLent x p && !inBench x p && !quickBad x p
def lendable (s : State) (f p : Nat) : Bool := spareBase s f p && decide (mapClock s f ≤ recordedFmax s (pa f p))
def lendables (s : State) (f : Nat) : List Nat :=
  let c := mapClock s f
  physicalPlaces.filter (fun p => spareBase s f p && decide (c ≤ recordedFmax s (pa f p)))
def lendableCount (s : State) (f : Nat) : Nat := (lendables s f).length

/-- The nearest of a list of places, ties to lower y and then lower x. -/
def nearest (to_ : Nat) (ps : List Nat) : Option Nat :=
  ps.foldl (fun best p =>
    match best with
    | none => some p
    | some b => if hops to_ p * 10000 + p < hops to_ b * 10000 + b then some p else some b) none

/-- The fastest of a list, then the nearest. -/
def fastest (s : State) (f to_ : Nat) (ps : List Nat) : Option Nat :=
  let m := ps.foldl (fun m p => max m (recordedFmax s (pa f p))) 0
  nearest to_ (ps.filter (fun p => recordedFmax s (pa f p) == m))

/-- R133, R399: the paired spare of a physical place, leaving out the places of `not_`; the Fmax condition is relaxed only where the
field has no lendable spare at all. -/
def pairFor (s : State) (f to_ : Nat) (not_ : List Nat) : Option Nat :=
  let ls := lendables s f
  match nearest to_ (ls.filter (fun p => !not_.contains p)) with
  | some p => some p
  | none =>
    if fieldOpmode s f ≠ 0 || !ls.isEmpty then none
    else fastest s f to_ (physicalPlaces.filter (fun p => spareBase s f p && !not_.contains p))

/-- R165: the spares that the field has reserved for this hold. -/
def reservedSpares (x : Field) : List Nat := x.reserved.map (·.2)
/-- Lendable spares that are not reserved: a reserved spare returns to the pool at the release (R165). -/
def unreserved (s : State) (f : Nat) : List Nat :=
  let r := reservedSpares (fieldOf s f)
  (lendables s f).filter (fun p => !r.contains p)

/-- The paired spare of the tile that serves a position (R16); with none serving, measured from the position. -/
def pairedSpare (s : State) (f pos : Nat) : Option Nat :=
  let o := ownerOf (fieldOf s f) pos
  pairFor s f (if o = unfilled then pos else o) []
def pairedAddr (s : State) (f pos : Nat) : Nat :=
  match pairedSpare s f pos with
  | some p => pa f p
  | none => 0xFFFFFF

/-- Spares lent to spot checks. -/
def spotLent (x : Field) : Nat := (x.lent.filter (fun e => e.2 == 0)).length
/-- R136: lending cap, the lendable spares (those lent to spot checks counted in) less 4. -/
def lendingCap (s : State) (f : Nat) : Nat := lendableCount s f + spotLent (fieldOf s f) - 4

/-! ### Spare level (R254, Table 9.5) -/

def vacantOrMissing (x : Field) : Bool := !x.map.vacant.isEmpty || !x.map.missing.isEmpty
def plainLevel (n : Nat) : Nat := if 64 < n then 0 else if 17 ≤ n then 1 else if 1 ≤ n then 2 else 3
/-- The best level that `n` lendable spares allow a field that improves. -/
def improvedLevel (n : Nat) : Nat := if 69 ≤ n then 0 else if 21 ≤ n then 1 else if 5 ≤ n then 2 else 3
/-- The level after a change; `fresh` for a new layout. -/
def levelNow (x : Field) (n : Nat) (fresh : Bool) : Nat :=
  if vacantOrMissing x then 4
  else if fresh || x.level == 4 then plainLevel n
  else if x.level < plainLevel n then plainLevel n
  else min x.level (improvedLevel n)

/-- Check-reserve tiles held (R150, Table 9.8): 16 less those borrowed, as far as lendable spares allow. -/
def reserveHeld (s : State) (f : Nat) : Nat := min (lendableCount s f) (16 - (fieldOf s f).map.reserve)

/-- R254: the level follows the counts; a change commits EV_SPARE_LEVEL. -/
def settleLevel (s : State) (f : Nat) (fresh : Bool) : State :=
  let x := fieldOf s f
  let n := lendableCount s f
  let l := levelNow x n fresh
  if l = x.level then s
  else
    emitWords (setField s f { x with level := l }) evSpareLevel (partNo s f)
      [w32 (f + x.level * 2 ^ 8 + l * 2 ^ 11 + n * 2 ^ 16), w32 (x.map.vacant.length + x.map.missing.length * 2 ^ 16),
       w32 (reserveHeld s f), 0]

/-! ### Records of substitutions (Table 9.9) -/

/-- Seam index of a record: 0xFFFFFFFF with no program loaded. -/
def seamIndex (s : State) (f : Nat) : Nat := if fieldLoaded s f then (fieldOf s f).seam % 2 ^ 32 else 0xFFFFFFFF

/-- EV_REMAP of a position (as its logical place). -/
def emitRemap (s : State) (f source : Nat) (epoch : Bool) (pos old new : Nat) : State :=
  let x := fieldOf s f
  let addr := fun p : Nat => if p = unfilled then 0xFFFFFF else pa f p
  emitWords s evRemap (partNo s f)
    ([w32 (f + source * 2 ^ 8 + (genOf s (domField f)).toNat * 2 ^ 11 + bit01 epoch * 2 ^ 17),
      w32 (tileAddr f false (placeOfPos x pos)), w32 (addr old), w32 (addr new), w32 (seamIndex s f),
      w32 (pairedAddr s f pos)] ++ w64 s.now)

/-- EV_MAP_CONFLICT. -/
def emitConflict (s : State) (f source : Nat) (gen : BitVec 6) (pos kept rejected : Nat) : State :=
  emitWords s evMapConflict (partNo s f)
    ([w32 (f + source * 2 ^ 8 + gen.toNat * 2 ^ 11 + (genOf s (domField f)).toNat * 2 ^ 17),
      w32 (tileAddr f false (placeOfPos (fieldOf s f) pos)), w32 (pa f kept), w32 (pa f rejected), w32 (seamIndex s f)] ++
      w64 s.now ++ [0])

/-! ### Vacancies (R255) -/

/-- A position loses its tile and nothing takes its place; a loaded program is held as R197 lays down. -/
def fallVacant (s : State) (f pos old : Nat) : State :=
  let s : State := modMap s f (fun m => { m with
    owners := tset m.owners pos unfilled, vacant := if m.vacant.contains pos then m.vacant else m.vacant ++ [pos] })
  let s : State := emitRemap s f 4 (fieldOf s f).epoch pos old unfilled
  match fieldPart s f with
  | some (p, x) => if x.prog.isSome then modPart s p (fun x => { x with heldAll := true }) else s
  | none => s

/-- R189: the scrub pass of every context that covers the tile at a position starts again on the tile that takes the position. -/
def restartPasses (s : State) (f pos : Nat) : State :=
  let x := fieldOf s f
  let log := tileAddr f false (placeOfPos x pos)
  if posOf x (placeOfPos x pos) ≠ pos then s
  else { s with side := { s.side with contexts := s.side.contexts.map (fun c =>
    if coversTile c log then { c with passFrom := some s.now } else c) } }

/-- A physical place takes a position: the owner changes and the position is no longer vacant or missing. -/
def takePlace (s : State) (f pos p : Nat) : State :=
  syncMap (modField (restartPasses s f pos) f (fun x =>
    let y := withOwner x pos p
    { y with map := { y.map with vacant := y.map.vacant.filter (· != pos) } })) f

/-! ### Suspects and quarantine (R241, R251) -/

/-- A test waits in the field's queue, unless one of the tile waits or runs. -/
def queueTest (s : State) (f p trigger corner : Nat) : State :=
  let x := fieldOf s f
  if x.waitTests.any (fun w => w.tile == p) || x.bench.any (fun e => e.2.tile == p) then s
  else
    let w : BenchWait := { tile := p, trigger := trigger, corner := corner, order := s.sched.order, handles := [] }
    { setField s f { x with waitTests := x.waitTests ++ [w] } with sched := { s.sched with order := s.sched.order + 1 } }

/-- The tile's record becomes that of a quarantined tile, with its EV_QUARANTINE; where it is placed is its caller's concern. -/
def markQuarantined (s : State) (f p reason source : Nat) : State :=
  if (tileRec s (pa f p)).quar then s
  else
    let s : State := modTileRec s (pa f p) (fun r => { r with quar := true, qreason := reason })
    emitQuarantine s 0 reason f source (pa f p) 0 (lendableCount s f)

/-- R234, R252: a worn tile in service of a running program is replaced at the field's next seam by its paired spare; without one it
stays in service, and its quarantine waits for the unload or a reset. -/
def replaceAtSeam (s : State) (f p reason source : Nat) : State :=
  let x := fieldOf s f
  if x.claims.any (fun c => c.expected == p) || x.quarUnload.any (fun e => e.1 == p) then s
  else
    match servedBy x p, pairFor s f p (reservedSpares x) with
    | some pos, some u =>
      let c : Claim := { source := 2, place := pos, expected := p, owner := u, gen := genOf s (domField f), source9 := source, reason := reason }
      setField s f { x with claims := x.claims ++ [c] }
    | _, _ => setField s f { x with quarUnload := x.quarUnload ++ [(p, reason)] }

/-- R241, R251: a tile is to be quarantined: at once, or, where it serves a coordinate of a loaded program and no spare replay has just
taken its place, by its replacement at a seam. -/
def quarantineWorn (s : State) (f p reason source : Nat) : State :=
  let x := fieldOf s f
  if fieldLoaded s f && (servedBy x p).isSome && !x.claims.any (fun c => c.source == 1 && c.expected == p) then
    replaceAtSeam s f p reason source
  else markQuarantined s f p reason source

/-- R251: the compute island of a quarantined tile is clock-gated, but for a test by BENCH_RUN. -/
def islandGated (s : State) (phys : Nat) : Bool := (tileRec s phys).quar && !(guardOf s phys).underTest

/-- R241: a tile is marked suspect; at the eighth time it is quarantined with reason 0x9. -/
def markSuspect (s : State) (f p : Nat) : State :=
  let r := tileRec s (pa f p)
  let n := min 15 (r.suspectCount + 1)
  let s : State := modTileRec s (pa f p) (fun r => { r with suspect := true, passes := 0, suspectCount := n })
  if n = 8 then quarantineWorn s f p 9 3 else s

/-- R36, R139, R171: marked suspect, with a Bench run queued. -/
def suspectAndTest (s : State) (f p trigger : Nat) : State := queueTest (markSuspect s f p) f p trigger 0

/-! ### Layouts (R242 to R246) -/

/-- R4: the tile that an edge of a place faces, with the facing edge: field, place, edge; none at the wafer's border. -/
def facing (f p edge : Nat) : Option (Nat × Nat × Nat) :=
  let x := p % 100
  let y := p / 100
  if edge = 0 then
    if 0 < y then some (f, p - 100, 2) else if 12 ≤ f then some (f - 12, 9900 + x, 2) else none
  else if edge = 1 then
    if x < 99 then some (f, p + 1, 3) else if f % 12 < 11 then some (f + 1, y * 100, 3) else none
  else if edge = 2 then
    if y < 99 then some (f, p + 100, 0) else if f + 12 < 84 then some (f + 12, x, 0) else none
  else
    if 0 < x then some (f, p - 1, 1) else if 0 < f % 12 then some (f - 1, y * 100 + 99, 1) else none

/-- The two ends of the link at an edge (R235). -/
def linkEnds (f p edge : Nat) : List (Nat × Nat × Nat) :=
  match facing f p edge with
  | some e => [(f, p, edge), e]
  | none => [(f, p, edge)]

/-- The link at an edge is dead, whichever end the list names (R235). -/
def linkDead (s : State) (f p edge : Nat) : Bool :=
  (linkEnds f p edge).any (fun e => s.hutch.img.deadLinks.contains (pa e.1 e.2.1, e.2.2))
/-- A set of places, as the bits of a number. -/
def placeSet (l : List Nat) : Nat := l.foldl (fun m p => m ||| 2 ^ p) 0

/-- The dead links of a field with an end at a given edge of one of its places. -/
def deadAt (s : State) (f edge : Nat) : List Nat :=
  s.hutch.img.deadLinks.flatMap (fun d => (linkEnds (taField d.1) (taPlace d.1) d.2).filterMap (fun e =>
    if e.1 = f ∧ e.2.2 = edge then some e.2.1 else none))

/-- The places reached from a set in at most `n` hops over open east and south links. -/
def flood (east south : Nat) : Nat → Nat → Nat
  | 0, r => r
  | n + 1, r =>
    let t := r ||| ((r &&& east) <<< 1) ||| ((r >>> 1) &&& east) ||| ((r &&& south) <<< 100) ||| ((r >>> 100) &&& south)
    if t = r then r else flood east south n t

/-- Members of a set of places. -/
def placeCount (m : Nat) : Nat := (physicalPlaces.filter (fun p => m.testBit p)).length

/-- The largest set of connected places among those left, the first of equals. -/
def largestPart (east south : Nat) : Nat → Nat → Nat → Nat
  | 0, _, best => best
  | n + 1, left, best =>
    match physicalPlaces.find? (fun p => left.testBit p) with
    | none => best
    | some p =>
      let m := flood east south 10000 (2 ^ p)
      largestPart east south n (left ^^^ (left &&& m)) (if placeCount best < placeCount m then m else best)

/-- R236: the places that routes around dead links and faulty routers reach: the largest connected part of the field's mesh (DEDUCED,
log entry 43). -/
def reachSet (s : State) (f : Nat) : Nat :=
  let bad := (listedPlaces s f).filter (fun p => (tileRec s (pa f p)).routerFault)
  let noEast := deadAt s f 1
  let noSouth := deadAt s f 2
  if bad.isEmpty && noEast.isEmpty && noSouth.isEmpty then 2 ^ 10000 - 1
  else
    let up := fun p : Nat => !bad.contains p
    let all := placeSet (physicalPlaces.filter up)
    let east := placeSet (physicalPlaces.filter (fun p => decide (p % 100 < 99) && up p && up (p + 1) && !noEast.contains p))
    let south := placeSet (physicalPlaces.filter (fun p => decide (p < 9900) && up p && up (p + 100) && !noSouth.contains p))
    largestPart east south 10000 all 0

/-- R242: usable at a frequency. A tile that no route reaches counts as unusable (R236). -/
def usableAt (s : State) (f clk reach p : Nat) : Bool :=
  let r := tileRec s (pa f p)
  !r.quar && !r.suspect && !r.routerFault && decide (clk ≤ recordedFmax s (pa f p)) && reach.testBit p
/-- The usable places of a field at a frequency. -/
def usablePlaces (s : State) (f clk : Nat) : List Nat :=
  let reach := reachSet s f
  physicalPlaces.filter (fun p => usableAt s f clk reach p && !quickBad (fieldOf s f) p)

/-- Each physical column with its usable tiles in ascending y. -/
def columnTiles (us : Nat) : List (Nat × List Nat) :=
  (List.range 100).map (fun x => (x, ((List.range 100).map (fun y => y * 100 + x)).filter (fun p => us.testBit p)))

/-- Step 1: the 96 physical columns with the most usable tiles, in ascending x. -/
def layoutCols (cols : List (Nat × List Nat)) : List (Nat × List Nat) :=
  let size := cols.map (fun c => (c.2.length, c))
  let best := (sortBy (fun a b => decide (b.1 < a.1) || (a.1 == b.1 && decide (a.2.1 ≤ b.2.1))) size).take 96
  sortBy (fun a b => decide (a.1 ≤ b.1)) (best.map (·.2))

/-- Step 2: the usable tiles of column j in ascending y take its logical places; row by row from row y, over n rows. -/
def layoutRows : Nat → Nat → List (List Nat) → Table Nat
  | 0, _, _ => []
  | n + 1, y, cs =>
    cs.zipIdx.filterMap (fun e => e.1.head?.map (fun p => (y * 100 + e.2, p))) ++ layoutRows n (y + 1) (cs.map List.tail)

/-- R150: the order in which positions are filled; under redundancy pairs in ascending logical address, the last `k` logical
tiles without their shadow. -/
def fillOrder (red : Bool) (k : Nat) : List Nat :=
  if !red then logicalPlaces
  else
    let ls := logicalPlaces.filter (fun l => decide (l / 100 < 48))
    let full := (ls.take (4608 - k)).flatMap (fun l => [2 * (l / 100) * 100 + l % 100, shadowPos l])
    full ++ (ls.drop (4608 - k)).map (fun l => 2 * (l / 100) * 100 + l % 100)

/-- Each of the rising positions with its entry in a table of such positions. -/
def along : List Nat → Table Nat → List (Nat × Option Nat)
  | [], _ => []
  | pos :: r, [] => (pos, none) :: along r []
  | pos :: r, (k, v) :: t => if k = pos then (pos, some v) :: along r t else (pos, none) :: along r ((k, v) :: t)

/-- Step 3: point substitutions of the open positions in fill order while places may be filled. -/
def pointFill (cols : List Nat) : List Nat → Nat → List Nat → Table Nat → Table Nat
  | [], _, _, t => t
  | pos :: rest, room, free, t =>
    if room = 0 then t
    else
      match nearest (pos / 100 * 100 + cols.getD (pos % 100) 0) free with
      | none => t
      | some p => pointFill cols rest (room - 1) (free.filter (· != p)) (tset t pos p)

/-- Positions filled at clock `clk`, with `k` shadows and `b` check-reserve tiles borrowed. -/
def layoutFill (s : State) (f clk : Nat) (red : Bool) (k b : Nat) : Table Nat :=
  let us := usablePlaces s f clk
  let chosen := layoutCols (columnTiles (placeSet us))
  let cols := chosen.map (·.1)
  let ownT : Table Nat := layoutRows 96 0 (chosen.map (·.2))
  let room0 := us.length - (16 - b)
  let room := if red then (if k = 0 then room0 / 2 * 2 else room0) else room0
  let order := fillOrder red k
  let owned := placeSet (ownT.map (·.1))
  let kept := (order.filter (fun pos => owned.testBit pos)).take room
  let keptS := placeSet kept
  let t : Table Nat := ownT.filter (fun e => keptS.testBit e.1)
  let used := placeSet (t.map (·.2))
  pointFill cols (order.filter (fun pos => !keptS.testBit pos)) (room - t.length) (us.filter (fun p => !used.testBit p)) t

/-- R143: under redundancy a pair more than 2 hops apart, or without a tile it needs, is missing. -/
def pairPlaced (shadowless : Bool) (primary shadow : Option Nat) : Bool :=
  match primary, shadow with
  | some a, some b => decide (hops a b ≤ 2)
  | some _, none => shadowless
  | none, _ => false

/-- A field's layout at a clock with a borrowing. -/
def layoutAt (s : State) (f clk : Nat) (red : Bool) (k b : Nat) : FieldMap :=
  let t := layoutFill s f clk red k b
  let ls := if red then logicalPlaces.filter (fun l => decide (l / 100 < 48)) else logicalPlaces
  let shadowless := if red then ls.drop (4608 - k) else []
  let bare := placeSet shadowless
  let missing :=
    if red then
      let prim := along (ls.map (fun l => 2 * (l / 100) * 100 + l % 100)) (t.filter (fun e => e.1 / 100 % 2 == 0))
      let shad := along (ls.map shadowPos) (t.filter (fun e => e.1 / 100 % 2 == 1))
      ((ls.zip (prim.zip shad)).filter (fun e => !pairPlaced (bare.testBit e.1) e.2.1.2 e.2.2.2)).map (·.1)
    else ((along ls t).filter (fun e => e.2.isNone)).map (·.1)
  let gone := placeSet (if red then missing.flatMap (fun l => [2 * (l / 100) * 100 + l % 100, shadowPos l]) else missing)
  let owners : Table Nat := (along logicalPlaces t).filterMap (fun e =>
    match e.2 with
    | some p => if gone.testBit e.1 then some (e.1, unfilled) else if p = e.1 then none else some (e.1, p)
    | none => some (e.1, unfilled))
  { laidOut := true, clock := clk, owners := owners, missing := missing, vacant := [], shadows := k, reserve := b,
    unshadowed := shadowless }

/-- R243: recorded Fmax values of the field's usable tiles, highest first. -/
def clockChoices (s : State) (f : Nat) : List Nat :=
  let vs := (usablePlaces s f 0).map (fun p => recordedFmax s (pa f p))
  sortBy (fun a b => decide (b ≤ a)) vs.eraseDups

/-- R243: in OPMODE 0, the highest choice without missing tiles, else the highest with the fewest missing; 0.600 GHz with no
usable tile. -/
def chooseClock (s : State) (f : Nat) (red : Bool) : Nat :=
  let cs := clockChoices s f
  match cs.find? (fun c => (layoutAt s f c red 0 0).missing.isEmpty) with
  | some c => c
  | none =>
    (cs.foldl (fun best c =>
      let m := (layoutAt s f c red 0 0).missing.length
      match best with
      | none => some (c, m)
      | some (b, n) => if m < n then some (c, m) else some (b, n)) (none : Option (Nat × Nat))).map (·.1) |>.getD 600

/-- The clock of a field's new layout (R243, R445, R446). -/
def layoutClock (s : State) (f opmode : Nat) (red : Bool) : Nat :=
  if (fieldOf s f).reduced then 700 else if opmode ≠ 0 then 1000 else chooseClock s f red

/-- R150: the smallest borrowing that fills the field, shadows first; none where both do not suffice. -/
def borrowFor (s : State) (f clk : Nat) (red : Bool) : Option (Nat × Nat) :=
  let ks := if red then (List.range 65).map (fun k => (k, 0)) ++ (List.range 12).map (fun b => (64, b + 1))
    else (List.range 13).map (fun b => (0, b))
  ks.find? (fun e => (layoutAt s f clk red e.1 e.2).missing.isEmpty)

/-- R245, R295: a layout comes into force: both route-table versions hold it, with epoch 0 current. -/
def installLayout (s : State) (f : Nat) (m : FieldMap) (red : Bool) : State :=
  let s : State := modField s f (fun x => { x with
    map := m, redund := red, epoch := false, idleDirty := false, switched := false, fwd := [], idleMap := [], claims := [],
    clock := m.clock })
  settleLevel (syncMap s f) f true

/-- The redundancy state a field takes: the partition's, or on in reduced service (R149). -/
def wantRedund (s : State) (f : Nat) : Bool :=
  (fieldOf s f).reduced || (match fieldPart s f with | some (_, x) => x.redund | none => false)

/-- R245: a new layout of a field, without borrowing. -/
def layOut (s : State) (f opmode : Nat) : State :=
  let red := wantRedund s f
  installLayout s f (layoutAt s f (layoutClock s f opmode red) red 0 0) red

/-- R295 step 5: both route-table versions are rewritten from the present layout; suspect and quarantined tiles are left out and
their places refilled from the nearest lendable spare, or fall vacant. `only` limits it to the tiles to be left out. -/
def rewriteTables (s : State) (f : Nat) : State :=
  let s : State := modField s f (fun x => { x with
    epoch := false, idleDirty := false, switched := false, fwd := [], idleMap := [], claims := [] })
  let bad := (listedPlaces s f).filter (fun p =>
    let r := tileRec s (pa f p)
    (r.quar || r.suspect) && (servedBy (fieldOf s f) p).isSome)
  let s : State := bad.foldl (fun s p =>
    match servedBy (fieldOf s f) p with
    | none => s
    | some pos =>
      match nearest p (lendables s f) with
      | some q => emitRemap (takePlace s f pos q) f 3 false pos p q
      | none => fallVacant s f pos p) s
  settleLevel (syncMap s f) f false

end Sys2Proof.Machine
end

