-- ==== Sys2Proof/Machine/StepOps.lean ====
section
/-! DEFINITION. Lost steps (R170, R171, R176), exports held at ports (R160), the holds of R197. -/

namespace Sys2Proof.Machine

/-- Table 6.3: the replay word. -/
def replayWord (trigger outcome : Nat) (spareFirst cross : Bool) (tiles spare hold : Nat) : Nat :=
  trigger + outcome * 2 ^ 3 + bit01 spareFirst * 2 ^ 6 + bit01 cross * 2 ^ 7 + min 16383 tiles * 2 ^ 8 + spare * 2 ^ 22 +
    min 0x3FFFF hold * 2 ^ 46

/-- Body of EV_REPLAY, EV_STEP_LOST and EV_PROGRAM_FAULT: the replay word and the syndrome or comparison word (R176). -/
def replayBody (word : Nat) (detail : Dword) : List Word := w64 word ++ w64 detail.toNat

/-- R160, R171, R295: exports held at fabric ports and at the host interface are discarded. -/
def discardExports (s : State) (fs : List Nat) : State :=
  { s with guards := s.guards.map (fun e => if fs.contains (taField e.1) then (e.1, { e.2 with ports := [], tokenWords := [] }) else e) }

/-- The partition of a field is held at its next seams until unload or reset (R171, R197, R255, R294). -/
def holdPartition (s : State) (f : Nat) : State :=
  match fieldPart s f with
  | some (p, x) => discardExports (modPart s p (fun x => { x with heldAll := true })) (partFields x)
  | none => discardExports s [f]

/-- R171, R299: the partition is held, its exports are discarded, and it is reset at level PART with a cause (the field at
level FIELD where it belongs to no partition). -/
def resetForLoss (s : State) (f cause : Nat) : State :=
  let s : State := modField s f (fun x => { x with lostCause := some cause })
  let s : State := holdPartition s f
  match partNo s f with
  | some p => autoReset s 2 (domPart p) cause
  | none => autoReset s 1 (domField f) cause

/-- LOST_STEP (R171): EV_STEP_LOST with a replay word, and the reset. -/
def loseWith (s : State) (f w : Nat) (detail : Dword) (cause : Nat) : State :=
  let s : State := countField s f (fun c => { c with lost := sat16 (c.lost + 1) })
  resetForLoss (emitWords s evStepLost (partNo s f) (replayBody w detail)) f cause

/-- The same for a step that no replay group stands for. -/
def lostStep (s : State) (f trigger outcome : Nat) (cross : Bool) (tiles spare hold : Nat) (detail : Dword) (cause : Nat) :
    State :=
  loseWith s f (replayWord trigger outcome false cross tiles spare hold) detail cause

/-- PROGRAM_FAULT (R170): EV_PROGRAM_FAULT takes the place of EV_STEP_LOST. -/
def programFault (s : State) (f w : Nat) (detail : Dword) : State :=
  let s : State := countField s f (fun c => { c with lost := sat16 (c.lost + 1) })
  resetForLoss (emitWords s evProgramFault (partNo s f) (replayBody w detail)) f 4

end Sys2Proof.Machine
end

