-- ==== Sys2Proof/Machine/SigOps.lean ====
section
/-! DEFINITION. Confirmed findings (R277, R278), what made a tile suspect, and the entries of warden rings (R428) and tile rings
(R427). -/

namespace Sys2Proof.Machine

/-- R277: kind of a failure of a check class (Table 4.5): bfloat16 tolerance, or arithmetic. -/
def kindOfClass (cls : Nat) : Nat := if cls = 5 then 2 else if cls = 8 then 4 else if cls = 9 then 3 else 1

/-- Table 10.9: the state of a field, and the logical tile served, at a detection now. -/
def detected (s : State) (f : Nat) (logical : Option Nat) : Detection :=
  let x := fieldOf s f
  { time := s.now, part := partNo s f, tenant := (fieldTenant s f).getD 0, logical := logical.getD 0xFFFFFF, clock := x.clock,
    layer := (x.compute.map (·.layer)).getD 0, op := (x.compute.map (·.op)).getD 0, temp := x.therm.node0, vcore := x.power.setpoint }

/-- What made a tile suspect is kept for a Bench finding (R277, CONFIRM 0x2). -/
def noteCause (s : State) (phys kind severity : Nat) (word : Dword) (seen : Detection) : State :=
  let c : SuspectCause := { kind := kind, severity := severity, word := word, seen := seen }
  { s with hutch := { s.hutch with causes := tset s.hutch.causes phys c } }

/-- A silent-error finding is confirmed (R277, R278): it waits for its signature, or is counted as dropped where 1,024 wait. The
findings counter of the partition at detection advances with each record made (R284). -/
def confirmFinding (s : State) (kind confirm severity phys : Nat) (seen : Detection) (d0 d1 d2 : Dword) (eventSeq : Nat) : State :=
  let n := tget s.sig.counts 0 phys + 1
  let s : State := { s with sig := { s.sig with counts := tset s.sig.counts phys n } }
  if 1024 ≤ s.sig.queue.length then { s with sig := { s.sig with dropped := min 0xFFFF (s.sig.dropped + 1) } }
  else
    let fd : Finding := {
      kind := kind, confirm := confirm, phys := phys, severity := severity, seen := seen, d0 := d0, d1 := d1, d2 := d2,
      opTime := s.cab.opTime, eventSeq := eventSeq, occ := n }
    let s : State := { s with sig := { s.sig with queue := s.sig.queue ++ [fd] } }
    match seen.part with
    | some p => modPart s p (fun y => { y with findings := y.findings + 1 })
    | none => s

/-! ### The warden's link to the hub (R35, R428) -/

/-- Records that wait beyond the 64 entries of the link's queue stand in the ring, two entries each. -/
def linkBacklog (x : Field) : Nat := x.link.length - 64
/-- Entries of the ring that are not marked BACKLOG. -/
def ringSpace (x : Field) : Nat := 1024 - 2 * linkBacklog x
/-- Queue and ring hold no further record. -/
def linkFull (x : Field) : Bool := decide (576 ≤ x.link.length)

/-- R35: a record that a warden sends reaches the hub while the hub's end of the link is powered; else it waits, or is lost and
counted. -/
def wardenSends (s : State) (f typ : Nat) (part : Option Nat) (body : List Word) : State :=
  let x := fieldOf s f
  if !s.arb.hubOff then emitWords s typ part body
  else if linkFull x then setField s f { x with ringLost := sat 0xFFFF (x.ringLost + 1) }
  else
    let x : Field := { x with link := x.link ++ [(typ, part, body)] }
    setField s f { x with ring := x.ring.take (ringSpace x) }

/-- The records that wait reach the hub, field by field, each field's in order (the order of the fields is DESIGN CHOICE, log entry 149). -/
def drainLinks (s : State) : State :=
  (s.fields.filter (fun e => !e.2.link.isEmpty)).foldl (fun s e =>
    e.2.link.foldl (fun s r => emitWords s r.1 r.2.1 r.2.2) (modField s e.1 (fun x => { x with link := [] }))) s

/-- R428: an entry of a warden's ring. Types are the model's: 1 arrival, 2 release, 3 episode opened, 4 episode closed, 5 replay
started, 6 replay verdict, 7 claim, 8 epoch switch, 9 clock change, 10 hub request, 11 sampled header. The detail follows the identifiers
of the compute command in force (R413). -/
def wring (s : State) (f typ : Nat) (detail : List Nat) : State :=
  modField s f (fun x => { x with
    ring := ((typ, x.seam % 2 ^ 24, s.now,
      ((x.compute.map (·.layer)).getD 0 + (x.compute.map (·.op)).getD 0 * 2 ^ 16) :: detail) :: x.ring).take (ringSpace x) })

/-- R74, R413, R428: the hub's request to the wardens as a command's execution starts, with the command's own identifiers. -/
def hubRequest (s : State) (c : Cmd) : State :=
  ((requestFields s c).filter (fun f => (fieldOf s f).warden == .up)).foldl (fun s f => wring s f 10 [c.opcode, c.layer + c.opId * 2 ^ 16]) s

/-- R25, R420, R428: one router header in 2^e that leave the field's tiles is sampled into the warden's ring. Which one is the model's
choice, and so is that a packet is seen at its sender's router alone (DESIGN CHOICE, log entry 160). -/
def sampleHeader (s : State) (f : Nat) (header : List Word) : State :=
  let x := fieldOf s f
  if (x.headers + 1) % 2 ^ x.sampleExp = 0 then wring (setField s f { x with headers := 0 }) f 11 (header.map (·.toNat))
  else setField s f { x with headers := x.headers + 1 }

/-- R427: an entry of a tile's ring (physical tile). -/
def gring (s : State) (t typ arg cycle : Nat) (detail : Dword) : State :=
  let sm := (fieldOf s (taField t)).seam % 2 ^ 24
  modGuard s t (fun g => { g with
    ring := ({ typ := typ, seam := sm, cycle := sat 0xFFFF cycle, arg := arg % 2 ^ 16, detail := detail } :: g.ring).take 32 })

end Sys2Proof.Machine
end

