-- ==== Sys2Proof/Machine/CounterOps.lean ====
section
/-! DEFINITION. Engine counters (R415, R416), the four banks (R421), profile entries (Table 16.5), latch headers and records (R424),
freezes (R425), and the time of a job (R403, R404, R406). -/

namespace Sys2Proof.Machine

/-! ### Engine counters -/

/-- A 48-bit engine counter advances. -/
def addEng (t : TileCount) (k n : Nat) : TileCount := { t with eng := tset t.eng k (wrap48 (tget t.eng 0 k + n)) }
/-- BUSY of an enabled engine. -/
def engineBusy (x : Field) (e n : Nat) (t : TileCount) : TileCount := if bitAt x.engines e then addEng t (16 * e) n else t
/-- STALL of an enabled engine, and its reason where that is enabled (R416, R420). -/
def engineStall (x : Field) (e r n : Nat) (t : TileCount) : TileCount :=
  if !bitAt x.engines e then t
  else
    let t := addEng t (16 * e + 1) n
    if bitAt x.reasons r then addEng t (16 * e + 8 + r) n else t

/-- One tap of a step counts in its logical tile. -/
def countTap (s : State) (f : Nat) (e : EngineTap) : State :=
  let x := fieldOf s f
  countTile s (tileAddr f false e.place)
    (fun t => if e.kind = 0 then engineBusy x e.engine e.cycles t else engineStall x e.engine (e.kind - 8) e.cycles t)

/-- The tap describes an engine of the field's grid; every stall of the router is charged to LINK (R416). -/
def tapOk (x : Field) (e : EngineTap) : Bool :=
  (fieldPlaces x).contains e.place && decide (e.engine < 4) &&
    (decide (e.kind = 0) || (decide (8 ≤ e.kind) && decide (e.kind < 16) && (decide (e.engine ≠ 3) || decide (e.kind = 10))))

/-- R415: every cycle of the step counts in each enabled engine of every tile. -/
def countCycles (s : State) (f cycles : Nat) : State :=
  if fieldFrozen s f then s
  else modField s f (fun x => { x with cycLive := (List.range 4).foldl (fun t e =>
    if bitAt x.engines e then tset t e (wrap48 (tget t 0 e + cycles)) else t) x.cycLive })

/-- IDLE of an engine: the cycles that were neither BUSY nor STALL (R415). -/
def idleOf (eng cyc : Table Nat) (e : Nat) : Nat :=
  (tget cyc 0 e + 2 * 2 ^ 48 - tget eng 0 (16 * e) - tget eng 0 (16 * e + 1)) % 2 ^ 48

def enabledEngines (mask : Nat) : List Nat := (List.range 4).filter (bitAt mask)
def enabledReasons (mask : Nat) : List Nat := (List.range 8).filter (bitAt mask)

/-- The engine blocks of a bank: BUSY, STALL, IDLE and the enabled reasons (R424). -/
def engineBlocks (engines reasons : Nat) (eng cyc : Table Nat) : List Nat :=
  (enabledEngines engines).flatMap (fun e =>
    [tget eng 0 (16 * e), tget eng 0 (16 * e + 1), idleOf eng cyc e] ++ (enabledReasons reasons).map (fun r => tget eng 0 (16 * e + 8 + r)))

/-! ### The time of a job -/

/-- Middle of a list of numbers: the mean of the two middle ones for an even count. -/
def median (l : List Rat) : Rat :=
  let m := sortBy (fun a b => decide (a ≤ b)) l
  let n := m.length
  if n = 0 then 0 else (m.getD ((n - 1) / 2) 0 + m.getD (n / 2) 0) / 2

/-- R403: the offset of a lane, the median of its last 64 rounds, in ns. -/
def laneOffset (x : Lane) : Rat := median ((x.rounds.take 64).map (fun r => (r.2 : Rat) / 4))

/-- R403: the rate of a lane, the slope of a straight line through the rounds of the last 1 ms, in parts. -/
def laneRate (x : Lane) : Rat :=
  match x.rounds with
  | [] => 0
  | r :: _ =>
    let l := x.rounds.filter (fun e => decide (r.1 - e.1 ≤ 1000000))
    let n : Rat := (l.length : Nat)
    let mt : Rat := (l.map (fun e => (e.1 : Rat))).foldl (· + ·) 0 / n
    let mo : Rat := (l.map (fun e => (e.2 : Rat) / 4)).foldl (· + ·) 0 / n
    let num : Rat := (l.map (fun e => ((e.1 : Rat) - mt) * ((e.2 : Rat) / 4 - mo))).foldl (· + ·) 0
    let den : Rat := (l.map (fun e => ((e.1 : Rat) - mt) * ((e.1 : Rat) - mt))).foldl (· + ·) 0
    if den = 0 then 0 else num / den

/-- R403: a lane that counts towards its peer's offset: in sync, not excluded, with rounds. Lane l belongs to port l. -/
def laneUsable (s : State) (l : Nat) : Bool :=
  let x := laneOf s l
  x.sync && !x.excl && !x.rounds.isEmpty

/-- The ports that lead to the same peer as a port of a tree. -/
def peerLanes (t : Tree) (l : Nat) : List Nat :=
  match t.peers.find? (fun p => p.port == l) with
  | some p => (t.peers.filter (fun r => r.serial == p.serial)).map (·.port)
  | none => [l]

/-- The usable lanes to the peer of a port. -/
def usablePorts (s : State) (t : Tree) (l : Nat) : List Nat := (peerLanes t l).filter (laneUsable s)

/-- R403: offset to a peer, the median over its usable lanes, in ns. -/
def hopOffset (s : State) (t : Tree) (l : Nat) : Rat := median ((usablePorts s t l).map (fun k => laneOffset (laneOf s k)))

/-- The lane whose offset the median takes: the usable one nearest to it. -/
def medianLane (s : State) (t : Tree) (l : Nat) : Nat :=
  let m := hopOffset s t l
  let d := fun k : Nat => let v := laneOffset (laneOf s k) - m; if v < 0 then -v else v
  ((usablePorts s t l).foldl (fun (b : Option Nat) k =>
    match b with
    | none => some k
    | some j => if d k < d j then some k else some j) none).getD l

/-- R406: offset of this wafer's clock to the root's at a local time, in ns: the parent's, less that of the parent to this wafer,
each carried on by its rate. -/
def thetaAt (s : State) (t : Tree) (at_ : Int) : Rat :=
  match t.parent with
  | none => 0
  | some l =>
    if (usablePorts s t l).isEmpty then ((t.theta : Int) : Rat)
    else
      let x := laneOf s (medianLane s t l)
      let last : Int := match x.rounds with | r :: _ => r.1 | [] => (t.aboveAt : Int)
      ((t.above : Int) : Rat) - hopOffset s t l - laneRate x * ((at_ - last : Int) : Rat)

/-- R406: local time of an aligned time in ns. -/
def toLocal (s : State) (t : Tree) (aligned : Nat) : Rat :=
  let a : Rat := (aligned : Nat)
  let first := (a + thetaAt s t (s.now : Int)).floor
  a + thetaAt s t first
/-- R424 ALIGNED: aligned time of a local time. -/
def toAligned (s : State) (t : Tree) (l : Nat) : Nat := (((l : Nat) : Rat) - thetaAt s t (l : Int)).floor.toNat

/-! ### Banks and profile entries (R421, R422) -/

/-- LIVE is copied to START (0), END (1) or LATCH (2) for the tiles of a field. -/
def copyBank (s : State) (f bank : Nat) : State :=
  let s : State := { s with tiles := s.tiles.map (fun e =>
    if taField e.1 ≠ f then e
    else if bank = 0 then (e.1, { e.2 with start := e.2.live })
    else if bank = 1 then (e.1, { e.2 with stop := e.2.live })
    else (e.1, { e.2 with latch := e.2.live })) }
  modField s f (fun x =>
    if bank = 0 then { x with cycStart := x.cycLive }
    else if bank = 1 then { x with cycStop := x.cycLive } else { x with cycLatch := x.cycLive })

/-- The banks of the field's tiles that count. -/
def fieldBanks (s : State) (f : Nat) : List TileBanks := (s.tiles.filter (fun e => taField e.1 == f)).map (·.2)

/-- Difference of two 48-bit counters. -/
def diff48 (b a : Nat) : Nat := (b + 2 ^ 48 - a) % 2 ^ 48

/-- SUMS of Table 16.5: field sums of END - START, 8 bytes each. -/
def profileSums (s : State) (f : Nat) : List Word :=
  let x := fieldOf s f
  let bs := fieldBanks s f
  let sum := fun k : Nat => (bs.map (fun b => diff48 (tget b.stop.eng 0 k) (tget b.start.eng 0 k))).sum
  let all := fun e : Nat => (fieldPlaces x).length * diff48 (tget x.cycStop 0 e) (tget x.cycStart 0 e)
  (enabledEngines x.engines).flatMap (fun e =>
    w64 (sum (16 * e)) ++ w64 (sum (16 * e + 1)) ++ w64 ((all e + 2 ^ 64 - (sum (16 * e) + sum (16 * e + 1)) % 2 ^ 64) % 2 ^ 64) ++
      (enabledReasons x.reasons).flatMap (fun r => w64 (sum (16 * e + 8 + r))))

/-- R422: the job size of a field's partition. -/
def jobSize (s : State) (f : Nat) : Nat :=
  match fieldPart s f with
  | some (_, x) => (x.tree.map (·.size)).getD 1
  | none => 1

/-- The running compute command ends: its profile entry, with PARTIAL where a reset or an unload ends it (R421, Table 16.5). -/
def endCompute (s : State) (f : Nat) (partly : Bool) : State :=
  match (fieldOf s f).compute with
  | none => s
  | some c =>
    let s : State := copyBank s f 1
    let x := fieldOf s f
    let p : Profile := {
      layer := c.layer, op := c.op, frozen := x.frozenSeen, partly := partly, maskChanged := x.maskChanged, startSeam := c.startSeam,
      endSeam := if partly then x.seam - (if x.run = .held then 0 else 1) else c.endSeam, startTs := x.startTs, endTs := x.arriveTs,
      sums := profileSums s f }
    let s : State := setField s f { x with compute := none, frozenSeen := false, maskChanged := false }
    if 16 < jobSize s f then s
    else if x.profiles.length < 128 then modField s f (fun x => { x with profiles := x.profiles ++ [p] })
    else
      countField (modField s f (fun x => { x with profiles := x.profiles.drop 1 ++ [p] })) f
        (fun c => { c with profilesLost := sat16 (c.profilesLost + 1) })

/-- A compute command starts at the seam that the field has reached. -/
def startCompute (s : State) (f : Nat) : State :=
  let x := fieldOf s f
  match x.computeDue.find? (fun c => c.startSeam == x.seam) with
  | none => s
  | some c =>
    let s : State := copyBank s f 0
    modField s f (fun x => { x with
      compute := some c, computeDue := x.computeDue.filter (· != c), frozenSeen := x.frozen.isSome, maskChanged := false, startTs := s.now })

/-! ### COUNTER_LATCH (R423, R424) -/

/-- Table 16.4: the latch header. -/
def latchHeader (s : State) (f ts : Nat) : List Word :=
  let x := fieldOf s f
  let lat := (fieldBanks s f).map (·.latch)
  let p := (fieldPart s f).map (·.2)
  let recLen := (76 + 6 * (enabledEngines x.engines).length * (3 + (enabledReasons x.reasons).length) + 7) / 8 * 8
  let job := jobSize s f
  let aligned := match p.bind (·.tree) with | some t => toAligned s t ts | none => 0
  let head := [w32 (f + bit01 x.frozen.isSome * 2 ^ 7 + x.engines % 256 * 2 ^ 8 + x.reasons % 256 * 2 ^ 16 + bit01 (decide (16 < job)) * 2 ^ 31),
    w32 (recLen + x.profiles.length * 2 ^ 16), w32 ((fieldPlaces x).length + x.cnt.profilesLost * 2 ^ 16), w32 x.seam] ++
    w64 ts ++ w64 aligned ++ w64 x.cnt.hold ++ w64 x.cnt.idleHold ++
    [w32 x.cnt.drawn, w32 x.cnt.agree, w32 x.cnt.skipCap, w32 x.cnt.skipOther, w32 x.cnt.superseded, w32 (x.cnt.lost + x.cnt.late * 2 ^ 16),
     w32 x.cnt.disturbed, w32 ((p.map (·.findings)).getD 0),
     w32 ((x.compute.map (·.layer)).getD 0 + (x.compute.map (·.op)).getD 0 * 2 ^ 16)] ++
    w64 ((lat.map (·.matrixBusy)).sum % 2 ^ 64) ++
    [w32 (sat32 (lat.map (·.residue)).sum), w32 (sat32 (lat.map (fun c => c.replaySame + c.replaySpare)).sum), w32 (sat32 (lat.map (·.eccCorr)).sum)]
  (head ++ List.replicate 32 0).take 32

/-- Order 1 of Table 1.1: the first waiting COUNTER_LATCH latches the field, unless an earlier one still writes it (R426). -/
def latchField (s : State) (f : Nat) : State :=
  let x := fieldOf s f
  match x.latchWait with
  | [] => s
  | c :: rest =>
    if x.latchOut.isSome then s
    else
      let ts := x.frozen.getD s.now
      let s : State := copyBank s f 2
      let h := latchHeader s f ts
      modField s f (fun x => { x with
        latchWait := rest, latchOut := some c, latchTs := ts, latchHead := h, latchProfiles := x.profiles, profiles := [] })

/-- R423: a field that is frozen, or that no seam will come to, latches at once. -/
def latchIdle (s : State) (f : Nat) : State := if fieldFrozen s f || !fieldLoaded s f then latchField s f else s

/-- Little-endian bytes of a number. -/
def lowBytes (n k : Nat) : List Byte := (List.range k).map (fun i => BitVec.ofNat 8 (n / 2 ^ (8 * i)))

/-- Table 16.2: the tile block. -/
def tileBlock (c : TileCount) : List Byte :=
  lowBytes c.matrixBusy 6 ++ lowBytes c.replayCycles 6 ++
    [c.residue, c.round, c.parity, c.specialFail, c.tolerance, c.parityAbst, c.tolAbst, c.specialContr, c.injected, c.replaySame,
     c.replaySpare, c.taint, c.recalls, c.holdOvf, c.inbound, c.eccCorr].flatMap (fun n => lowBytes n 4)

/-- R424: the record of a logical tile, padded to a multiple of 8 bytes; zeros for a vacant coordinate. -/
def tileRecord (s : State) (f l : Nat) : List Word :=
  let x := fieldOf s f
  let head := x.latchHead
  let em := bitsOf ((head.getD 0 0).toNat) 8 8
  let rm := bitsOf ((head.getD 0 0).toNat) 16 8
  let c := (tileBanks s (tileAddr f false l)).latch
  let bs := tileBlock c ++ (engineBlocks em rm c.eng x.cycLatch).flatMap (fun n => lowBytes n 6)
  let n := (bs.length + 7) / 8 * 2
  if ownerOf x (posOf x l) = unfilled then List.replicate n 0
  else (wordsOfBytes (bs ++ List.replicate (4 * n - bs.length) 0)).take n

/-- Table 16.5: a profile entry. -/
def profileWords (p : Profile) : List Word :=
  [w32 (p.layer + p.op * 2 ^ 16), w32 (bit01 p.frozen + bit01 p.partly * 2 + bit01 p.maskChanged * 4), w32 p.startSeam, w32 p.endSeam] ++
    w64 p.startTs ++ w64 p.endTs ++ p.sums

/-- R424: the output of a field; IDLE_HOLD reads 0 for tenants 1-15 (R430). -/
def latchOutput (s : State) (t f : Nat) : List Word :=
  let x := fieldOf s f
  let head := if t = 0 then x.latchHead else x.latchHead.take 10 ++ [0, 0] ++ x.latchHead.drop 12
  head ++ x.latchProfiles.flatMap profileWords ++ (fieldPlaces x).flatMap (tileRecord s f)

/-! ### Freezes (R425) -/

/-- Field-clock cycles for which a field has been held. -/
def heldSoFar (s : State) (f : Nat) : Nat := (s.now - (fieldOf s f).arriveTs) * (fieldOf s f).clock / 1000

/-- R425: what a field has counted of its step or hold up to the edge; what it counts later starts from there. -/
def countToEdge (s : State) (f cycles : Nat) (taps : List EngineTap) : State :=
  let x := fieldOf s f
  if x.run = .running then
    modField (countCycles (taps.foldl (fun s e => countTap s f e) s) f (cycles - x.cut)) f (fun x => { x with cut := cycles })
  else if x.run = .held then
    let h := heldSoFar s f
    modField (countField s f (fun c => { c with hold := wrap48 (c.hold + (h - x.cut)) })) f (fun x => { x with cut := h })
  else s

/-- The counters of a field freeze or thaw at a local time. -/
def actFreeze (s : State) (f : Nat) (freeze : Bool) (at_ : Nat) : State :=
  modField s f (fun x =>
    if freeze then { x with frozen := if x.frozen.isSome then x.frozen else some at_, frozenSeen := true } else { x with frozen := none })

/-- The whole partition is frozen. -/
def partFrozen (s : State) (p : Nat) : Bool := (fieldsOfPart s p).all (fun f => fieldFrozen s f)

/-- Table 16.6: EV_FREEZE, and the completion of COUNTER_FREEZE with the time of the acting edge. -/
def finishFreeze (s : State) (p : Nat) (z : FreezePend) (acted lateNs : Nat) : State :=
  let job := (partOf s p).map (·.job)
  let s : State := modPart s p (fun x => { x with freeze := none })
  let s : State := emitWords s evFreeze (some p)
    ([w32 (bit01 z.freeze + bit01 z.late * 2 + bit01 (decide (z.trigger = 0)) * 4 + job.getD 0 * 2 ^ 16)] ++
      w64 z.trigger ++ w64 acted ++ [w32 lateNs, 0, 0])
  match findCmd s z.q z.e with
  | some c => complete s c stOk (w64 acted)
  | none => s

/-- A trigger of 0 acts at the seam that the field has reached; the last field ends the command. -/
def freezeAtSeam (s : State) (f : Nat) : State :=
  match fieldPart s f with
  | none => s
  | some (p, x) =>
    match x.freeze with
    | none => s
    | some z =>
      if !z.left.contains f then s
      else
        let z : FreezePend := { z with left := z.left.filter (· != f) }
        let s : State := actFreeze s f z.freeze s.now
        let s : State := modPart s p (fun x => { x with freeze := some z })
        if z.left.isEmpty then finishFreeze s p z s.now 0 else s

/-- Order 1 of Table 1.1 (R421, R426): the compute command that ends or starts at the seam, the counter latch, then a freeze. -/
def seamCopies (s : State) (f : Nat) : State :=
  let x := fieldOf s f
  let ends := match x.compute with | some c => decide (c.endSeam = x.seam) | none => false
  let s : State := if ends then endCompute s f false else s
  freezeAtSeam (latchField (startCompute s f) f) f

end Sys2Proof.Machine
end

