-- ==== Sys2Proof/Machine/Flags.lean ====
section
/-! DEFINITION. Status words and record words that collect flags: the field status words (Table 10.2), the fault record (Table
10.4) and the storm record (Table 10.6). -/

namespace Sys2Proof.Machine

/-- FSW0 (Table 10.2). -/
def fsw0 (e : Option Episode) : Word :=
  match e with
  | none => 0
  | some e => w32 (e.classes % 2 ^ 13 + 2 ^ 16 + e.first.cls * 2 ^ 17 + bit01 (decide (0 < e.later)) * 2 ^ 21 +
      bit01 e.storm * 2 ^ 22 + 2 ^ 23 + e.gen.toNat * 2 ^ 24)
/-- FSW1 (Table 10.2). -/
def fsw1 (e : Option Episode) : Word :=
  match e with
  | none => 0
  | some e => w32 (e.first.tile % 2 ^ 24 + e.first.master % 16 * 2 ^ 24 + e.first.access % 16 * 2 ^ 28)
/-- FSW2 (Table 10.2). -/
def fsw2 (x : Field) : Word := w32 (sat 0xFFFF ((x.episode.map (·.later)).getD 0) + sat 0xFFFF x.ringLost * 2 ^ 16)

/-- The twelve words of a fault record (Table 10.4): an episode's (`rtype` 1), or the rate summary (`rtype` 3) of as many episodes
as `others` says. -/
def faultWords (f rtype : Nat) (e : Episode) (others ringLost : Nat) : List Word :=
  [w32 (rtype + f * 2 ^ 8 + bit01 e.late * 2 ^ 15 + e.gen.toNat * 2 ^ 16 + bit01 e.storm * 2 ^ 22), fsw1 (some e), e.first.loc] ++
    w64 e.time ++ w64 e.first.detail.toNat ++
    [w32 (e.classes % 2 ^ 13 + e.layer % 2 ^ 16 * 2 ^ 16), w32 (sat 0xFFFF others + sat 0xFFFF e.more * 2 ^ 16),
     w32 (e.op % 2 ^ 16 + sat 0xFFFF ringLost * 2 ^ 16), w32 e.second, w32 e.last]

/-- A storm record that nothing has filled. -/
def noStorm : Storm :=
  { start := 0, stopped := 0, bursts := 0, peak := 0, counts := [], droop := false, prog := false, continued := false, first := 0 }

/-- The sixteen words of a storm record (Table 10.6) over the storms of some fields, closing at `stop`. -/
def stormWords (l : List (Nat × Storm)) (stop : Nat) : List Word :=
  let first := l.foldl (fun (m : Nat × Storm) e => if e.2.start < m.2.start then e else m) (l.headD (0, noStorm))
  let mask := ((l.map (·.1)).eraseDups.map (fun f => 2 ^ f)).sum
  let count := fun i : Nat => sat 0xFFFF ((l.map (fun e => e.2.counts.getD i 0)).sum)
  [w32 mask, w32 (mask / 2 ^ 32), w32 (mask / 2 ^ 64)] ++ w64 first.2.start ++
    [w32 (sat 0xFFFFFFFF (stop - first.2.start)),
     w32 (sat 0xFFFF ((l.map (·.2.bursts)).sum) + sat 0xFFFF (l.foldl (fun m e => max m e.2.peak) 0) * 2 ^ 16)] ++
    (List.range 7).map (fun i => w32 (count (2 * i) + (if i = 6 then 0 else count (2 * i + 1) * 2 ^ 16))) ++
    [w32 (first.1 + bit01 (l.any (·.2.droop)) * 2 ^ 7 + bit01 (l.any (·.2.prog)) * 2 ^ 8 + bit01 (l.any (·.2.continued)) * 2 ^ 9),
     w32 first.2.first]

end Sys2Proof.Machine
end

