-- ==== Sys2Proof/Machine/FaultOps.lean ====
section
/-! DEFINITION. Episodes of a field (R262 to R271) and the storms they turn into (R273, R275). -/

namespace Sys2Proof.Machine

/-- Tile address of a field-level source (Table 10.2 FIRST_ADDR). -/
def fieldAddr (f : Nat) : Nat := f * 131072

/-- R262, R266, R267: a source is latched: it opens an episode, or joins the open one. -/
def addSource (s : State) (f : Nat) (d : SourceDetail) (more : Nat) : State :=
  let x := fieldOf s f
  match x.episode with
  | none =>
    let e : Episode := {
      first := d, time := s.now, gen := genOf s (domField f), classes := 2 ^ d.cls, late := x.lateLatch, more := more,
      layer := (x.compute.map (·.layer)).getD 0, op := (x.compute.map (·.op)).getD 0,
      seam := if x.run = .held ∧ x.atStart = false then x.seam + 1 else x.seam }
    wring (setField s f { x with episode := some e, lateLatch := false }) f 3 [d.tile, d.cls]
  | some e =>
    let e : Episode := { e with
      classes := e.classes ||| 2 ^ d.cls, later := sat 0xFFFF (e.later + 1),
      second := if e.second = 0xFFFFFF ∧ d.cls < 8 then d.tile else e.second,
      last := if e.second = 0xFFFFFF ∨ 8 ≤ d.cls then e.last else d.tile }
    setField s f { x with episode := some e }

/-- R263: a field-level source is latched directly, while the warden runs. -/
def latchLevel (s : State) (f cls tile master access : Nat) (loc : Word) (detail : Dword) : State :=
  if (fieldOf s f).warden = .up then
    addSource s f { cls := cls, tile := tile, master := master, access := access, loc := loc, detail := detail } 0
  else s

/-- R267: the paired spare fails a check during its replay: the class bit, LATER and LAST. -/
def noteSpareFail (s : State) (f cls spare : Nat) : State :=
  modField s f (fun x => { x with episode := x.episode.map (fun e =>
    { e with classes := e.classes ||| 2 ^ cls, later := sat 0xFFFF (e.later + 1), last := spare }) })

/-- R273, R275: the episode is a storm; its record opens, or takes one more burst. -/
def openStorm (s : State) (f rootCount : Nat) (droop : Bool) : State :=
  let x := fieldOf s f
  match x.episode with
  | none => s
  | some e =>
    if e.storm then
      setField s f { x with storm := x.storm.map (fun m => { m with
        peak := max m.peak rootCount, droop := m.droop || droop, prog := m.prog || bitAt e.classes 2 }) }
    else
      let prog := bitAt e.classes 2
      let m : Storm := match x.storm with
        | some m => { m with
            bursts := m.bursts + 1, peak := max m.peak rootCount, droop := m.droop || droop, prog := m.prog || prog, lastRise := s.now }
        | none => { noStorm with
            start := e.time, bursts := 1, peak := rootCount, droop := droop, prog := prog, first := e.first.tile, lastRise := s.now,
            seam0 := x.seam, routers := x.routerPins.length }
      setField s f { x with episode := some { e with storm := true }, storm := some m }

/-- R271: seconds of block time, from 1 on, so that 0 stands for none. -/
def faultSecond (s : State) : Nat := s.now / 1000000000 + 1

/-- Table 10.2: RING_LOST is cleared once a record that carries it has entered the link. -/
def lostKept (s : State) (x : Field) : Nat := if s.arb.hubOff && linkFull x then x.ringLost else 0

/-- R271: the rate summary of the second that has ended. -/
def sendSummary (s : State) (f : Nat) : State :=
  let x := fieldOf s f
  match x.summary with
  | none => s
  | some (e, n) =>
    wardenSends (setField s f { x with summary := none, ringLost := lostKept s x }) f evFault (partNo s f) (faultWords f 3 e n x.ringLost)

/-- R276: the field has committed its one EV_FAULT of the open storm with an earlier burst. -/
def laterBurst (x : Field) (e : Episode) : Bool :=
  e.storm && (match x.storm with | some m => decide (2 ≤ m.bursts) | none => false)

/-- R266, R269, R271: the episode closes: its fault record, or its place in the summary of the second. -/
def closeEpisode (s : State) (f : Nat) : State :=
  match (fieldOf s f).episode with
  | none => s
  | some e =>
    let sec := faultSecond s
    let s : State := wring s f 4 [e.first.tile]
    let s : State := if e.storm then
      modField s f (fun x => { x with storm := x.storm.map (fun m => { m with classes := m.classes ||| e.classes }) }) else s
    let s : State := if (fieldOf s f).rateSecond = sec then s else
      modField (sendSummary s f) f (fun x => { x with rateSecond := sec, rateCount := 0 })
    let x := fieldOf s f
    if laterBurst x e then setField s f { x with episode := none }
    else if x.rateCount < 16 then
      wardenSends (setField s f { x with episode := none, rateCount := x.rateCount + 1, ringLost := lostKept s x }) f evFault (partNo s f)
        (faultWords f 1 e e.later x.ringLost)
    else
      let sum : Episode × Nat := match x.summary with
        | none => (e, 1)
        | some (a, n) => ({ a with classes := a.classes ||| e.classes, storm := a.storm || e.storm }, n + 1)
      setField s f { x with episode := none, summary := some sum }

/-- The pins of a field are acknowledged at one blow (R274), or end with a reset. -/
def dropPins (s : State) (f : Nat) : State :=
  { modField s f (fun x => { x with guardPins := [], routerPins := [], latched := none }) with
    guards := s.guards.map (fun e => if taField e.1 = f then (e.1, { e.2 with pin := false }) else e) }

/-- At the arrival (R122, R267, R274): MORE of the first guard is taken, and a storm's pins are acknowledged. -/
def faultsAtSeam (s : State) (f : Nat) : State :=
  let s : State := modField s f (fun x => { x with episode := x.episode.map (fun e =>
    if e.first.cls ≤ 5 ∧ e.seam ≤ x.seam then { e with more := (guardOf s e.first.tile).more } else e) })
  match (fieldOf s f).episode with
  | some e => if e.storm then dropPins s f else s
  | none => s

/-- R266: the seam following the first latch has been released. -/
def noteReleased (s : State) (f : Nat) : State :=
  modField s f (fun x => { x with episode := x.episode.map (fun e => { e with released := e.released || decide (e.seam ≤ x.seam) }) })

end Sys2Proof.Machine
end

