-- ==== Sys2Proof/Machine/PowerOps.lean ====
section
/-! DEFINITION. Rails and limits (R346 to R350), operating points (R355, R356), frequency changes (R357), the wafer cap and the
arbiter's plan (R359 to R364). -/

namespace Sys2Proof.Machine

/-! ### The board descriptor (R347, R348) -/

def boardByte (s : State) (i : Nat) : Nat := (s.nor.board.getD i 0#8).toNat
def boardWord (s : State) (i : Nat) : Nat :=
  boardByte s i + boardByte s (i + 1) * 2 ^ 8 + boardByte s (i + 2) * 2 ^ 16 + boardByte s (i + 3) * 2 ^ 24
/-- Table 13.1: IMAX in 0.1 A, PHASES, FIRST_PHASE, VSETTLE_US of a rail. -/
def railImax (s : State) (rail : Nat) : Nat := bitsOf (boardWord s (8 * rail)) 0 16
def railPhases (s : State) (rail : Nat) : Nat := bitsOf (boardWord s (8 * rail)) 16 6
def railFirst (s : State) (rail : Nat) : Nat := bitsOf (boardWord s (8 * rail)) 22 6
def railSettle (s : State) (rail : Nat) : Nat := bitsOf (boardWord s (8 * rail + 4)) 0 16
/-- Table 13.7. -/
def zonePhases (s : State) (z : Nat) : Nat := bitsOf (boardWord s (0x7E0 + 4 * z)) 0 8
def zoneMinPhases (s : State) (z : Nat) : Nat :=
  let m := bitsOf (boardWord s (0x7E0 + 4 * z)) 8 8
  if m = 0 then zonePhases s z else m

/-- R349: the board maximum of a rail in A. -/
def boardMax (s : State) (rail : Nat) : Rat :=
  let n := railPhases s rail
  let z := zoneOf (rail / 3)
  let gone := (s.hutch.img.badPhases.filter (fun e => e.1 == z && decide (railFirst s rail ≤ e.2) &&
    decide (e.2 < railFirst s rail + n))).length
  ((railImax s rail : Nat) : Rat) / 10 * (((n - gone : Nat) : Rat)) / (((max n 1 : Nat) : Rat))
/-- R349: the limit in force. -/
def railLimit (s : State) (rail : Nat) : Rat :=
  match tfind (fieldOf s (rail / 3)).power.limits (rail % 3) with
  | some a => min (boardMax s rail) ((a : Nat) : Rat)
  | none => boardMax s rail
def railLimitA (s : State) (rail : Nat) : Nat := (railLimit s rail).floor.toNat

/-! ### Power (R351, R354) -/

def ratSum (l : List Rat) : Rat := l.foldl (· + ·) 0
def ratMean (l : List Rat) : Rat := if l.isEmpty then 0 else ratSum l / ((l.length : Nat) : Rat)
/-- Mean power in W of a rail kind of a field over the last ms. -/
def railWatts (x : Field) (kind : Nat) : Rat := ratMean (x.power.watts.map (fun e => e.2.getD kind 0))
def fieldWatts (x : Field) : Rat := railWatts x 0 + railWatts x 1 + railWatts x 2
/-- R354, R369: the wafer's power, without the fields of a zone that has lost power-good. -/
def waferWatts (s : State) : Rat := ratSum (s.fields.map (fun e => if e.2.zoneDown then 0 else fieldWatts e.2))
/-- Power in units of 10 W. -/
def tenWatts (r : Rat) : Nat := (r / 10).floor.toNat

/-! ### Operating points (R355, R356) -/

def roundUp5 (n : Nat) : Nat := (n + 4) / 5 * 5
/-- The ladder's rung at or above a frequency. -/
def rungOf (mhz : Nat) : Nat := (mhz + 24) / 25 * 25
/-- R355, R442: V_char of a field at a rung, none where S5 recorded none. -/
def vcharOf (s : State) (f rung : Nat) : Option Nat :=
  (s.hutch.img.vchar.find? (fun e => e.1 == f && e.2.1 == rung)).map (·.2.2)
/-- R355, R445: the setpoint in mV at a clock; 0.72 V where no characterisation exists. -/
def setpointAt (s : State) (f mhz : Nat) : Nat :=
  let r := rungOf mhz
  if r ≤ 600 then 620
  else
    match vcharOf s f r with
    | some v => roundUp5 (v + 60 + tget s.hutch.img.trim 0 f)
    | none => 720
/-- R355, R442: the rungs whose setpoints stay within 0.85 V, lowest first, up to the first that does not. -/
def withinVolts (s : State) (f mhz : Nat) : List Nat :=
  (((List.range 27).map (fun i => 600 + 25 * i)).filter (fun r => decide (r ≤ rungOf mhz))).takeWhile (fun r => decide (setpointAt s f r ≤ 850))
/-- R355: the frequency itself, or, where its setpoint or that of a rung below it would exceed 0.85 V, the highest rung that is available. -/
def availableClock (s : State) (f mhz : Nat) : Nat :=
  let top := (withinVolts s f mhz).getLast?.getD 600
  if mhz ≤ 600 ∨ top = rungOf mhz then mhz else top
/-- Table 17.5: the setpoint of the VSRAM rails in mV, which no rule states (`Config.railVolts`). -/
def vsramMv : Nat := (Config.railVolts 1 * 1000).floor.toNat
/-- The lowest non-zero of two ceilings. -/
def lowCeil (a b : Nat) : Nat := if a = 0 then b else if b = 0 then a else min a b
def partCeil (x : Part) : Nat := lowCeil (lowCeil x.capCeil x.thermCeil) x.railCeil
/-- R356: the clock a field is to run at. -/
def targetClock (s : State) (f : Nat) : Nat :=
  let top := mapClock s f
  match fieldPart s f with
  | some (_, x) =>
    if x.prog.isNone then top
    else if x.opmodeRun ≠ 0 then min top 1000
    else availableClock s f (if partCeil x = 0 then top else min top (partCeil x))
  | none => top

/-! ### Records (Table 13.4) -/

def capInForce (s : State) : Nat :=
  min (if s.arb.cap = 0 then 3600 else s.arb.cap) (min (if s.tray.capCeil = 0 then 3600 else 10 * s.tray.capCeil) 3600)

/-- EV_CAP_CHANGE. -/
def emitCapChange (s : State) (source rail limit : Nat) : State :=
  emitWords s evCapChange none
    [w32 (capInForce s + source * 2 ^ 16), w32 (rail + limit * 2 ^ 16), w32 (tenWatts (waferWatts s)), 0]

/-- EV_CLOCK_CHANGE, at most once per field per second; those between are counted in the next (R371). -/
def emitClockChange (s : State) (f cause new old : Nat) : State :=
  let x := fieldOf s f
  let sec := s.cab.opTime / 16 + 1
  if x.power.clkSecond = sec then
    setField s f { x with power := { x.power with clkSkipped := x.power.clkSkipped + 1 } }
  else
    let s : State := setField s f { x with power := { x.power with clkSecond := sec, clkSkipped := 0 } }
    emitWords s evClockChange (partNo s f)
      [w32 (f + cause * 2 ^ 8 + new * 2 ^ 16), w32 (old + setpointAt s f new * 2 ^ 16), w32 x.power.clkSkipped, 0]

/-! ### Frequency changes (R357) -/

/-- A write waits for a slot of the zone's segment. -/
def queueWrite (s : State) (z page cmd value : Nat) : State :=
  { s with arb := { s.arb with writes := tset s.arb.writes z (tget s.arb.writes [] z ++ [(page, cmd, value)]) } }
/-- VOUT_COMMAND of a field's VSRAM. -/
def queueVsram (s : State) (f mv : Nat) : State := queueWrite s (zoneOf f) (pageOf f 1) 0x21 mv
/-- VOUT_COMMAND of a field's VCORE. -/
def queueVcore (s : State) (f mv : Nat) : State := queueWrite s (zoneOf f) (pageOf f 0) 0x21 mv

/-- The cause of a change towards a target (Table 13.4). -/
def changeCause (s : State) (f : Nat) (target : Nat) : Nat :=
  let x := fieldOf s f
  match fieldPart s f with
  | some (_, p) =>
    if x.power.postLock ∧ x.clock < target then 4
    else if p.railCeil ≠ 0 ∧ p.railCeil = target then 2
    else if partCeil p ≠ 0 ∧ partCeil p = target then 1
    else 0
  | none => 0

/-- A decision to change the clock of a field that runs a program; one change at a time, none in a lockout (R357, R367). -/
def startChange (s : State) (f : Nat) : State :=
  let x := fieldOf s f
  let t := targetClock s f
  if !fieldLoaded s f || x.power.change.isSome || decide (t = x.clock) then s
  else if x.power.lockout then setField s f { x with power := { x.power with postLock := true } }
  else
    let c : FreqChange := { from_ := x.clock, dest := t, cause := changeCause s f t }
    let s : State := setField s f { x with power := { x.power with change := some c, postLock := false } }
    if x.clock < t then queueVcore s f (setpointAt s f t) else s

/-! ### The arbiter (R360 to R363) -/

/-- The rungs of R355 up to a frequency, highest first. -/
def rungsUpTo (mhz : Nat) : List Nat := ((List.range 27).map (fun i => 600 + 25 * i)).reverse.filter (fun r => decide (r ≤ mhz))

/-- R361: projected VCORE draw of a partition at a ceiling. -/
def projected (s : State) (x : Part) (ceil : Nat) : Rat :=
  ratSum ((partFields x).map (fun f =>
    let y := fieldOf s f
    let c := min ceil (mapClock s f)
    Config.scaleDraw (y.clock, y.power.setpoint) (c, setpointAt s f c) (railWatts y 0)))

/-- Present VCORE draw of a partition. -/
def partDraw (s : State) (x : Part) : Rat := ratSum ((partFields x).map (fun f => railWatts (fieldOf s f) 0))

/-- The draw of a partition at its unconstrained points. -/
def freeDraw (s : State) (x : Part) : Rat := if x.opmodeRun = 0 then projected s x 100000 else partDraw s x

/-- R360: the remainder divided in proportion to fields; what a partition does not need is divided again. -/
def shareOut : Nat → List (Nat × Nat × Rat) → Rat → List (Nat × Rat)
  | 0, ps, rem =>
    let n := (ps.map (fun e => e.2.1)).sum
    ps.map (fun e => (e.1, rem * ((e.2.1 : Nat) : Rat) / ((max n 1 : Nat) : Rat)))
  | k + 1, ps, rem =>
    let n := (ps.map (fun e => e.2.1)).sum
    let share := fun e : Nat × Nat × Rat => rem * ((e.2.1 : Nat) : Rat) / ((max n 1 : Nat) : Rat)
    let low := ps.filter (fun e => decide (e.2.2 ≤ share e))
    if low.isEmpty then ps.map (fun e => (e.1, share e))
    else
      low.map (fun e => (e.1, e.2.2)) ++
        shareOut k (ps.filter (fun e => !decide (e.2.2 ≤ share e))) (rem - ratSum (low.map (fun e => e.2.2)))

/-- R361: the smallest idle duty, in sixteenths, whose projection fits the share. -/
def dutyFor (draw share : Rat) : Nat := ((List.range 13).find? (fun d => decide (Config.idleDraw d draw ≤ share))).getD 12

/-- R361, R367: the plan of one partition for its share. -/
def planPart (s : State) (p : Nat) (x : Part) (share : Rat) : State :=
  let fs := partFields x
  if fs.any (fun f => (fieldOf s f).power.change.isSome) then s
  else if x.opmodeRun ≠ 0 ∨ fs.any (fun f => (fieldOf s f).power.lockout) then
    modPart s p (fun y => { y with idleDuty := dutyFor (partDraw s x) share })
  else
    let top := fs.foldl (fun m f => max m (mapClock s f)) 600
    let fit := (rungsUpTo top).find? (fun r => decide (projected s x r ≤ share))
    match fit with
    | none => modPart s p (fun y => { y with capCeil := 600, idleDuty := dutyFor (projected s x 600) share })
    | some r =>
      let cur := if x.capCeil = 0 then top else x.capCeil
      if r < cur then modPart s p (fun y => { y with capCeil := r, idleDuty := 0 })
      else if cur < r ∧ x.lastRaise + 1000000 ≤ s.now ∧ projected s x (cur + 25) * 100 ≤ share * 98 then
        modPart s p (fun y => { y with capCeil := if top ≤ cur + 25 then 0 else cur + 25, lastRaise := s.now, idleDuty := 0 })
      else modPart s p (fun y => { y with idleDuty := 0 })

/-- R363: the floor in W: OPMODE 0 partitions at 0.600 GHz, every partition at duty 12/16. -/
def floorWatts (s : State) : Rat :=
  let other := ratSum (s.fields.map (fun e => if e.2.zoneDown then 0 else railWatts e.2 1 + railWatts e.2 2 +
    (if fieldLoaded s e.1 then 0 else railWatts e.2 0)))
  other + ratSum (s.parts.map (fun e =>
    if e.2.prog.isNone then 0
    else Config.idleDraw 12 (if e.2.opmodeRun = 0 then projected s e.2 600 else partDraw s e.2)))

/-- R360: the compute remainder of the cap in force. -/
def computeRemainder (s : State) : Rat :=
  let cap : Rat := ((capInForce s * 10 : Nat) : Rat)
  cap - ratSum (s.fields.map (fun e => if e.2.zoneDown then 0 else railWatts e.2 1 + railWatts e.2 2 +
    (if fieldLoaded s e.1 then 0 else railWatts e.2 0)))

/-- R364: 10 ms after the last excess the ceiling of a rail excess may rise by one rung. -/
def relaxRail (s : State) (p : Nat) (x : Part) : State :=
  if x.railCeil = 0 ∨ s.now < x.railTime + 10000000 ∨ s.now < x.lastRaise + 1000000 then s
  else
    let top := (partFields x).foldl (fun m f => max m (mapClock s f)) 600
    modPart s p (fun y => { y with railCeil := if top ≤ x.railCeil + 25 then 0 else x.railCeil + 25, lastRaise := s.now })

/-- Partitions with a program loaded. -/
def loadedParts (s : State) : List (Nat × Part) := s.parts.filter (fun e => e.2.prog.isSome)

/-- R360 to R363, R353: one replan. -/
def replan (s : State) : State :=
  let ps := loadedParts s
  let shares := shareOut 16 (ps.map (fun e => (e.1, (partFields e.2).length, freeDraw s e.2))) (computeRemainder s)
  let s : State := ps.foldl (fun s e => planPart s e.1 e.2 (((shares.find? (fun h => h.1 == e.1)).map (·.2)).getD 0)) s
  let s : State := (loadedParts s).foldl (fun s e => relaxRail s e.1 e.2) s
  let s : State := ((loadedParts s).flatMap (fun e => partFields e.2)).foldl startChange s
  let low := decide (((capInForce s * 10 : Nat) : Rat) < floorWatts s)
  let s : State := if low && !s.arb.atFloor then
      emitWords s evCapUnreachable none [w32 (capInForce s + tenWatts (floorWatts s) * 2 ^ 16), w32 0xFFFF, 0, 0] else s
  let outs := allFields.flatMap (fun f => (fieldOf s f).power.kOut.map (fun k => 3 * f + k))
  let s : State := outs.foldl (fun s r =>
    emitCapChange (modField s (r / 3) (fun x => { x with power := { x.power with kOut := [] } })) 4 r (railLimitA s r)) s
  { s with arb := { s.arb with atFloor := low, replans := s.arb.replans + 1, estimate := waferWatts s } }

/-! ### Excess (R364) -/

/-- RAIL_EXCESS at a seam of the field: the partition's ceiling falls by the rungs due, or the step is lost where no lower
point exists. -/
def applyExcess (s : State) (f : Nat) : State :=
  let x := fieldOf s f
  match x.power.excessLost with
  | some rail =>
    let s : State := setField s f { x with power := { x.power with excessLost := none, excessDue := 0 } }
    let s : State := emitWords s evCapUnreachable (partNo s f)
      [w32 (capInForce s + tenWatts (floorWatts s) * 2 ^ 16), w32 (rail + railLimitA s rail * 2 ^ 16), w32 2, 0]
    lostStep s f 0 3 false 0 0xFFFFFF 0 0 4
  | none =>
    if x.power.excessDue = 0 then s
    else
      let s : State := setField s f { x with power := { x.power with excessDue := 0, excessSeen := true } }
      match fieldPart s f with
      | none => s
      | some (p, y) =>
        let cur := if partCeil y = 0 then x.clock else min x.clock (partCeil y)
        let s : State := modPart s p (fun y => { y with railCeil := max 600 (cur - 25 * x.power.excessDue), railTime := s.now })
        (partFields y).foldl startChange s

end Sys2Proof.Machine
end

