-- ==== Sys2Proof/Machine/BenchOps.lean ====
section
/-! DEFINITION. Rows and links (R234 to R236), the end of a Bench test (R217 to R225), and what ends with a field's program or
with a reset of it (R295 step 4, Table 8.6). -/

namespace Sys2Proof.Machine

/-! ### Rows and links -/

/-- R234, R260: a data SRAM row is retired onto the tile's next spare row; none where the tile or the row list has no room. A row that
is listed already fails on its spare row, and a failing spare row counts as used. -/
def retireRow (s : State) (f p row source : Nat) : Option State :=
  let a := pa f p
  let listed := s.hutch.img.rowList.contains (a, row)
  if 8 ≤ (tileRec s a).rows || (!listed && decide (65536 ≤ s.hutch.img.rowList.length)) then none
  else
    let left := 7 - (tileRec s a).rows
    let s : State := modTileRec s a (fun r => { r with rows := r.rows + 1 })
    let s : State := if listed then s else modImg s (fun i => { i with rowList := i.rowList ++ [(a, row)] })
    some (emitQuarantine s 1 0 f source a row left)

/-- Both ends of a link run on the redundant link (R235). -/
def markLink (s : State) (f p edge : Nat) : State :=
  (linkEnds f p edge).foldl (fun s e =>
    modTileRec s (pa e.1 e.2.1) (fun r => { r with links := r.links ||| 2 ^ e.2.2 })) s
def linkUsed (s : State) (f p edge : Nat) : Bool := bitAt (tileRec s (pa f p)).links edge

/-- R236: the link is dead; a running program that has an end of it loses its step. -/
def killLink (s : State) (f p edge source : Nat) : State :=
  if linkDead s f p edge then s
  else
    let s : State := modImg s (fun i => { i with deadLinks := i.deadLinks ++ [(pa f p, edge)] })
    let s : State := emitQuarantine s 2 0 f source (pa f p) edge 0
    ((linkEnds f p edge).map (·.1)).eraseDups.foldl (fun s g =>
      if fieldLoaded s g then lostStep s g 0 3 false 1 0xFFFFFF 0 0 4 else s) s

/-- R235, R236: an edge's link fails: it is switched to its redundant link, or is dead where that is in use. -/
def failLink (s : State) (f p edge source : Nat) : State :=
  if linkUsed s f p edge then killLink s f p edge source
  else emitQuarantine (markLink s f p edge) 2 0 f source (pa f p) edge 0

/-- R238: a warden command slot is retired. -/
def slotsSpare (s : State) (f : Nat) : Nat := 8 - (s.hutch.img.badSlots.filter (fun b => b.1 == f)).length
def retireSlot (s : State) (f k source : Nat) : State :=
  if s.hutch.img.badSlots.contains (f, k) then s
  else
    let s : State := modImg s (fun i => { i with badSlots := i.badSlots ++ [(f, k)] })
    emitQuarantine s 4 0 f source 0 k (slotsSpare s f)

/-- R253: a released row, link or slot is back in service. -/
def bringBack (s : State) (f kind p idx : Nat) : State :=
  let a := pa f p
  if kind = 1 then
    let s : State := modTileRec s a (fun r => { r with rows := r.rows - 1 })
    let s : State := modImg s (fun i => { i with rowList := i.rowList.filter (· != (a, idx)) })
    emitRelease s 1 0 f a idx (8 - (tileRec s a).rows)
  else if kind = 2 then
    let ends := linkEnds f p idx
    let s : State := modImg s (fun i => { i with
      deadLinks := i.deadLinks.filter (fun d => !ends.any (fun e => d == (pa e.1 e.2.1, e.2.2))) })
    let s : State := ends.foldl (fun s e =>
      modTileRec s (pa e.1 e.2.1) (fun r => { r with links := r.links &&& (15 - 2 ^ e.2.2) })) s
    emitRelease s 2 0 f a idx 1
  else
    let s : State := modImg s (fun i => { i with badSlots := i.badSlots.filter (· != (f, idx)) })
    emitRelease s 4 0 f 0 idx (slotsSpare s f)

/-! ### Releasing a tile (R253) -/

/-- The tile is an unassigned spare with SUSPECT set, tested at the priority of a suspect tile. -/
def releaseTile (s : State) (f p : Nat) : State :=
  let a := pa f p
  let reason := (tileRec s a).qreason
  let s : State := modTileRec s a (fun r => { r with quar := false, suspect := true, passes := 0, qreason := 0, routerFault := false })
  let s : State := queueTest s f p 2 0
  emitRelease s 0 reason f a 0 (lendableCount s f)

/-- RELEASE commands that waited for the end of a tile's test (Table 8.6). -/
def releaseTested (s : State) (f p : Nat) : State :=
  let x := fieldOf s f
  let due := x.releaseDue.filter (fun e => e.1 == p)
  let s : State := setField s f { x with releaseDue := x.releaseDue.filter (fun e => e.1 != p) }
  due.foldl (fun s e =>
    let s : State := if (tileRec s (pa f p)).quar then releaseTile s f p else s
    match findCmd s e.2.1 e.2.2 with
    | some c => complete s c stOk [w32 (lendableCount s f)]
    | none => s) s

/-! ### Lent tiles -/

/-- A lent tile returns to the pool; one that QUARANTINE named meanwhile is quarantined now (R252). -/
def returnLent (s : State) (f p : Nat) : State :=
  let x := fieldOf s f
  let s : State := setField s f { x with lent := tdel x.lent p, quarReturn := tdel x.quarReturn p }
  let s : State := if (tfind x.quarReturn p).isSome then markQuarantined s f p ((tfind x.quarReturn p).getD 8) 0 else s
  settleLevel s f false

/-! ### Results of a test -/

/-- Table 8.5: the Bench result word. -/
def benchWord (b : BenchSlot) (code fmaxNew rows links action : Nat) : Dword :=
  BitVec.ofNat 64 (code + b.corner * 2 ^ 4 + b.firstBad * 2 ^ 8 + b.fmaxOld * 2 ^ 12 + fmaxNew * 2 ^ 23 + rows * 2 ^ 34 +
    links * 2 ^ 38 + sat 0xFFFF b.windows * 2 ^ 42 + b.trigger * 2 ^ 58 + action * 2 ^ 61)

/-- R225: the eighth tile with LOWERED within 24 hours raises the field's VCORE setpoint by 5 mV. -/
def noteLowered (s : State) (f p : Nat) : State :=
  let x := fieldOf s f
  let day := x.power.lowered.filter (fun e => e.1 != p && decide (s.cab.opTime ≤ e.2 + 24 * 57600))
  let l := day ++ [(p, s.cab.opTime)]
  let s : State := setField s f { x with power := { x.power with lowered := l } }
  if l.length < 8 then s
  else
    let trim := tget s.hutch.img.trim 0 f
    let mv := x.power.setpoint + 5
    if 30 < trim + 5 ∨ 850 < mv then
      if x.power.trimLimit then s
      else emitPart (modField s f (fun x => { x with power := { x.power with trimLimit := true } })) evTrimLimit (partNo s f) [f, trim, mv]
    else
      let early := match x.power.lastTrim with
        | some t => decide (s.cab.opTime < t + 57600)
        | none => false
      if early then s
      else
        let s : State := modImg s (fun i => { i with trim := tset i.trim f (trim + 5) })
        let s : State := modField s f (fun x => { x with power := { x.power with
          lowered := [], lastTrim := some s.cab.opTime } })
        emitPart (queueVcore s f mv) evTrimRaise (partNo s f) [f, trim + 5, mv]

/-- R218: the rows that SRAM_MARCH found failing are spared one by one; false where one finds no spare row. -/
def spareRows (s : State) (f p : Nat) : List Nat → Nat → State × Nat × Bool
  | [], n => (s, n, true)
  | r :: rest, n =>
    match retireRow s f p r 1 with
    | some t => spareRows t f p rest (n + 1)
    | none => (s, n, false)

/-- R235: an edge's link is switched at once, or, where a field at one of its ends runs a program, at that field's next seam. -/
def failLinkSoon (s : State) (f p edge source : Nat) : State :=
  if (linkEnds f p edge).any (fun e => fieldLoaded s e.1) then
    modField s f (fun x => { x with linksDue := if x.linksDue.any (fun e => e.1 == p && e.2.1 == edge) then x.linksDue else x.linksDue ++ [(p, edge, source)] })
  else failLink s f p edge source

/-- R218: the links that DMA_LOOP found failing; the mask of those spared, and false where one had its redundant link in use. -/
def spareLinks (s : State) (f p : Nat) (edges : List Nat) : State × Nat × Bool :=
  edges.foldl (fun a e =>
    let ok := !linkUsed a.1 f p e
    (failLinkSoon a.1 f p e 1, if ok then a.2.1 + 2 ^ e else a.2.1, a.2.2 && ok)) (s, 0, true)

/-- Table 8.4: what a result does to the tile; `instr` for an instruction SRAM fault (R234). -/
def resultEffect (s : State) (f p code : Nat) (instr : Bool) : State :=
  let a := pa f p
  if code = 0 ∨ code = 2 then
    modTileRec s a (fun r =>
      let n := min 2 (r.passes + 1)
      { r with passes := n, suspect := r.suspect && decide (n < 2),
               fmaxSteps := if code = 2 then r.fmaxSteps - 1 else r.fmaxSteps })
  else if code = 1 then noteLowered (markSuspect s f p) f p
  else if code = 3 then markQuarantined s f p 1 1
  else if code = 4 then markQuarantined s f p 2 1
  else if code = 5 then markQuarantined s f p (if instr then 10 else 3) 1
  else if code = 6 then markQuarantined s f p 4 1
  else if code = 8 then markSuspect s f p
  else s

/-- R277: the finding that a result confirms. -/
def benchFinding (s : State) (a : Nat) (b : BenchSlot) (code : Nat) (word : Dword) (log : Option Nat) (seqNo : Nat) : State :=
  if code = 4 then confirmFinding s 4 5 2 a (detected s (taField a) log) b.syndrome 0 word seqNo
  else if code = 1 ∨ (3 ≤ code ∧ code ≤ 6) then
    if b.trigger = 0 then confirmFinding s 6 6 3 a (detected s (taField a) log) b.syndrome 0 word seqNo
    else if b.trigger = 2 ∨ b.trigger = 3 then
      let c := tget s.hutch.causes { kind := 1, severity := 2, word := 0, seen := detected s (taField a) log } a
      confirmFinding s c.kind 2 c.severity a c.seen c.word 0 word seqNo
    else s
  else s

/-- R217, R218, R220, R224: after the last segment rows and links are spared, and the result takes effect on the tile and on its record,
before any swap-back. -/
def applyResult (s : State) (f slot result : Nat) : State :=
  match tfind (fieldOf s f).bench slot with
  | none => s
  | some b =>
    let p := b.tile
    let a := pa f p
    let rows := spareRows s f p b.rowsBad 0
    let links := spareLinks rows.1 f p b.linksBad
    let code := if 3 ≤ result ∧ result ≤ 4 then result
      else if b.instrBad || !rows.2.2 then 5 else if !links.2.2 then 6 else result
    let s : State := resultEffect links.1 f p code b.instrBad
    let s : State := modTileRec s a (fun r => { r with lastResult := code, lastTest := s.cab.opTime / 57600 % 2 ^ 18 })
    let s : State := { s with sched := { s.sched with lastDone := tset s.sched.lastDone a s.cab.opTime } }
    modField s f (fun x => { x with bench := x.bench.map (fun e =>
      if e.1 = slot then (e.1, { e.2 with result := code, rows := rows.2.1, links := links.2.1, done := true, admitted := false }) else e) })

/-- A guard that has been under test: nothing of the test stays in it. -/
def leaveTest (s : State) (a : Nat) : State :=
  modGuard s a (fun g => { g with
    underTest := false, pin := false, gateShut := false, syndrome := 0, cls := 0, more := 0, digest := 0, symbols := 0, ownFail := false })

/-- R224, R231: the slot is free again; the record of the result, the finding, the follow-up test and the outcome of BENCH_RUN. -/
def reportTest (s : State) (f slot action : Nat) : State :=
  match tfind (fieldOf s f).bench slot with
  | none => s
  | some b =>
    let p := b.tile
    let a := pa f p
    let code := b.result
    let log := if b.inPlace then logOf s a else some (tileAddr f false (placeOfPos (fieldOf s f) b.place))
    let s : State := leaveTest (modField s f (fun x => { x with bench := tdel x.bench slot })) a
    let word := benchWord b code (recordedFmax s a) b.rows b.links action
    let seqNo := nextSeqNo s
    let s : State := if code = 0 ∧ b.rows = 0 ∧ b.links = 0 then s
      else emitPart s evBenchResult (partNo s f) [a, word.toNat, b.syndrome.toNat]
    let s : State := if code = 4 then emitPart s evCheckerFault (partNo s f) [a, b.syndrome.toNat] else s
    let s : State := benchFinding s a b code word log seqNo
    let s : State := gring s a 12 b.pattern 0 word
    let s : State := if code = 1 then queueTest s f p 4 0 else s
    let s : State := b.handles.foldl (fun s h => finishOp s h stOk [w32 code, w32 (recordedFmax s a)]) s
    settleLevel (releaseTested s f p) f false

/-- A kept substitute is a remap (R217, R259). -/
def keepSubstitute (s : State) (f pos tested subst : Nat) : State :=
  let y := fieldOf s f
  let s : State := syncMap s f
  emitWords s evRemap (partNo s f)
    ([w32 (f + 2 * 2 ^ 8 + (genOf s (domField f)).toNat * 2 ^ 11 + bit01 y.epoch * 2 ^ 17),
      w32 (tileAddr f false (placeOfPos y pos)), w32 (pa f tested), w32 (pa f subst), w32 0xFFFFFFFF,
      w32 (pairedAddr s f pos)] ++ w64 s.now)

/-- R217: the substitute stays in place. -/
def substituteKept (s : State) (f : Nat) (b : BenchSlot) : Bool :=
  match b.subst with
  | none => false
  | some u =>
    let clk := (fieldOf s f).clock
    (tileRec s (pa f b.tile)).quar || (decide (recordedFmax s (pa f b.tile) < clk) && decide (clk ≤ recordedFmax s (pa f u)))

/-- Table 8.4, ABORTED: the tile keeps its state, and the test is the first queued test of its field. BENCH_RUN operations stay
with it; those of a tile that is not tested again end with the result. -/
def finishAborted (s : State) (f slot action : Nat) (again : Bool) : State :=
  match tfind (fieldOf s f).bench slot with
  | none => s
  | some b =>
    let a := pa f b.tile
    let s : State := modField s f (fun x => { x with bench := tdel x.bench slot })
    let s : State := leaveTest s a
    let s : State := modTileRec s a (fun r => { r with lastResult := 7, lastTest := s.cab.opTime / 57600 % 2 ^ 18 })
    let word := benchWord b 7 (recordedFmax s a) 0 0 action
    let s : State := emitPart s evBenchResult (partNo s f) [a, word.toNat, b.syndrome.toNat]
    let s : State :=
      if again && (!(tileRec s a).quar || b.trigger == 1) then
        let w : BenchWait := { tile := b.tile, trigger := b.trigger, corner := b.corner, order := 0, handles := b.handles }
        modField s f (fun x => { x with waitTests := w :: x.waitTests })
      else b.handles.foldl (fun s h => finishOp s h stOk [w32 7, w32 (recordedFmax s a)]) s
    settleLevel (releaseTested s f b.tile) f false

/-- Table 8.6: a test ends ABORTED; one that has had its last segment keeps its result. A swapped-out tile goes back to its place without
a copy, unless the substitute is kept (`keep`, for a quarantined tile, or R217). -/
def abortTest (s : State) (f slot : Nat) (keep : Bool) : State :=
  match tfind (fieldOf s f).bench slot with
  | none => s
  | some b =>
    let kept := b.out && (keep || substituteKept s f b)
    let s : State :=
      match b.subst with
      | some u => if !b.out then s else if kept then keepSubstitute s f b.place b.tile u else takePlace s f b.place b.tile
      | none => s
    let action := if b.inPlace then 2 else if kept then 1 else 0
    if b.done && b.result != 7 then reportTest s f slot action else finishAborted s f slot action (!keep)

/-! ### What ends with a program or a reset -/

/-- A guard's step state is cleared; counts of injections and row errors, the ring and the error pin's latched history stay. -/
def clearGuard (g : Guard) : Guard :=
  { injCount := g.injCount, underTest := g.underTest, rowUses := g.rowUses, ring := g.ring }

/-- Spot checks under way, and those of the sampled step, end as superseded (R140), and their spares return. -/
def cancelSpots (s : State) (f : Nat) : State :=
  let x := fieldOf s f
  let n := x.spots.length + x.sampled.length
  let s : State := setField s f { x with
    spots := [], sampled := [], spotOwed := [] }
  let s : State := countField s f (fun c => { c with superseded := sat32 (c.superseded + n) })
  x.spots.foldl (fun s c => returnLent s f c.spare) s

/-- Stream contexts of a field are freed (R182); a DIGEST_COMPARE or DIGEST_DEFINE that waits on one completes with
ST_BAD_PARAM, for the context it names is gone. -/
def freeContexts (s : State) (gone : Context → Bool) : State :=
  let out := s.side.contexts.filter gone
  let waiting := out.flatMap waitingCmds ++ (s.fe.flight.filter (fun c => c.phase == .background && c.opcode == opDigestDefine &&
    out.any (fun k => !k.ready && k.part == c.part && k.num == c.f 3 0 17))).map (fun c => (c.q, c.e))
  let s : State := { s with side := { s.side with contexts := s.side.contexts.filter (fun c => !gone c) } }
  waiting.foldl (fun s qe =>
    match findCmd s qe.1 qe.2 with
    | some c => complete s c stBadParam []
    | none => s) s

/-- Rows, links and slots that waited for the seam are retired, and released ones are back in service (R234, R235, R252, R253); those of
`busy` places, whose tiles replayed at the seam, wait for the next one where a command named them (R99). -/
def settleDueBut (s : State) (f : Nat) (busy : List Nat) : State :=
  let x := fieldOf s f
  let later := fun e : Nat × Nat × Nat => decide (e.2.2 = 0) && busy.contains e.1
  let s : State := setField s f { x with
    rowsDue := x.rowsDue.filter later, linksDue := x.linksDue.filter later, backDue := x.backDue.filter (fun e => busy.contains e.2.1),
    slotsDue := [] }
  let s : State := (x.rowsDue.filter (fun e => !later e)).foldl (fun s e =>
    match retireRow s f e.1 e.2.1 e.2.2 with
    | some t => t
    | none => quarantineWorn s f e.1 3 e.2.2) s
  let s : State := (x.linksDue.filter (fun e => !later e)).foldl (fun s e => failLink s f e.1 e.2.1 e.2.2) s
  let s : State := x.slotsDue.foldl (fun s k => retireSlot s f k 0) s
  (x.backDue.filter (fun e => !busy.contains e.2.1)).foldl (fun s e => bringBack s f e.1 e.2.1 e.2.2) s

/-- What waited for a seam is settled at once, for no seam is due (R234, R235, R252). -/
def settleDue (s : State) (f : Nat) : State := settleDueBut s f []

/-- A claim of QUARANTINE or of a detection that no seam will take any more: the tile is quarantined at once, its place refilled
from the nearest lendable spare or left vacant, and the command completes (R252). Other claims end. -/
def settleClaims (s : State) (f : Nat) : State :=
  let cs := (fieldOf s f).claims.filter (fun c => c.source == 2)
  let s : State := modField s f (fun x => { x with claims := [] })
  cs.foldl (fun s c =>
    let p := c.expected
    let fill : State × Nat × Nat := match servedBy (fieldOf s f) p with
      | none => (markQuarantined s f p c.reason c.source9, stOk, 0xFFFFFF)
      | some pos =>
        match nearest p (lendables s f) with
        | some u => (emitRemap (markQuarantined (takePlace s f pos u) f p c.reason c.source9) f 3 false pos p u, stOk, pa f u)
        | none => (fallVacant (markQuarantined s f p c.reason c.source9) f pos p, stShortfall, 0xFFFFFF)
    let s : State := settleLevel fill.1 f false
    if c.source9 ≠ 0 then s
    else match findCmd s c.q c.e with
      | some d => complete s d fill.2.1 [w32 fill.2.2, w32 (lendableCount s f)]
      | none => s) s

/-- A quarantine that waited for the end of the program takes effect (R234, R241). -/
def settleQuarantine (s : State) (f : Nat) : State :=
  let x := fieldOf s f
  let s : State := setField s f { x with quarUnload := [] }
  x.quarUnload.foldl (fun s e => markQuarantined s f e.1 e.2 3) s

/-- R295 step 4, Table 8.6, R127, R140, R182: what a field was doing ends. -/
def endFieldWork (s : State) (f : Nat) : State :=
  let s : State := cancelSpots s f
  let s : State := ((fieldOf s f).bench.map (·.1)).foldl (fun s k => abortTest s f k false) s
  let s : State := freeContexts s (fun c => c.field == f)
  let s : State := settleClaims (settleQuarantine (settleDue s f) f) f
  let s : State := freezeAtSeam (latchField (endCompute s f true) f) f
  let s : State := dropPins (closeEpisode s f) f
  let s : State := { s with
    groups := s.groups.filter (fun g => !g.fields.contains f),
    guards := s.guards.map (fun e => if taField e.1 == f then (e.1, clearGuard e.2) else e) }
  modField s f (fun x => { x with
    injected := none, injectDue := none, failed := [], taints := [], crossSent := [], droop := false, noReplay := false, reserved := [], arrived := 0,
    lateLatch := false, lostCause := none, window := 0, waitBarrier := false, idleMap := [] })

/-- A program leaves its partition (R294, Table 11.3): no token account, no late setting of a lost program stays. -/
def dropProgram (s : State) (p : Nat) : State :=
  let fs := fieldsOfPart s p
  let s : State := modPart s p (fun x => { x with prog := none, gone := false, slackWarned := [], slackOut := [], idleDuty := 0 })
  modFields s fs (fun x => { x with
    count := 0, seam := 0, token := 0, charge := 0, shed := false, disturbed := false, stepLen := 0, compute := none, computeDue := [] })

/-- R294: a field whose program is lost ends its work at its seam, its exports are discarded and it stays held. -/
def endForGood (s : State) (f : Nat) : State :=
  modField (endFieldWork (discardExports s [f]) f) f (fun x => { x with run := .held, stopped := true })

/-- R127: an injection is armed in its tile guard, or site 0x0 cancels the one armed there. -/
def armInjection (s : State) (f : Nat) : State :=
  let x := fieldOf s f
  match x.injectDue with
  | none => s
  | some (t, site, n) =>
    let s : State := setField s f { x with
      injectDue := none,
      injected := if site ≠ 0 then some (t, site, n) else x.injected.filter (fun i => i.1 != t) }
    if site = 0 then s else gring s t 11 site 0 (BitVec.ofNat 64 n)

/-- Settings of the partition come into force in a field (R125, R141, R175, R420), and what waited for them completes (R81). -/
def applySettings (s : State) (f : Nat) : State :=
  let s : State := modField s f (fun x => { x with therm := { x.therm with bandSet := x.therm.band } })
  match fieldPart s f with
  | none => s
  | some (_, y) =>
    let s : State := modField s f (fun x => { x with
      observe := y.policy % 4, spotN := y.spotN, spareFirst := y.spareFirst, lateOk := y.lateOk, warnPct := y.warnPct,
      maskChanged := x.maskChanged || x.engines != y.engines || x.reasons != y.reasons,
      shed := x.shed && !y.lateOk, engines := y.engines, reasons := y.reasons, sampleExp := y.sampleExp })
    fieldApplied (armInjection s f) f

/-- SPOT_SAMPLE_DRAW (R135, R140, R149, R175): which logical tiles' steps are sampled. -/
def drawSpots (s : State) (f : Nat) : State :=
  let x := fieldOf s f
  if x.spotN = 0 ∨ x.shed = true ∨ x.reduced = true then setField s f { x with sampled := [] }
  else
    let hit := (fieldPlaces x).filter (fun l => x.spotOwed.contains l || decide (Config.spotDraw x.spotSeed x.seam l % 2 ^ x.spotN = 0))
    countField (setField s f { x with sampled := hit, spotOwed := [] }) f (fun c => { c with drawn := sat32 (c.drawn + hit.length) })

/-- The commands that set something for a running partition wait for its fields' seams; with no program they apply at once (R81). -/
def settingWaits (s : State) (p : Nat) : List Nat :=
  match partOf s p with
  | some x => if x.prog.isSome then partFields x else []
  | none => []

/-- R446: the field is in full or reduced service. -/
def inService (x : Field) : Bool := !x.excluded && (x.reduced || x.stage == 7) && !x.zoneDown && !x.tripped

/-- R446: the field meets no command that needs it whole: it is neither in service nor excluded. -/
def notReady (x : Field) : Bool := !x.excluded && !inService x

/-- Results that LEGACY_FMT moves into the output buffer (R102). -/
def completeRes (s : State) (c : Cmd) (st : Nat) (res : List Word) : State :=
  if s.regs.legacy then completeBulk s c st res (legacyBlock res) else complete s c st res

end Sys2Proof.Machine
end

