-- ==== Sys2Proof/Machine/FrontEnd.lean ====
section
/-! DEFINITION. The command front end: fetching (R71 to R73, R86, R87, R486), the acceptance checks (R79, R88 to R90, R102),
ordering (R80 to R84, R100), the firmware path (R98, R487), final outcomes (R85), NOP and FENCE. -/

namespace Sys2Proof.Machine

/-- R483: the aperture and the front end are served. -/
def apServed (s : State) : Bool := clocked s && !s.arb.hubOff

/-! ### Limits of fetching -/

/-- Commands of a tenant in flight. -/
def tenantFlight (s : State) (t : Nat) : Nat := (s.fe.flight.filter (fun c => (slotOf s c.q).owner == t)).length

/-- R86: the tenant may have one more command in flight. -/
def flightRoom (s : State) (t : Nat) : Bool :=
  let n := tenantFlight s t
  let shared := ((List.range 16).map (fun u => tenantFlight s u - 256)).sum
  decide (n < 256) || (decide (n - 256 < 8192) && decide (shared < 12288))

/-- Firmware-path commands of a tenant that wait for the management cores. -/
def fwWaiting (s : State) (t : Nat) : Nat :=
  (s.fe.flight.filter (fun c => (slotOf s c.q).owner == t && opFw c.opcode && (c.phase == .queuedFw || c.phase == .held))).length

/-- R486: the tenant may have one more command waiting for the cores. -/
def fwRoom (s : State) (t : Nat) : Bool :=
  let n := fwWaiting s t
  let shared := ((List.range 16).map (fun u => fwWaiting s u - 32)).sum
  decide (n < 32) || (decide (n - 32 < 256) && decide (shared < 512))

/-- The command may be accepted with a notification to follow (R85). -/
def mayNotify (c : Cmd) : Bool := c.notify && (c.opcode == opBenchRun || c.opcode == opTenantScrub)

/-- Entries of a slot's completion ring that hold completions the host has not consumed. -/
def ringUsed (s : State) (q : Nat) : Nat :=
  let x := slotOf s q
  (x.cqTail + cqDepth x - x.cqHead) % cqDepth x

/-- R73: the completion ring has room for `n` entries more, beside the completions of the commands in flight and the notifications
reserved or still to be reserved by them; one entry stays free to tell full from empty. -/
def ringRoom (s : State) (q n : Nat) : Bool :=
  let x := slotOf s q
  let may := (s.fe.flight.filter (fun c => c.q == q && mayNotify c)).length
  decide (ringUsed s q + inFlight s q + x.reserved + may + n ≤ cqDepth x - 1)

/-- The slot may be fetched from. An entry whose last command is still in flight is not fetched again, since the block knows a command
by its queue and entry (R75, R92; DESIGN CHOICE, log entry 161). -/
def fetchable (s : State) (q : Nat) : Bool :=
  let x := slotOf s q
  x.enable && decide (x.sqHead ≠ x.sqTail) && ringRoom s q (if x.ringBlocked then 2 else 1) && flightRoom s x.owner &&
    !(s.fe.bgQuiesce && decide (x.owner ≠ 0)) && (!x.fwBlocked || fwRoom s x.owner) && (findCmd s q x.sqHead).isNone

/-- The enabled slot of a tenant's queue number. -/
def slotFor (s : State) (t qn : Nat) : Option Nat :=
  (s.fe.slots.find? (fun e => e.2.enable && e.2.owner == t && e.2.qnum == qn)).map (·.1)

/-- The enabled or draining slot that a tenant's doorbell group serves (R478). -/
def doorbellSlot (s : State) (t qn : Nat) : Option Nat :=
  (s.fe.slots.find? (fun e => (e.2.enable || e.2.draining) && e.2.owner == t && e.2.qnum == qn)).map (·.1)

def slotFetchable (s : State) (o : Option Nat) : Option Nat :=
  match o with
  | some q => if fetchable s q then some q else none
  | none => none

/-- R87: the slot whose turn it is: the running turn while it has fewer than 8 commands, else the next tenant's next queue. -/
def fetchTurn (s : State) : Option Nat :=
  let cur := if 0 < s.fe.rrCount ∧ s.fe.rrCount < 8 then
      slotFetchable s (slotFor s s.fe.rrTenant (tget s.fe.rrQueue 0 s.fe.rrTenant)) else none
  match cur with
  | some q => some q
  | none =>
    ((List.range 16).flatMap (fun i =>
      let t := (s.fe.rrTenant + 1 + i) % 16
      (List.range 8).map (fun j => (t, (tget s.fe.rrQueue 0 t + 1 + j) % 8)))).findSome?
      (fun e => slotFetchable s (slotFor s e.1 e.2))

/-! ### The acceptance checks -/

/-- R102: under LEGACY_FMT these complete with ST_BAD_OPCODE. -/
def legacyRefuses (c : Cmd) : Bool :=
  let o := c.opcode
  o == opTimeAlign || o == opBarrierArm || o == opCounterFreeze || o == opExpel ||
    ((o == opMapGrid || o == opSpareStatus || o == opThermalRead) && !outPresent c)

/-- R88: access A by the opcode's parameters (Table 3.7). -/
def needsAdmin (c : Cmd) : Bool :=
  let o := c.opcode
  opAdminOnly o || (o == opMapGrid && c.f 3 0 2 == 1) || (o == opUnmap && c.b 3 0) || (o == opQueryMap && c.b 3 24) ||
    (o == opCheckPolicy && (c.b 3 0 || c.b 3 2 || c.b 3 3)) || (o == opTraceCfg && c.w 5 != 0)

/-- R89: the A+ commands. -/
def needsAuth (c : Cmd) : Bool :=
  let o := c.opcode
  o == opKeyLoad || o == opAlarmAck || o == opLogClear || (o == opReset && (c.f 3 0 3 == 3 || c.f 3 0 3 == 4))

/-- R18, R88: a command of access T acts on the tenant's own partition; tenant 0 must set PRIV for another tenant's. -/
def mayActOn (c : Cmd) (holder : Option Nat) : Bool :=
  match holder with
  | some h => decide (h = c.tenant) || (decide (c.tenant = 0) && c.priv)
  | none => true

/-- The tenant that holds what the command names: none where it names nothing that is held. -/
def namedHolder (s : State) (c : Cmd) : Option Nat :=
  let o := c.opcode
  if opPartTarget.contains o ∨ (o = opReset ∧ c.f 3 0 3 = 2) then (partOf s c.part).map (·.tenant)
  else if o = opReset ∧ c.f 3 0 3 = 1 then
    if c.f 4 0 7 < 84 then some ((fieldTenant s (c.f 4 0 7)).getD 0) else none
  else if o = opBenchResult ∨ o = opSpareStatus then
    match cmdField c with
    | some f => some ((fieldTenant s f).getD 0)
    | none => none
  else none

/-- Check 4 without the authenticator. -/
def privOk (s : State) (c : Cmd) : Bool :=
  !(c.priv && decide (c.tenant ≠ 0)) &&
    (!(needsAdmin c || needsAuth c) || (decide (c.tenant = 0) && c.priv)) && mayActOn c (namedHolder s c)

/-- R89: the counter is fresh and the authenticator is right. -/
def authOk (s : State) (c : Cmd) (key : List Byte) : Bool :=
  decide (s.cab.aCounter < c.w 13) && decide (authenticator key (c.words.take 14) = (c.words.drop 14).take 2)

/-- R79, checks 1 to 3. -/
def checks123 (s : State) (x : QSlot) (c : Cmd) : Option Nat :=
  if c.tenant ≠ x.owner ∨ c.qnum ≠ x.qnum then some stDenied
  else if c.f 0 12 4 ≠ 0 then some stBadParam
  else if !opDefined c.opcode || (s.regs.legacy && legacyRefuses c) then some stBadOpcode
  else if lockInForce s && !opUnderLock c.opcode then some stAlarmLocked
  else none

/-- Check 4 (R88 to R90, R436, R455): the status where it fails, and what an authentication changes; a sealed Armoire has no key. -/
def check4 (s : State) (c : Cmd) : Option Nat × State :=
  if !privOk s c then (some stDenied, s)
  else if !needsAuth c then (none, s)
  else
    match if s.arm.unsealed then s.arm.admin else none with
    | none => (some stDenied, s)
    | some key =>
      if authOk s c key then
        let s : State := { s with cab := { s.cab with aCounter := c.w 13 }, arm := { s.arm with fails := 0 } }
        (none, writeSnapshot s)
      else (some stDenied, authFailed s)

/-- Check 5 (R79). -/
def genOk (s : State) (c : Cmd) : Bool := !c.genCheck || decide (c.genExpect = genOf s c.dom)

/-! ### Ordering -/

/-- A fenced command, or the FENCE opcode (R83). -/
def isFence (c : Cmd) : Bool := c.fenced || c.opcode == opFence

/-- R82, R83, R100: the command need not wait. -/
def mayStart (s : State) (c : Cmd) : Bool :=
  let before := s.fe.flight.filter (fun d => decide (d.seqNo < c.seqNo))
  let own := before.filter (fun d => d.q == c.q)
  let masked := fun d : Cmd =>
    c.opcode == opFence && (slotOf s d.q).owner == (slotOf s c.q).owner && bitAt (c.f 3 0 8) (slotOf s d.q).qnum
  (!c.ordered || !own.any (·.ordered)) && (!isFence c || own.isEmpty) && !own.any isFence && !before.any masked &&
    !domInReset s c.dom

/-- R84: commands of the fence scope that failed. -/
def scopeFailures (s : State) (c : Cmd) : Nat :=
  ((slotOf s c.q).failed.filter (fun n => decide (c.scopeFrom < n) && decide (n < c.seqNo))).length

/-- A command that need not wait any longer: the outcome of its fence scope is judged, check 5 is repeated (R79, R84), and it
starts or is passed to the cores (R91). -/
def startCmd (s : State) (c : Cmd) : State :=
  let fails := scopeFailures s c
  if isFence c && decide (0 < fails) then
    complete s c stFenceAbort (if c.opcode = opFence then [w32 fails] else [])
  else if !genOk s c then complete s c stStaleGen []
  else if opHw c.opcode then hubRequest (modCmd s c.q c.e (fun d => { d with phase := .running })) c
  else modCmd s c.q c.e (fun d => { d with phase := .queuedFw })

/-! ### Meanings -/

/-- COMMAND_FETCH (R71, R73, R79, R86, R87, R486): the front end takes the entry at the submission head of slot `q`. -/
def execCommandFetch (q : Nat) (words : List Word) (s : State) : Result :=
  if words.length ≠ 16 then .fault (.malformed "COMMAND_FETCH")
  else if !(apServed s && s.boot.s1 && fetchTurn s == some q) then
    idle s "no turn, no room or no entry to fetch"
  else
    let x := slotOf s q
    let e := x.sqHead
    let c0 : Cmd := { q := q, e := e, words := words, seqNo := s.fe.nextSeqNo, scopeFrom := x.lastFence, phase := .held }
    let noCores := opFw c0.opcode && !fwRoom s x.owner
    let noRing := mayNotify c0 && !ringRoom s q 2
    if noCores || noRing then
      let s : State := setSlot s q { x with fwBlocked := noCores, ringBlocked := noRing }
      .next { s with fe := { s.fe with rrCount := 8 } }
    else
      let dom := if opQueueTarget.contains c0.opcode then domQueue x.owner x.qnum else cmdDomain c0
      let c : Cmd := { c0 with dom := dom, gen := genOf s dom, aPlus := needsAuth c0 }
      let newTurn := !(decide (0 < s.fe.rrCount) && decide (s.fe.rrCount < 8) && decide (x.owner = s.fe.rrTenant) &&
        decide (x.qnum = tget s.fe.rrQueue 0 s.fe.rrTenant))
      let s : State := setSlot s q { x with
        sqHead := (e + 1) % sqDepth x, fwBlocked := false, ringBlocked := false,
        lastFence := if isFence c then c.seqNo else x.lastFence }
      let s : State := { s with fe := { s.fe with
        flight := s.fe.flight ++ [c], nextSeqNo := s.fe.nextSeqNo + 1,
        rrTenant := x.owner, rrQueue := tset s.fe.rrQueue x.owner x.qnum,
        rrCount := if newTurn then 1 else s.fe.rrCount + 1 } }
      match checks123 s x c with
      | some st => .next (complete s c st [])
      | none =>
        match check4 s c with
        | (some st, s) => .next (complete s c st [])
        | (none, s) =>
          if !genOk s c then .next (complete s c stStaleGen [])
          else if mayStart s c then .next (startCmd s c)
          else .next s

/-- ORDERED_COMMAND_START (R82 to R84, R100). -/
def execOrderedCommandStart (q e : Nat) (s : State) : Result :=
  whenSome s (findCmd s q e) "no such command in flight" fun c =>
    whenOk s (apServed s && c.phase == .held && mayStart s c) "the command is not held, or still waits" (startCmd s c)

/-- R78, R98: what a command names: its partition, or the field that its field index or tile address names. -/
def cmdObject (c : Cmd) : Option Nat :=
  if opPartTarget.contains c.opcode then some c.part
  else if opFieldTarget.contains c.opcode then (cmdField c).map (fun f => 0x100 + f)
  else none

/-- R91, R98, R487: an earlier firmware-path command on the same object has not completed. -/
def objectBusy (s : State) (c : Cmd) : Bool :=
  match cmdObject c with
  | none => false
  | some o => s.fe.flight.any (fun d => decide (d.seqNo < c.seqNo) && opFw d.opcode && cmdObject d == some o)

/-- R487: the command that the next free core takes. -/
def nextForCores (s : State) : Option Cmd :=
  ((List.range 16).map (fun i => (s.fe.fwTenant + 1 + i) % 16)).findSome? (fun t =>
    s.fe.flight.find? (fun c => c.phase == .queuedFw && (slotOf s c.q).owner == t && !objectBusy s c))

/-- FW_COMMAND_DISPATCH (R91, R98, R487): one of the four management cores takes a waiting command. -/
def execFwCommandDispatch (s : State) : Result :=
  whenSome s (nextForCores s) "no command waits for the cores" fun c =>
    whenOk s (apServed s && s.hang.fwUp && decide ((s.fe.flight.filter (fun d => opFw d.opcode && d.phase == .running)).length < 4))
      "hub firmware is down, or all four cores are taken"
      (hubRequest (modCmd { s with fe := { s.fe with fwTenant := (slotOf s c.q).owner } } c.q c.e (fun d => { d with phase := .running })) c)

/-- OPERATION_OUTCOME (R85): the final outcome of an accepted operation is posted as a notification where NOTIFY was set, and
the handle ends. The record of the outcome arrives with the work that ends the operation. -/
def execOperationOutcome (handle : Nat) (s : State) : Result :=
  whenSome s (if apServed s then s.fe.ops.find? (fun o => o.handle == handle && o.final.isSome) else none)
      "no operation with a final outcome" fun o =>
    let s : State := { s with fe := { s.fe with ops := s.fe.ops.filter (fun p => p.handle != handle) } }
    if !o.notify then .next s
    else
      let s : State := modSlot s o.q (fun x => { x with reserved := x.reserved - 1 })
      match o.final with
      | some (st, res) => .next (writeCompletion s o.q o.e o.tag o.dom st o.handle true true res)
      | none => .next s

/-! ### Check 7 -/

/-- Check 7: every parameter bit that the opcode does not use is 0 (R8, R74). `used` gives (word, mask of used bits). The
counter and authenticator words of an A+ command are used. -/
def reservedOk (c : Cmd) (used : List (Nat × Nat)) : Bool :=
  decide (c.f 2 11 21 = 0) && (List.range 13).all (fun i =>
    let mask := tget used 0 (i + 3)
    (c.aPlus && decide (10 ≤ i)) || decide (c.w (i + 3) &&& (0xFFFFFFFF - mask) = 0))

/-- NOP (R93): completes with ST_OK and does nothing else. -/
def execNop (q e : Nat) (s : State) : Result :=
  whenSome s (runCmd s q e opNop) "no running NOP" fun c =>
    .next (complete s c (if reservedOk c [] then stOk else stBadParam) [])

/-- FENCE (R83, R84): every earlier command of its queue and of the masked queues has completed. -/
def execFence (q e : Nat) (s : State) : Result :=
  whenSome s (runCmd s q e opFence) "no running FENCE" fun c =>
    if !reservedOk c [(3, 0xFF)] then .next (complete s c stBadParam [])
    else .next (complete s c stOk [w32 (scopeFailures s c)])

end Sys2Proof.Machine
end

