-- ==== Sys2Proof/Machine/Bench.lean ====
section
/-! DEFINITION. Bench: its commands, the start of tests, windows and segments (R201 to R232). -/

namespace Sys2Proof.Machine

/-! ### Commands -/

/-- BENCH_SCHEDULE (R201, R230, R492). -/
def execBenchSchedule (q e : Nat) (s : State) : Result :=
  whenSome s (runCmd s q e opBenchSchedule) "no running BENCH_SCHEDULE" fun c =>
    let n := c.f 3 8 3
    let p := c.f 4 0 16
    if !reservedOk c [(3, 0x701), (4, 0xFFFF)] || decide (n = 0) || decide (4 < n) ||
        !(decide (p = 0) || (decide (60 ≤ p) && decide (p ≤ 10080))) then .next (complete s c stBadParam [])
    else
      let old := s.sched.setWord
      let s : State := { s with sched := { s.sched with
        enable := c.b 3 0, slots := n, period := if p = 0 then 360 else p, setWord := c.words.getD 3 0 } }
      .next (complete s c stOk [old])

/-- A BENCH_RUN, fetched as number `seq`, joins a test that runs or waits for the tile, or queues one. A waiting test that it joins waits as
a BENCH_RUN from then on (R226; DEDUCED, log entry 159). -/
def attachRun (s : State) (f p corner seq handle : Nat) : State :=
  let x := fieldOf s f
  if x.bench.any (fun e => e.2.tile == p) then
    setField s f { x with bench := x.bench.map (fun e =>
      if e.2.tile == p then (e.1, { e.2 with handles := e.2.handles ++ [handle] }) else e) }
  else if x.waitTests.any (fun w => w.tile == p) then
    setField s f { x with waitTests := x.waitTests.map (fun w =>
      if w.tile == p then { w with handles := w.handles ++ [handle], fetched := some (min seq (w.fetched.getD seq)) } else w) }
  else
    let w : BenchWait := { tile := p, trigger := 1, corner := corner, order := s.sched.order, handles := [handle], fetched := some seq }
    { setField s f { x with waitTests := x.waitTests ++ [w] } with sched := { s.sched with order := s.sched.order + 1 } }

/-- BENCH_RUN (R85, R102, R212, R229, R231, R493). -/
def execBenchRun (q e : Nat) (s : State) : Result :=
  whenSome s (runCmd s q e opBenchRun) "no running BENCH_RUN" fun c =>
    let a := c.f 3 0 24
    let f := taField a
    let x := fieldOf s f
    if !reservedOk c [(3, 0xFFFFFF), (4, 0xF)] || !physicalOk a || decide (3 < c.f 4 0 4) then
      .next (complete s c stBadParam [])
    else if !x.bench.any (fun e => e.2.tile == taPlace a) && decide (4 ≤ x.bench.length) then .next (complete s c stBusy [])
    else if noNotification s c then .next (complete s c stBadOpcode [])
    else
      let h := s.fe.nextHandle
      .next (attachRun (accept s c [a]) f (taPlace a) (c.f 4 0 4) c.seqNo h)

/-- BENCH_RESULT (R232, R240, R493). -/
def execBenchResult (q e : Nat) (s : State) : Result :=
  whenSome s (runCmd s q e opBenchResult) "no running BENCH_RESULT" fun c =>
    let a := c.f 3 0 24
    if !reservedOk c [(3, 0xFFFFFF)] || !physicalOk a then .next (complete s c stBadParam [])
    else
      let r := tileRec s a
      .next (complete s c stOk [w32 r.lastResult, w32 (recordedFmax s a), w32 (r.lastTest * 57600), w32 r.suspectCount])

/-! ### Starting a test -/

/-- The redundancy partner of a place that serves a position. -/
def pairPartner (x : Field) (pos : Nat) : Nat := ownerOf x (if pos / 100 % 2 = 1 then pos - 100 else pos + 100)

/-- R205: the substitute for the tile that serves a position. -/
def substituteFor (s : State) (f pos p : Nat) : Option Nat :=
  let x := fieldOf s f
  let all := unreserved s f
  let paired := pairFor s f p []
  let near := fun u : Nat => !x.redund || decide (pairPartner x pos = unfilled) || decide (hops u (pairPartner x pos) ≤ 2)
  if all.length < 17 then none
  else nearest p (all.filter (fun u => paired != some u && decide (x.clock ≤ recordedFmax s (pa f u)) && near u))

/-- How a test of a place can start now: in place, or with a substitute; none where it must wait (R202, R204, R205). -/
inductive TestStart where
  | inPlace
  | swap (pos subst : Nat)
deriving DecidableEq, Repr

/-- R202, R204: the tile is in service of a loaded program in a field that Bench rotates: it needs a substitute. -/
def needsSubstitute (s : State) (f p : Nat) : Bool :=
  let x := fieldOf s f
  (servedBy x p).isSome && fieldLoaded s f && !x.reduced && decide (fieldOpmode s f ≠ 2)

/-- `asked` for a test that BENCH_RUN asks for, which a quarantined tile may have (R202). -/
def testStart (s : State) (f p : Nat) (asked : Bool) : Option TestStart :=
  let x := fieldOf s f
  if inBench x p || ((tileRec s (pa f p)).quar && !asked) then none
  else
    match servedBy x p with
    | none => if isLent x p || (reservedSpares x).contains p then none else some .inPlace
    | some pos =>
      if !fieldLoaded s f then some .inPlace
      else if needsSubstitute s f p then (substituteFor s f pos p).map (fun u => .swap pos u)
      else none

def askedFor (w : BenchWait) : Bool := w.trigger == 1 || w.fetched.isSome

/-- R226: order of the waiting tests: one that was aborted (Table 8.4), BENCH_RUN's in fetch order, those of suspect tiles, LOWERED
follow-ups. -/
def waitClass (w : BenchWait) : Nat :=
  if w.order = 0 then 0 else if askedFor w then 1 else if w.trigger = 4 then 3 else 2
def waitAge (w : BenchWait) : Nat := if waitClass w = 1 then w.fetched.getD 0 else w.order
def waitOrder (x : Field) : List BenchWait :=
  sortBy (fun a b => decide (waitClass a < waitClass b) || (waitClass a == waitClass b && decide (waitAge a ≤ waitAge b))) x.waitTests

/-- R205: the tile's test is deferred for want of a substitute. -/
def lacksSubstitute (s : State) (f p : Nat) : Bool :=
  !inBench (fieldOf s f) p && !(tileRec s (pa f p)).quar && needsSubstitute s f p && (testStart s f p false).isNone

/-- The first waiting test that can start, and how many before it were deferred for want of a substitute. -/
def firstStart (s : State) (f : Nat) : List BenchWait → Nat → Option (BenchWait × TestStart) × Nat
  | [], n => (none, n)
  | w :: rest, n =>
    match testStart s f w.tile (askedFor w) with
    | some t => (some (w, t), n)
    | none => firstStart s f rest (if lacksSubstitute s f w.tile then n + 1 else n)

/-- R227: a slot starts rotation tests P x S / N apart, N the tiles that are not quarantined; P in units of 1/16 s. -/
def pacedOut (s : State) (f since : Nat) : Bool :=
  let n := 10000 - ((listedPlaces s f).filter (fun p => (tileRec s (pa f p)).quar)).length
  decide (s.sched.period * 960 * s.sched.slots ≤ (s.cab.opTime - since) * n)

/-- Rotation may start a test in the slot now. -/
def rotationDue (s : State) (f slot : Nat) : Bool :=
  s.sched.enable && decide (slot < s.sched.slots) &&
    (match tfind (fieldOf s f).lastStart slot with
     | some t => pacedOut s f t
     | none => true)

/-- The rotation's order: the oldest last test, then the lower place. -/
def rotationAge (s : State) (f p : Nat) : Nat :=
  let r := tileRec s (pa f p)
  (if r.lastResult = 15 then 0 else r.lastTest + 1) * 10000 + p

/-- The rotation's next tile among those that can start, and how many before it are deferred for want of a substitute (R205). -/
def rotationNext (s : State) (f : Nat) : Option (BenchWait × TestStart) × Nat :=
  let ready := physicalPlaces.filter (fun p => (testStart s f p false).isSome)
  let best := ready.foldl (fun (b : Option Nat) p =>
    match b with
    | none => some p
    | some k => if rotationAge s f p < rotationAge s f k then some p else some k) none
  let before := fun p : Nat => match best with | some k => decide (rotationAge s f p < rotationAge s f k) | none => true
  let deferred := (physicalPlaces.filter (fun p => before p && lacksSubstitute s f p)).length
  (best.bind (fun p => (testStart s f p false).map (fun t => ({ tile := p, trigger := 0, corner := 0, order := 0, handles := [] }, t))), deferred)

/-- R211, R222, R223: corner frequency of a test: the recorded Fmax, one step more where that lies below the fused Fmax; a LOWERED
follow-up runs at the new Fmax. -/
def cornerFreq (s : State) (a corner trigger : Nat) : Nat :=
  if corner = 0 ∧ trigger ≠ 4 ∧ recordedFmax s a < fusedFmax s a then recordedFmax s a + 25 else recordedFmax s a

/-- The test takes the slot. -/
def startTest (s : State) (f slot : Nat) (w : BenchWait) (t : TestStart) : State :=
  let a := pa f w.tile
  let b0 : BenchSlot := { tile := w.tile, trigger := w.trigger, corner := w.corner, freq := cornerFreq s a w.corner w.trigger,
                          whole := !fieldLoaded s f,
                          fmaxOld := recordedFmax s a, handles := w.handles }
  let b := match t with
    | .inPlace => b0
    | .swap pos u => { b0 with inPlace := false, subst := some u, place := pos }
  let s : State := modField s f (fun x => { x with
    bench := tset x.bench slot b, waitTests := x.waitTests.filter (fun v => v.tile != w.tile),
    lastStart := if w.trigger = 0 then tset x.lastStart slot s.cab.opTime else x.lastStart })
  let s : State := if b.inPlace then modGuard (leaveTest s a) a (fun g => { g with underTest := true }) else s
  settleLevel s f false

/-- BENCH_SLOT_START (R201 to R205, R226, R227, R230): a waiting test that can start comes before rotation; deferrals are counted also where
no test starts. -/
def execBenchSlotStart (f slot : Nat) (s : State) : Result :=
  if 84 ≤ f ∨ 4 ≤ slot then .fault (.malformed "BENCH_SLOT_START")
  else
    let x := fieldOf s f
    if !(clocked s && inService x && (tfind x.bench slot).isNone && decide (s.hang.quiesce = 0)) then idle s "the slot is taken or the field starts no test"
    else
      let w := firstStart s f (waitOrder x) 0
      let r : Option (BenchWait × TestStart) × Nat := match w.1 with
        | some r => (some r, 0)
        | none => if rotationDue s f slot && !x.reduced then rotationNext s f else (none, 0)
      let s : State := modField s f (fun y => { y with defers := sat32 (y.defers + w.2 + r.2) })
      match r.1 with
      | some t => .next (startTest s f slot t.1 t.2)
      | none => .next s

/-! ### Windows and segments -/

/-- R209: why the stress of a window is not admitted. -/
def refusal (s : State) (f : Nat) : Option Nat :=
  let x := fieldOf s f
  let cur := match x.power.peak with
    | e :: _ => e.2.getD 0 0
    | [] => 0
  if railLimit s (3 * f) < cur + 1 / 2 then some 0
  else if 3 ≤ x.therm.band then some 1
  else if x.droop || x.benchLock then some 2
  else none

/-- Window length in us in which a field's segments run. -/
def windowLen (s : State) (f : Nat) : Nat := ((fieldProg s f).map (·.windowUs)).getD 40

/-- R211, Table 8.1: the corner of a test: supply in per cent of field VCORE, test clock in MHz, and whether the power virus heats. -/
def cornerSupply (corner : Nat) : Nat := if corner ≤ 1 then 95 else 100
def cornerClock (b : BenchSlot) : Nat := if b.corner = 3 then b.freq else b.freq * 11 / 50 * 5
def cornerHeat (corner : Nat) : Bool := corner == 0 || corner == 2

/-- R203, R211, R214, R215: a slot's segment starts: the tile takes its corner, its guard forms the segment's digest, and a CHECKER segment
arms its injection. -/
def startSegment (s : State) (f : Nat) (e : Nat × BenchSlot) : State :=
  let b := e.2
  let a := pa f b.tile
  let s : State := modField s f (fun x => { x with bench := tset x.bench e.1 { b with
    admitted := true, drooped := false, windows := b.windows + 1, site := if b.pattern = 6 then b.nextSite else 0 } })
  let s : State := modGuard s a (fun g => { g with
    digest := 0, symbols := 0, gateShut := false, pin := false, syndrome := 0, cls := 0, more := 0, ownFail := false })
  drive s (.corner a (cornerSupply b.corner) (cornerClock b) (cornerHeat b.corner) b.whole)

/-- TEST_WINDOW_OPEN (R207, R209): each slot with a test to run is admitted or skips the window. -/
def openWindow (s : State) (f : Nat) : State :=
  let r := refusal s f
  let ready := (fieldOf s f).bench.filter (fun e => (e.2.inPlace || e.2.out) && !e.2.done)
  let s : State := modField s f (fun x => { x with
    window := s.now + 1000 * windowLen s f,
    benchSkips := match r with
      | some k => tset x.benchSkips k (tget x.benchSkips 0 k + ready.length)
      | none => x.benchSkips })
  if r.isNone then ready.foldl (fun s e => startSegment s f e) s else s

/-- BENCH_IDLE_WINDOW (R209, R227): an idle field's own window, every 100 us. -/
def execBenchIdleWindow (f : Nat) (s : State) : Result :=
  if 84 ≤ f then .fault (.malformed "BENCH_IDLE_WINDOW")
  else
    let x := fieldOf s f
    whenOk s (clocked s && !fieldLoaded s f && x.stage == 7 && !x.excluded && (x.window == 0 || decide (x.window + 60000 ≤ s.now)))
      "the field runs a program, is not in service, or had a window within 100 us" (openWindow s f)

/-- R213: pattern that runs with so much of the standard test left. -/
def patternAt (left : Nat) : Nat :=
  let done := 810000 - left
  if done < 300000 then 1 else if done < 360000 then 2 else if done < 450000 then 3 else if done < 480000 then 4
  else if done < 600000 then 5 else if done < 630000 then 6 else 7

/-- A test is over: its result takes effect; in place it is reported, swapped out it waits for its swap-back seam (R217). -/
def endTest (s : State) (f slot result : Nat) : State :=
  let s : State := if result = 7 then
      modField s f (fun x => { x with bench := x.bench.map (fun e =>
        if e.1 = slot then (e.1, { e.2 with result := 7, done := true, admitted := false }) else e) })
    else applyResult s f slot result
  match tfind (fieldOf s f).bench slot with
  | none => s
  | some b =>
    if !b.inPlace then s
    else if b.result = 7 then finishAborted s f slot 2 true
    else reportTest s f slot 2

/-- R220, R221: the recorded Fmax becomes the frequency at which the segment passed, never below 0.800 GHz. -/
def recordFmax (s : State) (f p mhz : Nat) : State :=
  let a := pa f p
  modTileRec s a (fun r => { r with fmaxSteps := min (fmaxStepCap s a) ((fusedFmax s a - mhz + 24) / 25) })

def setSlotB (s : State) (f slot : Nat) (b : BenchSlot) : State :=
  modField s f (fun x => { x with bench := tset x.bench slot b })

/-- A segment passed (R219 to R222). -/
def segmentPassed (s : State) (f slot : Nat) (b : BenchSlot) : State :=
  let s : State := if b.failOnce ∧ b.ladder = 0 then modField s f (fun x => { x with benchPassing := x.benchPassing + 1 }) else s
  let down := decide (0 < b.ladder) && decide (b.freq < b.fmaxOld)
  let s : State := if down then recordFmax s f b.tile b.freq else s
  let left := b.left - (windowLen s f - 16)
  let b : BenchSlot := { b with
    failOnce := false, ladder := 0, lowered := b.lowered || down, left := left, pattern := patternAt left, admitted := false }
  let s : State := setSlotB s f slot b
  if left = 0 then
    endTest s f slot (if b.lowered then 1 else if b.corner = 0 ∧ b.fmaxOld < b.freq then 2 else 0)
  else s

/-- A segment failed (R219, R220). -/
def segmentFailed (s : State) (f slot : Nat) (b : BenchSlot) : State :=
  if !b.failOnce ∧ b.ladder = 0 then setSlotB s f slot { b with failOnce := true, admitted := false }
  else
    let b : BenchSlot := { b with firstBad := if b.firstBad = 0 then b.pattern else b.firstBad, admitted := false }
    let s : State := setSlotB s f slot b
    if b.corner ≠ 0 then endTest s f slot 8
    else if b.freq < 825 then endTest s f slot 3
    else setSlotB s f slot { b with ladder := b.ladder + 1, freq := b.freq - 25 }

/-- R214: the segment failed: the digest of its outputs is not the expected one, or the guard raised its pin; SRAM_MARCH fails no test. -/
def segmentBad (s : State) (f : Nat) (b : BenchSlot) (seg : SegmentEnd) : Bool :=
  let g := guardOf s (pa f b.tile)
  b.pattern != 5 && (g.pin || g.digest != seg.expected)

/-- What the segment's end adds to the test (R203, R211, R214, R234). -/
def noteSegment (s : State) (f : Nat) (b : BenchSlot) (seg : SegmentEnd) : BenchSlot :=
  let g := guardOf s (pa f b.tile)
  let rows := if b.pattern = 5 then seg.rows else []
  let links := if b.pattern = 4 && b.whole then seg.links else []
  { b with
    site := 0, instrBad := b.instrBad || (seg.instrBad && decide (b.pattern = 5)),
    syndrome := if b.syndrome = 0 ∧ g.pin = true then g.syndrome else b.syndrome,
    rowsBad := b.rowsBad ++ rows.filter (fun r => !b.rowsBad.contains r),
    linksBad := b.linksBad ++ links.filter (fun l => !b.linksBad.contains l) }

/-- R229: a droop during the window: the segment is discarded; the third within a test aborts it. -/
def droopedSegment (s : State) (f slot : Nat) (b : BenchSlot) : State :=
  let n := b.droops + 1
  let s : State := setSlotB s f slot { b with droops := n, admitted := false, drooped := false, site := 0 }
  if n < 3 then s
  else
    let s : State := emitPart (modField s f (fun x => { x with benchLock := true })) evBenchDroop (partNo s f) [pa f b.tile, b.trigger]
    endTest s f slot 7

/-- R211: the power virus has brought the junction estimate 15 degrees up, at 1.6 degrees per mW. -/
def heatReached (seg : SegmentEnd) : Bool := decide (150 ≤ 16 * seg.virusMw)

/-- BENCH_SEGMENT_END (R203, R211 to R225, R229, R234). -/
def execBenchSegmentEnd (f slot : Nat) (seg : SegmentEnd) (s : State) : Result :=
  if 84 ≤ f ∨ 4 ≤ slot ∨ !(seg.rows.all (· < 1032) && seg.links.all (· < 4)) then .fault (.malformed "BENCH_SEGMENT_END")
  else
    whenSome s (if wardenRuns s f then tfind (fieldOf s f).bench slot else none) "no test in the slot" fun b =>
      if !b.admitted || b.done then idle s "no segment runs in the slot"
      else if b.drooped then .next (droopedSegment s f slot b)
      else
        let s : State := if cornerHeat b.corner && !heatReached seg then modField s f (fun x => { x with benchCold := x.benchCold + 1 }) else s
        let d := noteSegment s f b seg
        if d.miss then .next (endTest (setSlotB s f slot d) f slot 4)
        else if segmentBad s f b seg then .next (segmentFailed s f slot d)
        else .next (segmentPassed s f slot d)

/-- R228: operating time of the tile's last completed test; an ABORTED one completes nothing. -/
def lastCompleted (s : State) (tile : Nat) : Nat :=
  match tfind s.sched.lastDone tile with
  | some t => t
  | none =>
    let r := tileRec s tile
    if r.lastResult = 15 ∨ r.lastResult = 7 then 0 else r.lastTest * 57600

/-- R204, R228: why the tile is overdue: 0 no substitute, 1 deterministic mode, 2 redundancy, 3 reduced service, 4 windows skipped. -/
def overdueCause (s : State) (tile : Nat) : Nat :=
  let f := taField tile
  let x := fieldOf s f
  if x.reduced then 3
  else if (servedBy x (taPlace tile)).isNone || !fieldLoaded s f then 4
  else if fieldOpmode s f = 2 then 1
  else if lacksSubstitute s f (taPlace tile) then (if x.redund then 2 else 0)
  else 4

/-- BENCH_OVERDUE (R228): a tile without a completed test within twice the target period, once per period. -/
def execBenchOverdue (tile : Nat) (s : State) : Result :=
  if !physicalOk tile then .fault (.malformed "BENCH_OVERDUE")
  else
    let period := s.sched.period * 960
    let again := match tfind s.sched.overdue tile with
      | some t => decide (t + period ≤ s.cab.opTime)
      | none => true
    whenOk s (clocked s && !(tileRec s tile).quar && decide (lastCompleted s tile + 2 * period ≤ s.cab.opTime) && again) "the tile is not overdue"
      (emitPart { s with sched := { s.sched with overdue := tset s.sched.overdue tile s.cab.opTime } } evBenchOverdue
        (partNo s (taField tile)) [tile, overdueCause s tile])

/-- BENCH_DROOP_LOCKOUT_END (R229). -/
def execBenchDroopLockoutEnd (f : Nat) (s : State) : Result :=
  whenOk s (decide (f < 84) && clocked s && (fieldOf s f).benchLock) "no lockout" (modField s f (fun x => { x with benchLock := false }))

end Sys2Proof.Machine
end

