-- ==== Sys2Proof/Machine/BootOps.lean ====
section
/-! DEFINITION. Stages of bring-up: the wafer stage (R432), stage reports (R434), exclusions (R433) and the S7 report (R448). -/

namespace Sys2Proof.Machine

/-- 84 field bits as three words. -/
def fieldMask (fs : List Nat) : List Word :=
  let m := ((allFields.filter (fun f => fs.contains f)).map (fun f => 2 ^ f)).sum
  [w32 m, w32 (m / 2 ^ 32), w32 (m / 2 ^ 64)]

/-- R432: the stage at which a field counts. -/
def fieldStage (s : State) (f : Nat) : Nat := if (fieldOf s f).reduced && fieldLoaded s f then 7 else (fieldOf s f).stage

/-- R432: the wafer stage, the lowest among fields that are not excluded; S0 and S1 are the wafer's own. -/
def waferStage (s : State) : Nat :=
  if s.boot.stage ≤ 1 then s.boot.stage
  else
    let fs := allFields.filter (fun f => !(fieldOf s f).excluded)
    fs.foldl (fun m f => min m (fieldStage s f)) 7

/-- STAGE (Table 2.5): bit 7 for a wafer failure. -/
def stageByte (s : State) : Nat := waferStage s + (if s.boot.failed then 128 else 0)

/-- EV_STAGE (Tables 17.2 and 17.4). -/
def emitStage (s : State) (stage : Nat) (failed : Bool) (wave cause ms : Nat) (done excl : List Nat) (content : List Word) : State :=
  emitWords s evStage none
    ([w32 (stage + bit01 failed * 2 ^ 3 + bit01 s.boot.first * 2 ^ 4 + wave * 2 ^ 8 + cause * 2 ^ 16), w32 ms] ++ w64 s.now ++
      fieldMask done ++ fieldMask excl ++ [0, 0] ++ content)

/-- Table 17.4: stage content of S1. -/
def contentS1 (s : State) : List Word :=
  let slots := ((List.range 15).map (fun i => if (tfind s.arm.tenantKeys (i + 1)).isSome then 2 ^ (i + 1) else 0)).sum
  let key := match s.arm.identity with | some k => Config.publicKey k | none => (0, 0)
  let words := fun n : Nat => (List.range 8).map (fun i => w32 (n / 2 ^ (32 * i)))
  [w32 (s.mfg.fwVersion + bit01 s.arm.unsealed * 2 ^ 24 + bit01 s.arm.admin.isSome * 2 ^ 25), w32 slots, w32 s.nor.golden.length] ++
    (s.boot.image ++ List.replicate 8 0).take 8 ++ words key.1 ++ words key.2 ++ [w32 s.svc.cert.length] ++ wordsOfBytes s.svc.cert

/-- R432: the stage in progress, of the wafer or of the running wave. -/
def stageRunning (s : State) : Nat := if s.boot.stage < 4 then s.boot.stage else s.boot.waveStage
/-- Table 17.1: the limit of a stage in ns. -/
def stageLimitNs (n : Nat) : Nat := [2, 5, 10, 20, 60, 20, 2].getD n 0 * 1000000000
/-- R431: the limit of the stage in progress has passed. -/
def stageOverdue (s : State) : Bool := decide (s.boot.limitFrom + stageLimitNs (stageRunning s) < s.now)

/-- R450: a hub restart in S2 to S6 repeats the stage, or the wave, in progress from its start; its report gives the full duration. -/
def repeatStage (s : State) : State :=
  let b := s.boot
  if b.failed ∨ b.stage < 2 ∨ b.reported ∨ (4 ≤ b.stage ∧ b.inWave = []) then s
  else if b.stage < 4 then { s with boot := { b with limitFrom := s.now } }
  else
    { modFields s b.inWave (fun x => { x with stage := b.waveFirst }) with
      boot := { b with waveStage := b.waveFirst, started := b.waveFrom, limitFrom := s.now } }

/-- Milliseconds since the stage in progress started. -/
def stageMs (s : State) : Nat := (s.now - s.boot.started) / 1000000

/-- REDUCED (Table 2.6, R447): a field is in reduced service. -/
def setReducedBit (s : State) : State := setBitTo s tsReduced (s.fields.any (fun e => e.2.reduced))

/-- R433: a field is out of service; its compute islands stay gated. -/
def excludeField (s : State) (f stage cause : Nat) : State :=
  modField s f (fun x => { x with
    excluded := true, exclStage := stage, exclCause := cause, reduced := false, deferred := false, run := .gated })

/-- Several fields leave bring-up; they wait for no wave any more. -/
def excludeFields (s : State) (fs : List Nat) (stage cause : Nat) : State :=
  let s : State := fs.foldl (fun s f => excludeField s f stage cause) s
  setReducedBit { s with boot := { s.boot with
    inWave := s.boot.inWave.filter (fun f => !fs.contains f),
    pendingFields := s.boot.pendingFields.filter (fun f => !fs.contains f),
    joining := s.boot.joining.filter (fun f => !fs.contains f),
    redo := s.boot.redo.filter (fun e => !fs.contains e.1) } }

/-- R448: once the wafer stage reaches S7 the snapshot is written, the S7 report is committed and READY is set. -/
def settleBoot (s : State) : State :=
  if s.boot.reported || s.boot.failed || decide (s.boot.stage < 4) || decide (waferStage s ≠ 7) then s
  else
    let full := allFields.filter (fun f => !(fieldOf s f).excluded && !(fieldOf s f).reduced)
    let red := allFields.filter (fun f => (fieldOf s f).reduced)
    let s : State := { writeSnapshot s with boot := { s.boot with reported := true, stage := 7 } }
    let s : State := emitStage s 7 false 0xFF 0 (stageMs s) full [] (fieldMask full ++ fieldMask red ++ [w32 (s.now / 1000000)])
    raiseBit s tsReady

end Sys2Proof.Machine
end

