-- ==== Sys2Proof/Machine/MapCmd.lean ====
section
/-! DEFINITION. MAP_GRID, UNMAP and QUERY_MAP (R94, R95, R133, R142 to R151, R172, R173, R208, R242 to R246, R256, R491). -/

namespace Sys2Proof.Machine

/-! ### Seam tables (R94, R172, R173, R208) -/

/-- Table 3.11. -/
def seamOf (d : Dword) : Seam :=
  let n := d.toNat
  { pos := bitsOf n 0 40, margin := bitsOf n 40 16, token := bitAt n 56, window := bitAt n 57, cross := bitAt n 58 }

/-- Lengths of the steps: differences of positions, from program start. -/
def stepLens : Nat → List Seam → List Nat
  | _, [] => []
  | p, s :: r => (s.pos - p) :: stepLens s.pos r

/-- R94: the first position is 1 to 4,000 cycles after program start, and positions rise by at most 4,000. -/
def positionsOk : Nat → List Seam → Bool
  | _, [] => true
  | p, s :: r => decide (p < s.pos) && decide (s.pos ≤ p + 4000) && positionsOk s.pos r

/-- R172: budget and longest step of each token, the seams after the last TOKEN seam forming a final one. -/
def tokens : Nat → Nat → Nat → List Seam → List (Nat × Nat)
  | start, prev, longest, [] => if start = prev then [] else [(prev - start, longest)]
  | start, prev, longest, s :: r =>
    let l := max longest (s.pos - prev)
    if s.token then (s.pos - start, l) :: tokens s.pos s.pos 0 r else tokens start s.pos l r

/-- R173: the replay slack in force, and the reserve of every token. -/
def slackOf (s : Nat) : Nat := if s = 0 then 30 else s
def slackOk (s : Nat) (l : List Seam) : Bool :=
  (decide (s = 0) || (decide (10 ≤ s) && decide (s ≤ 500))) &&
    (tokens 0 0 0 l).all (fun t => decide (2 * t.2 + 6600 ≤ t.1 * slackOf s / 1000))

/-- R208: no run of `period` consecutive seams is without a test window, counted from the seams since the last one. -/
def windowRun (period : Nat) : Nat → List Seam → Bool
  | _, [] => true
  | n, s :: r => if s.window then windowRun period 0 r else decide (n + 1 < period) && windowRun period (n + 1) r
/-- R208: consecutive windows lie at least the window length apart. -/
def windowApart (len : Nat) : Option Nat → List Seam → Bool
  | _, [] => true
  | last, s :: r =>
    if s.window then (match last with | some p => decide (p + len ≤ s.pos) | none => true) && windowApart len (some s.pos) r
    else windowApart len last r
def windowUs (n : Nat) : Nat := if n = 0 then 40 else n
def windowPeriod (n : Nat) : Nat := if n = 0 then 64 else n
def windowsOk (us period : Nat) (l : List Seam) : Bool :=
  (decide (us = 0) || (decide (20 ≤ us) && decide (us ≤ 1000))) &&
    (decide (period = 0) || (decide (16 ≤ period) && decide (period ≤ 4096))) &&
    l.any (·.window) && windowRun (windowPeriod period) 0 l && windowApart (windowUs us * 1000) none l

/-- R94: the directory names every field of the partition once and no other, and every table meets the rules. -/
def directoryOk (fs : List Nat) (slack us period : Nat) (dir : List DirEntry) : Bool :=
  fs.all (fun f => dir.any (fun d => d.field == f)) && decide (dir.length = fs.length) &&
    dir.all (fun d =>
      let l := d.entries.map seamOf
      fs.contains d.field && decide (d.reserved = 0) && !l.isEmpty && d.entries.all (fun e => decide (e.toNat / 2 ^ 59 = 0)) &&
        positionsOk 0 l && slackOk slack l && windowsOk us period l)

/-! ### MAP_GRID -/

/-- Logical tiles a field presents under a redundancy state (R142). -/
def gridTiles (red : Bool) : Nat := if red then 4608 else 9216

/-- R150, R243: the layout of a field for a LOAD: without borrowing where that fills it; else, where borrowing is allowed, with
the smallest borrowing that fills it, or with all of it. -/
def loadLayout (s : State) (f opmode : Nat) (borrow : Bool) : FieldMap :=
  let red := wantRedund s f
  let clk := layoutClock s f opmode red
  let plain := layoutAt s f clk red 0 0
  if plain.missing.isEmpty || !borrow then plain
  else
    match borrowFor s f clk red with
    | some (k, b) => layoutAt s f clk red k b
    | none => layoutAt s f clk red (if red then 64 else 0) 12

/-- The field with the most missing tiles, the lowest on ties (R256). -/
def worstField (ms : List (Nat × FieldMap)) : Nat :=
  (ms.foldl (fun (best : Option (Nat × Nat)) e =>
    match best with
    | none => some (e.1, e.2.missing.length)
    | some (f, n) => if n < e.2.missing.length then some (e.1, e.2.missing.length) else some (f, n)) none).map (·.1) |>.getD 0

/-- What a LOAD sets in each field: program start is position 0, the first step begins and its tiles are sampled (R135, R408). -/
def startField (s : State) (f seed : Nat) : State :=
  let s : State := modField s f (fun x => { x with
    run := .running, seam := 0, count := 0, token := 0, charge := 0, tokenStart := 0, shed := false, disturbed := false,
    arrived := 0, failed := [], taints := [], droop := false, noReplay := false, reserved := [], spotSeed := seed,
    spotOwed := [], sampled := [], stopped := false, releaseTs := s.now, cnt := {}, window := 0, crossSent := [], cycLive := [], cycStart := [],
    cycStop := [], cycLatch := [], frozen := none, cut := 0, frozenSeen := false, compute := none, computeDue := [] })
  let s : State := if ((fieldPart s f).bind (·.2.barrier)).isSome then
    modField s f (fun x => { x with run := .held, atStart := true, waitBarrier := true }) else s
  let s : State := { s with guards := s.guards.map (fun e => if taField e.1 == f then (e.1, clearGuard e.2) else e) }
  drawSpots (applySettings s f) f

/-- R419: the counters of a partition's tiles are cleared. -/
def clearCounters (s : State) (fs : List Nat) : State :=
  { s with tiles := s.tiles.filter (fun e => !fs.contains (taField e.1)) }

/-- R456, R321: the last-tenant marks of fields, with a snapshot where one changes. -/
def setMarks (s : State) (fs : List Nat) (t : Nat) : State :=
  let m := fs.foldl (fun m f => if t = 0 then tdel m f else tset m f t) s.cab.marks
  if m = s.cab.marks then s else writeSnapshot { s with cab := { s.cab with marks := m } }

/-- The program is loaded on the partition. -/
def loadProgram (s : State) (c : Cmd) (p : Nat) (x : Part) (dir : List DirEntry) : State :=
  let fs := partFields x
  let g : Program := {
    id := c.words.getD 9 0, slack := slackOf (c.f 7 0 10), windowUs := windowUs (c.f 7 16 10), period := windowPeriod (c.f 8 0 16),
    seams := dir.foldl (fun t d => tset t d.field (d.entries.map seamOf)) [] }
  let s : State := setMarks s fs x.tenant
  let s : State := modPart s p (fun y => { y with
    prog := some g, opmodeRun := x.opmode, programStart := s.now, slackWarned := [], slackOut := [] })
  let s : State := clearCounters s fs
  fs.foldl (fun s f =>
    let det := decide (x.opmode = 2)
    let seed := if det then (c.words.getD 9 0).toNat else Config.freeNat s.free
    startField (if det then s else advFree s) f seed) s

/-- MAP_GRID LOAD (R94, R150, R173, R208, R243 to R246, R256, R446). -/
def execMapGridLoad (q e : Nat) (dir : List DirEntry) (s : State) : Result :=
  whenSome s (runCmd s q e opMapGrid) "no running MAP_GRID" fun c =>
    if c.f 3 0 2 = 1 then idle s "the command is a DEFINE"
    else
      let okWords := reservedOk c [(3, 7), (4, 0xFFFFFFFF), (5, 0xFFFFFFFF), (6, 0x7F), (7, 0x03FF03FF), (8, 0xFFFF),
        (9, 0xFFFFFFFF), (11, 0xFFFFFFFF), (12, 0xFFFFFFFF), (13, 0xFFFFFFFF)]
      match partOf s c.part with
      | none => .next (complete s c stBadParam [])
      | some x =>
        let fs := partFields x
        if !okWords || decide (c.f 3 0 2 ≠ 0) || !(decide (1 ≤ c.f 6 0 7) && decide (c.f 6 0 7 ≤ 84)) ||
            (s.regs.legacy && !outDescOk c) then .next (complete s c stBadParam [])
        else if dir.length ≠ c.f 6 0 7 then .fault (.malformed "MAP_GRID_LOAD")
        else if !directoryOk fs (c.f 7 0 10) (c.f 7 16 10) (c.f 8 0 16) dir then .next (complete s c stBadParam [])
        else if x.prog.isSome || x.heldAll || (decide (x.opmode ≠ 0) && fs.any (fun f => (fieldOf s f).reduced)) ||
            fs.any (fun f => notReady (fieldOf s f) || (fieldOf s f).therm.shut.isSome) then
          .next (complete s c stBusy [])
        else if fs.any (fun f => (fieldOf s f).excluded) then .next (completeRes s c stShortfall [])
        else
          let borrow := c.b 3 2 && bitAt x.policy 2
          let ms := fs.map (fun f => (f, loadLayout s f x.opmode borrow))
          let s : State := fs.foldl (fun s f => modField s f (fun y => { y with run := .idle })) s
          let s : State := ms.foldl (fun s m => installLayout s m.1 m.2 (wantRedund s m.1)) s
          let missing := (ms.map (fun m => m.2.missing.length)).sum
          let total := (fs.map (fun f => gridTiles (wantRedund s f))).sum
          let borrowed := (ms.map (fun m => m.2.shadows + m.2.reserve)).sum
          if missing ≠ 0 then
            .next (completeRes s c stShortfall [w32 (total - missing), w32 missing, w32 (worstField ms)])
          else
            let s : State := (ms.filter (fun m => decide (0 < m.2.shadows + m.2.reserve))).foldl (fun s m =>
              emitPart s evBorrow (some c.part) [m.1, m.2.shadows, m.2.reserve]) s
            let s : State := settleBoot (loadProgram s c c.part x dir)
            .next (completeRes s c (if borrowed = 0 then stOk else stDegraded)
              [w32 total, 0, w32 (worstField ms + borrowed * 2 ^ 16)])

/-- MAP_GRID DEFINE (R17, R95, R238, R420, R446, R456). -/
def execMapGridDefine (q e : Nat) (s : State) : Result :=
  whenSome s (runCmd s q e opMapGrid) "no running MAP_GRID" fun c =>
    if c.f 3 0 2 ≠ 1 then idle s "the command is no DEFINE"
    else
      let okWords := reservedOk c [(3, 7), (4, 0x000F77FF), (11, 0xFFFFFFFF), (12, 0xFFFFFFFF), (13, 0xFFFFFFFF)]
      let x : Part := { tenant := c.f 4 16 4, colLo := c.f 4 0 4, colHi := c.f 4 4 4, rowLo := c.f 4 8 3, rowHi := c.f 4 12 3 }
      let fs := partFields x
      if !okWords || decide (11 < x.colHi) || decide (x.colHi < x.colLo) || decide (6 < x.rowHi) ||
          decide (x.rowHi < x.rowLo) || (s.regs.legacy && !outDescOk c) then .next (complete s c stBadParam [])
      else if fs.any (fun f => (fieldPart s f).isSome || !(tget s.cab.marks 0 f == 0 || tget s.cab.marks 0 f == x.tenant)) then
        .next (complete s c stDenied [])
      else if (partOf s c.part).isSome then .next (complete s c stBadParam [])
      else if fs.any (fun f => (fieldOf s f).excluded ||
          decide (24 < (s.hutch.img.badSlots.filter (fun b => b.1 == f)).length)) then .next (complete s c stShortfall [])
      else if fs.any (fun f => notReady (fieldOf s f)) then .next (complete s c stBusy [])
      else
        let s : State := setMarks (setPart s c.part x) fs x.tenant
        let s : State := fs.foldl applySettings s
        .next (completeRes s c stOk [])

/-! ### UNMAP -/

/-- The last field has stopped: the program leaves the partition, its fields are laid out anew and the command completes (R81,
R149, R182, R229, R245, R447). -/
def finishUnload (s : State) (p : Nat) : State :=
  match partOf s p with
  | none => s
  | some x =>
    let fs := partFields x
    let s : State := fs.foldl endFieldWork s
    let s : State := dropProgram s p
    let s : State := modPart s p (fun y => { y with heldAll := false, unloading := none })
    let s : State := modFields s fs (fun y => { y with run := .idle, stopped := false, quiet := false })
    let s : State := fs.foldl applySettings s
    let late := fs.filter (fun f => (fieldOf s f).deferred)
    let s : State := modFields s late (fun y => { y with deferred := false })
    let s : State := { s with boot := { s.boot with joining := s.boot.joining ++ late } }
    let s : State := fs.foldl (fun s f => layOut s f x.opmodeRun) s
    match x.unloading with
    | none => s
    | some (q, e) =>
      match findCmd s q e with
      | some c => complete s c stOk [w32 fs.length]
      | none => s

/-- A field stands where an UNMAP may stop it: no step runs and no action of its seam is under way. -/
def standsStill (s : State) (f : Nat) : Bool :=
  let x := fieldOf s f
  x.run != .running && !s.groups.any (fun g => g.fields.contains f) && !x.waitBarrier

/-- A field is stopped for the UNMAP of its partition; the last one ends it. -/
def stopField (s : State) (p f : Nat) : State :=
  let s : State := modField s f (fun x => { x with stopped := true, run := .held })
  if (fieldsOfPart s p).all (fun g => (fieldOf s g).stopped) then finishUnload s p else s

/-- UNMAP, unload (R22, R81, R294): each field stops at its next seam, one that stands held at once; fields that a FIELD reset has left
held without a program are released at once. -/
def execUnmapUnload (q e : Nat) (s : State) : Result :=
  whenSome s (runCmd s q e opUnmap) "no running UNMAP" fun c =>
    if c.b 3 0 then idle s "the command is a dissolve"
    else
      match partOf s c.part with
      | none => .next (complete s c stBadParam [])
      | some x =>
        if !reservedOk c [(3, 1)] then .next (complete s c stBadParam [])
        else
          if x.prog.isNone then
            if x.heldAll then .next (finishUnload (modPart s c.part (fun y => { y with unloading := some (q, e) })) c.part)
            else .next (complete s c stOk [0])
          else
            let s : State := background s c
            let s : State := modPart s c.part (fun y => { y with unloading := some (q, e) })
            let still := (partFields x).filter (fun f => standsStill s f && (x.heldAll || (fieldOf s f).run == .gated))
            let s : State := modFields s still (fun y => { y with stopped := true })
            .next (if still.length = (partFields x).length then finishUnload s c.part else s)

/-- UNMAP, dissolve (R95): the partition ends; its fields are idle. -/
def execUnmapDissolve (q e : Nat) (s : State) : Result :=
  whenSome s (runCmd s q e opUnmap) "no running UNMAP" fun c =>
    if !c.b 3 0 then idle s "the command is an unload"
    else
      match partOf s c.part with
      | none => .next (complete s c stBadParam [])
      | some x =>
        if !reservedOk c [(3, 1)] then .next (complete s c stBadParam [])
        else if x.prog.isSome then .next (complete s c stBusy [])
        else
          let fs := partFields x
          let s : State := fs.foldl endFieldWork s
          let s : State := { s with parts := tdel s.parts c.part }
          let s : State := modFields s fs (fun y => { y with run := .idle, stopped := false })
          let s : State := fs.foldl (fun s f => layOut s f 0) s
          .next (complete s c stOk [w32 fs.length])

/-! ### QUERY_MAP -/

/-- Table 3.9: state of a physical place. -/
def mapState (s : State) (f p : Nat) : Nat :=
  let x := fieldOf s f
  let r := tileRec s (pa f p)
  if x.bench.any (fun e => e.2.tile == p) then 4
  else if r.quar then 2
  else
    match servedBy x p with
    | some pos => if x.redund && decide (pos / 100 % 2 = 1) then 4 else if r.suspect then 1 else 0
    | none => if isLent x p then 4 else 3

/-- The other position of a pair. -/
def partnerPos (pos : Nat) : Nat := if pos / 100 % 2 = 1 then pos - 100 else pos + 100

/-- Physical address serving a position, 0xFFFFFF where none does. -/
def ownerAddr (x : Field) (f pos : Nat) : Nat := if ownerOf x pos = unfilled then 0xFFFFFF else pa f (ownerOf x pos)

/-- QUERY_MAP (R134, R151, R491, R493). -/
def execQueryMap (q e : Nat) (s : State) : Result :=
  whenSome s (runCmd s q e opQueryMap) "no running QUERY_MAP" fun c =>
    match partOf s c.part with
    | none => .next (complete s c stBadParam [])
    | some y =>
      let a := c.f 3 0 24
      let f := taField a
      let x := fieldOf s f
      let pl := taPlace a
      let red := bit01 (y.redund || x.redund) * 2 ^ 24
      if !reservedOk c [(3, 0x1FFFFFF)] || !partHas y f then .next (complete s c stBadParam [])
      else if c.b 3 24 then
        if !physicalOk a then .next (complete s c stBadParam [])
        else
          let st := mapState s f pl + recordedFmax s a * 2 ^ 4
          match servedBy x pl with
          | some pos =>
            let partner := if x.redund then ownerAddr x f (partnerPos pos) else 0xFFFFFF
            .next (complete s c stOk [w32 (tileAddr f false (placeOfPos x pos) + 2 ^ 24), w32 (pairedAddr s f pos), w32 st,
              w32 (bit01 x.epoch), w32 (partner + red)])
          | none => .next (complete s c stOk [w32 0xFFFFFF, w32 0xFFFFFF, w32 st, w32 (bit01 x.epoch), w32 (0xFFFFFF + red)])
      else if !logicalOk a || (x.redund && decide (48 ≤ taY a)) then .next (complete s c stBadParam [])
      else
        let pos := posOf x pl
        let p := ownerOf x pos
        if p = unfilled then
          .next (complete s c stOk [w32 0xFFFFFF, w32 0xFFFFFF, w32 5, w32 (bit01 x.epoch), w32 (0xFFFFFF + red)])
        else
          let partner := if x.redund then ownerAddr x f (shadowPos pl) else 0xFFFFFF
          .next (complete s c stOk [w32 (pa f p + 2 ^ 24), w32 (pairedAddr s f pos),
            w32 (mapState s f p + recordedFmax s (pa f p) * 2 ^ 4), w32 (bit01 x.epoch), w32 (partner + red)])

end Sys2Proof.Machine
end

