-- ==== Sys2Proof/Machine/Policy.lean ====
section
/-! DEFINITION. CHECK_POLICY, SPOT_RATE, REDUNDANCY and REPLAY_POLICY (R81, R125, R127, R141, R146, R149, R175, R492). -/

namespace Sys2Proof.Machine

/-- A setting is recorded for the partition and comes into force at each field's next seam, at once with no program loaded; the
command completes when the last field has applied it (R81). -/
def applySetting (s : State) (c : Cmd) (p st : Nat) (res : List Word) : State :=
  let waits := settingWaits s p
  if waits.isEmpty then complete ((fieldsOfPart s p).foldl applySettings s) c st res
  else applyAt s c waits st res

/-- R127: the physical tile that an injection names: none for an address of no tile of the partition, or of a tile that serves
no coordinate. -/
def injectionTile (s : State) (y : Part) (a : Nat) : Option Nat :=
  let x := fieldOf s (taField a)
  if !partHas y (taField a) then none
  else if taPhys a then
    if physicalOk a && (servedBy x (taPlace a)).isSome then some a else none
  else if logicalOk a && !(x.redund && decide (48 ≤ taY a)) then
    let p := physOf s a
    if p = 0xFFFFFF then none else some p
  else none

/-- CHECK_POLICY (R125, R127). Tenants 1-15 set BF16_TOL_OFF alone; the other bits stay as last set. -/
def execCheckPolicy (q e : Nat) (s : State) : Result :=
  whenSome s (runCmd s q e opCheckPolicy) "no running CHECK_POLICY" fun c =>
    match partOf s c.part with
    | none => .next (complete s c stBadParam [])
    | some y =>
      let w := c.f 3 0 4
      let inject := bitAt w 3
      let site := c.f 4 24 4
      let count := c.f 4 28 4
      let tile := injectionTile s y (c.f 4 0 24)
      let f := taField (c.f 4 0 24)
      let policy := if c.tenant = 0 then w else (y.policy &&& 5) ||| (w &&& 2)
      if !reservedOk c [(3, 0xF), (4, 0xFFFFFFFF)] ||
          (inject && (tile.isNone || decide (8 ≤ site) || (decide (count = 0) && decide (site ≠ 0)))) then
        .next (complete s c stBadParam [])
      else if inject && decide (site ≠ 0) && ((fieldOf s f).injected.isSome || (fieldOf s f).injectDue.isSome) then
        .next (complete s c stBusy [])
      else
        let s : State := setPart s c.part { y with policy := policy }
        let s : State :=
          match tile with
          | some t => if inject then modField s f (fun x => { x with injectDue := some (t, site, count) }) else s
          | none => s
        .next (applySetting s c c.part stOk [w32 y.policy])

/-- SPOT_RATE (R141). -/
def execSpotRate (q e : Nat) (s : State) : Result :=
  whenSome s (runCmd s q e opSpotRate) "no running SPOT_RATE" fun c =>
    match partOf s c.part with
    | none => .next (complete s c stBadParam [])
    | some y =>
      if !reservedOk c [(3, 0x1F)] || decide (12 < c.f 3 0 5) then .next (complete s c stBadParam [])
      else
        let caps := (partFields y).map (fun f => lendingCap s f)
        let cap := caps.foldl min 10000
        if cap = 0 then .next (complete s c stShortfall [w32 y.spotN, 0])
        else
          let s : State := setPart s c.part { y with spotN := c.f 3 0 5 }
          .next (applySetting s c c.part stOk [w32 y.spotN, w32 cap])

/-- REDUNDANCY (R142, R146, R149). -/
def execRedundancy (q e : Nat) (s : State) : Result :=
  whenSome s (runCmd s q e opRedundancy) "no running REDUNDANCY" fun c =>
    match partOf s c.part with
    | none => .next (complete s c stBadParam [])
    | some y =>
      let on := c.b 3 0
      let fs := partFields y
      if !reservedOk c [(3, 1)] then .next (complete s c stBadParam [])
      else if y.prog.isSome then .next (complete s c stBusy [])
      else if on && fs.any (fun f => (borrowFor s f (layoutClock s f y.opmode true) true).isNone) then
        .next (complete s c stShortfall [w32 ((fs.map (fun f => gridTiles (wantRedund s f))).sum)])
      else
        let s : State := setPart s c.part { y with redund := on }
        let s : State := fs.foldl (fun s f => modField s f (fun x => { x with redund := on || x.reduced })) s
        .next (complete s c stOk [w32 ((fs.map (fun f => gridTiles (wantRedund s f))).sum)])

/-- REPLAY_POLICY word 3 as last set. -/
def replayWord3 (y : Part) : Nat := bit01 y.spareFirst + bit01 y.lateOk * 2 + y.warnPct * 2 ^ 8

/-- REPLAY_POLICY (R166, R175). -/
def execReplayPolicy (q e : Nat) (s : State) : Result :=
  whenSome s (runCmd s q e opReplayPolicy) "no running REPLAY_POLICY" fun c =>
    match partOf s c.part with
    | none => .next (complete s c stBadParam [])
    | some y =>
      let pct := c.f 3 8 8
      if !reservedOk c [(3, 0xFF03)] || decide (pct = 0) || decide (100 < pct) then .next (complete s c stBadParam [])
      else
        let s : State := setPart s c.part { y with spareFirst := c.b 3 0, lateOk := c.b 3 1, warnPct := pct }
        .next (applySetting s c c.part stOk [w32 (replayWord3 y)])

end Sys2Proof.Machine
end

