-- ==== Sys2Proof/Machine/Counters.lean ====
section
/-! DEFINITION. COUNTER_LATCH, COUNTER_FREEZE, TRACE_CFG and the boundaries of compute commands (R413, R420 to R426). -/

namespace Sys2Proof.Machine

/-- The fields that a COUNTER_LATCH names. -/
def latchFields (s : State) (c : Cmd) : List Nat := if c.b 3 0 then [c.f 3 8 7] else fieldsOfPart s c.part

/-- COUNTER_LATCH (R76, R423): the fields latch at their next seam; one that is frozen, or runs no program, at once. -/
def execCounterLatch (q e : Nat) (s : State) : Result :=
  whenSome s (runCmd s q e opCounterLatch) "no running COUNTER_LATCH" fun c =>
    match partOf s c.part with
    | none => .next (complete s c stBadParam [])
    | some y =>
      let fs := latchFields s c
      if !reservedOk c [(3, 0x7F01), (11, 0xFFFFFFFF), (12, 0xFFFFFFFF), (13, 0xFFFFFFFF)] || !outDescOk c || !fs.all (partHas y) then
        .next (complete s c stBadParam [])
      else
        let s : State := modFields (background s c) fs (fun x => { x with latchWait := x.latchWait ++ [(q, e)] })
        .next (fs.foldl latchIdle s)

/-- LATCH_OUTPUT_DONE (R76, R423, R424): every named field has latched and the output is in host memory; what waited for the fields'
output latches at their next seam, or at once. -/
def execLatchOutputDone (q e : Nat) (s : State) : Result :=
  whenSome s ((findCmd s q e).filter (fun c => clocked s && c.phase == .background && c.opcode == opCounterLatch)) "no latch is being written" fun c =>
    let fs := latchFields s c
    if !fs.all (fun f => (fieldOf s f).latchOut == some (q, e)) then idle s "a field has not latched"
    else
      let out := fs.flatMap (latchOutput s c.tenant)
      let ts := match fs with | f :: _ => (fieldOf s f).latchTs | [] => 0
      let s : State := modFields s fs (fun x => { x with latchOut := none, latchHead := [], latchProfiles := [] })
      let s : State := completeBulk s c stOk (w64 ts ++ [w32 (4 * out.length)]) out
      .next (fs.foldl latchIdle s)

/-- The first local nanosecond at or after an aligned time (R406), or a local time where the partition has no tree. -/
def triggerTime (s : State) (y : Part) (t : Nat) : Int :=
  match y.tree with
  | some r => (toLocal s r t).ceil
  | none => (t : Int)

/-- COUNTER_FREEZE (R425): at the trigger, or at each field's next seam for a trigger of 0; a field that runs no program acts at once. -/
def execCounterFreeze (q e : Nat) (s : State) : Result :=
  whenSome s (runCmd s q e opCounterFreeze) "no running COUNTER_FREEZE" fun c =>
    match partOf s c.part with
    | none => .next (complete s c stBadParam [])
    | some y =>
      let freeze := c.b 3 0
      let trig := c.w 4 + c.w 5 * 2 ^ 32
      let at_ := triggerTime s y trig
      let fs := partFields y
      if !reservedOk c [(3, 1), (4, 0xFFFFFFFF), (5, 0xFFFFFFFF)] || (decide (trig ≠ 0) && decide ((s.now : Int) + 1000000000 < at_)) then
        .next (complete s c stBadParam [])
      else if y.freeze.isSome then .next (complete s c stBusy [])
      else if (if freeze then partFrozen s c.part else fs.all (fun f => !fieldFrozen s f)) then
        let t := match fs with | f :: _ => (fieldOf s f).frozen.getD s.now | [] => s.now
        .next (complete s c stOk (w64 t))
      else
        let z : FreezePend := {
          freeze := freeze, late := decide (trig ≠ 0) && decide (at_ < (s.now : Int)), left := if trig = 0 then fs else [], trigger := trig,
          local_ := at_, q := q, e := e }
        let s : State := setPart (background s c) c.part { y with freeze := some z }
        .next ((fs.filter (fun f => !fieldLoaded s f)).foldl freezeAtSeam s)

/-- FREEZE_TRIGGER (R425, R426): the converted time has come; every guard acts now, the field clocks' first edge. `cuts` is what the guards
of the fields in a step have counted of it. -/
def execFreezeTrigger (p : Nat) (cuts : List FreezeCut) (s : State) : Result :=
  if !cuts.all (fun c => c.taps.all (tapOk (fieldOf s c.f))) then .fault (.malformed "FREEZE_TRIGGER")
  else
    whenSome s ((partOf s p).bind (·.freeze)) "no freeze is pending" fun z =>
      whenOk s (clocked s && decide (z.trigger ≠ 0) && decide (z.local_ ≤ (s.now : Int))) "the trigger time has not come"
        (let cut := fun f : Nat => (cuts.find? (fun c => c.f == f)).getD { f := f, cycles := (fieldOf s f).cut, taps := [] }
         let lateNs := ((s.now : Int) - z.local_).toNat
         let s : State := (fieldsOfPart s p).foldl (fun t f =>
           latchIdle (actFreeze (countToEdge t f (cut f).cycles (cut f).taps) f z.freeze t.now) f) s
         finishFreeze s p z s.now lateNs)

/-- TRACE_CFG (R420, R492). -/
def execTraceCfg (q e : Nat) (s : State) : Result :=
  whenSome s (runCmd s q e opTraceCfg) "no running TRACE_CFG" fun c =>
    match partOf s c.part with
    | none => .next (complete s c stBadParam [])
    | some y =>
      let x := c.f 5 0 16
      if !reservedOk c [(3, 0xF), (4, 0xFF), (5, 0xFFFF)] || !(decide (x = 0) || (decide (8 ≤ x) && decide (x ≤ 16))) then
        .next (complete s c stBadParam [])
      else
        let s : State := setPart s c.part { y with
          engines := c.f 3 0 4, reasons := c.f 4 0 8, sampleExp := if x = 0 then y.sampleExp else x }
        .next (applySetting s c c.part stOk [w32 y.engines])

/-- COMPUTE_CMD_BOUNDARY (R413, R421): the host interface reports the seams at which a compute command starts and ends on a field; its
banks are copied when the field comes to them. -/
def execComputeCmdBoundary (f : Nat) (c : ComputeCmd) (s : State) : Result :=
  if 84 ≤ f then .fault (.malformed "COMPUTE_CMD_BOUNDARY")
  else
    let x := fieldOf s f
    let here := x.run == .held && !x.atStart && decide (c.startSeam = x.seam) && x.compute.isNone
    whenOk s (clocked s && fieldLoaded s f && decide (c.startSeam < c.endSeam) && decide (c.endSeam < (fieldSeams s f).length) &&
        (here || decide (x.seam < c.startSeam) || (decide (x.seam = c.startSeam) && x.run == .running)))
      "the field runs no program, or the seams are past"
      (let s : State := modField s f (fun x => { x with computeDue := x.computeDue ++ [c] })
       if here then startCompute s f else s)

end Sys2Proof.Machine
end

