-- ==== Sys2Proof/Machine/DigestOps.lean ====
section
/-! DEFINITION. The polynomial digests modulo 2^61 - 1 (R130, R180). -/

namespace Sys2Proof.Machine

/-- 2^61 - 1. -/
def digMod : Nat := 2 ^ 61 - 1

/-- R180: the weight key K. -/
def weightKey : Nat := 0x05A3C96E1B47D2F

/-- `b ^ n` modulo 2^61 - 1, over at most `fuel` bits of `n`. -/
def powModFuel : Nat → Nat → Nat → Nat
  | 0, _, _ => 1
  | k + 1, b, n =>
    if n = 0 then 1
    else powModFuel k (b * b % digMod) (n / 2) * (if n % 2 = 1 then b else 1) % digMod
def powMod (b n : Nat) : Nat := powModFuel 64 b n

/-- R130: symbols are folded behind `st` = (digest, symbols so far): the i-th symbol adds (s + 1) x k^(i+1). -/
def foldSyms (k : Nat) (st : Nat × Nat) (syms : List Word) : Nat × Nat :=
  syms.foldl (fun a w => ((a.1 + (w.toNat + 1) * powMod k (a.2 + 1)) % digMod, a.2 + 1)) st

/-- The digest of a stream of symbols alone. -/
def digestOf (k : Nat) (syms : List Word) : Nat := (foldSyms k (0, 0) syms).1

end Sys2Proof.Machine
end

