-- ==== Sys2Proof/Machine/Residue.lean ====
section
/-! DEFINITION. The guard's verdict over one contraction: decoding (R107), residues (R108 to R113), classes (R114), rounding and
parity (R115, R116), the bfloat16 tolerance (R118 to R120), injections (R127, Table 4.8) and the syndrome word (Table 4.4).
A dyadic number is a pair (m, e) for m x 2^e. -/

namespace Sys2Proof.Machine

/-! ### Dyadic numbers and roundings -/

/-- Number of bits of a natural number. -/
def bitLen (n : Nat) : Nat := if n = 0 then 0 else n.log2 + 1

/-- `m` divided by 2^sh, rounded in a mode, for a negative or a positive number of magnitude `m`; and whether it was inexact. -/
def roundShift (mode : RMode) (neg : Bool) (m sh : Nat) : Nat × Bool :=
  let q := m >>> sh
  let r := m % 2 ^ sh
  let up := match mode with
    | .nearestEven => decide (2 ^ sh < 2 * r) || (decide (2 * r = 2 ^ sh) && decide (q % 2 = 1))
    | .towardZero => false
    | .up => decide (r ≠ 0) && !neg
    | .down => decide (r ≠ 0) && neg
  (if up then q + 1 else q, decide (r ≠ 0))

/-- Sum of two dyadic numbers. -/
def dyAdd (a b : Int × Int) : Int × Int :=
  let e := min a.2 b.2
  (a.1 * 2 ^ (a.2 - e).toNat + b.1 * 2 ^ (b.2 - e).toNat, e)
def dyMul (a b : Int × Int) : Int × Int := (a.1 * b.1, a.2 + b.2)
def dyNeg (a : Int × Int) : Int × Int := (-a.1, a.2)
/-- `a` is below `b`. -/
def dyLt (a b : Int × Int) : Bool := decide ((dyAdd a (dyNeg b)).1 < 0)

/-! ### Operand decoding (R107, Table 4.1) -/

/-- Format code without the MX bit, and the MX bit. -/
def fmtBase (c : Nat) : Nat := c % 8
def fmtMx (c : Nat) : Bool := decide (8 ≤ c)

/-- Exponent bits, mantissa bits and the constant of q = E - c of a floating-point format. -/
def fmtShape (b : Nat) : Nat × Nat × Nat :=
  if b = 0 then (4, 3, 10) else if b = 1 then (5, 2, 17) else if b = 2 then (3, 2, 5) else if b = 3 then (2, 3, 4)
  else if b = 4 then (2, 1, 2) else if b = 6 then (5, 10, 25) else (8, 7, 134)

/-- Column f of Table 4.1. -/
def fmtF (b : Nat) : Nat := if b = 5 ∨ b = 7 then 0 else (fmtShape b).2.2 - 1
/-- Column w of Table 4.1. -/
def fmtW (b : Nat) : Nat :=
  if b = 0 then 18 else if b = 1 then 32 else if b = 2 then 9 else if b = 3 then 6 else if b = 4 then 4 else if b = 5 then 8
  else if b = 6 then 40 else 0

/-- R103: the codes pair. -/
def fmtsOk (a b : Nat) : Bool :=
  let legal := fun c : Nat => decide (c < 13) && (fmtMx c || !(fmtBase c == 2 || fmtBase c == 3 || fmtBase c == 4))
  legal a && legal b &&
    ((decide (fmtBase a ≤ 4) && decide (fmtBase b ≤ 4)) || (a == b && (a == 5 || a == 6 || a == 7)))

/-- Class of an operand, of a product or of an output (R114). -/
inductive FClass where
  | finite | nan | posInf | negInf
deriving DecidableEq, Repr

/-- A decoded operand: class, significand, exponent, scale term, and whether its block scale is 0xFF. -/
structure Dec where
  cls : FClass := .finite
  m : Int := 0
  q : Int := 0
  sc : Int := 0
  bad : Bool := false
deriving DecidableEq, Repr

/-- Non-finite class of a floating-point encoding with exponent field `E` and mantissa `M` (Table 4.1, last column). -/
def fmtClass (b E M : Nat) (neg : Bool) : FClass :=
  let inf := if neg then FClass.negInf else FClass.posInf
  if b = 0 then (if E = 15 ∧ M = 7 then .nan else .finite)
  else if b = 1 ∨ b = 6 then (if E = 31 then (if M = 0 then inf else .nan) else .finite)
  else if b = 7 then (if E = 255 then (if M = 0 then inf else .nan) else .finite)
  else .finite

/-- R107 to R109: one operand. -/
def decodeOpnd (fmt : Nat) (o : Opnd) : Dec :=
  let b := fmtBase fmt
  let mx := fmtMx fmt
  let sc : Int := if mx then (o.scale : Int) - 127 else 0
  if mx ∧ o.scale = 255 then { cls := .nan, bad := true }
  else if b = 5 then { m := signedOf 8 o.bits, sc := sc }
  else
    let sh := fmtShape b
    let M := bitsOf o.bits 0 sh.2.1
    let E := bitsOf o.bits sh.2.1 sh.1
    let neg := bitAt o.bits (sh.1 + sh.2.1)
    let m : Int := if E = 0 then M else (2 ^ sh.2.1 + M : Nat)
    let q : Int := (if E = 0 then 1 else (E : Int)) - (sh.2.2 : Int)
    match fmtClass b E M neg with
    | .finite => { m := if neg then -m else m, q := q, sc := sc }
    | c => { cls := c, m := if neg then -1 else 1, sc := sc }

/-! ### Residues (R110 to R113) -/

/-- The prime 2^13 - 1. -/
def resMod : Nat := 8191

/-- R110: rotation of a residue by k mod 13 places, as a multiplication by a power of two. -/
def rotRes (m : Int) (k : Int) : Nat := ((m % resMod).toNat * 2 ^ (k % 13).toNat) % resMod

/-- R112: sum of the 13-bit chunks of a natural number below 2^(13 n), with end-around carry. -/
def foldChunks : Nat → Nat → Nat
  | 0, _ => 0
  | n + 1, v => (v % 2 ^ 13 + foldChunks n (v / 2 ^ 13)) % resMod

/-- R112: residue of an accumulator of width `W`: the folded bits, less 2^(W mod 13) when the sign bit is set. -/
def accRes (W raw : Nat) : Nat :=
  let v := raw % 2 ^ W
  (foldChunks (W / 13 + 1) v + resMod - (if bitAt v (W - 1) then 2 ^ (W % 13) else 0)) % resMod

def sumMod (l : List Nat) : Nat := l.foldl (fun a b => (a + b) % resMod) 0

/-- R113: exponent t of a syndrome 2^t or 8191 - 2^t. -/
def powTwoExp (s : Nat) : Option Nat := (List.range 13).find? (fun t => s == 2 ^ t || s == resMod - 2 ^ t)

/-! ### The contraction, decoded -/

/-- R103, R108, R112: block rows and columns, accumulator width. -/
def blkRows (b : Nat) : Nat := if b = 6 ∨ b = 7 then 4 else 8
def blkCols (b : Nat) : Nat := if b = 6 ∨ b = 7 then 8 else 16
def accWidth (b : Nat) : Nat := if b = 6 then 112 else 96

/-- One contraction with its operands decoded, per reduction index. -/
structure Contr where
  rows : Nat
  cols : Nat
  W : Nat
  fmtA : Nat
  fmtB : Nat
  base : Int
  steps : List (List Dec × List Dec)
deriving DecidableEq, Repr

def decodeContr (c : Contraction) : Contr :=
  let b := fmtBase c.fmtA
  { rows := blkRows b, cols := blkCols b, W := accWidth b, fmtA := c.fmtA, fmtB := c.fmtB,
    base := if fmtMx c.fmtA || fmtMx c.fmtB then c.base else 0,
    steps := c.steps.map (fun k => (k.1.map (decodeOpnd c.fmtA), k.2.map (decodeOpnd c.fmtB))) }

/-- R103: what the taps present fits the block of the formats. -/
def contractionOk (c : Contraction) : Bool :=
  let b := fmtBase c.fmtA
  let grid := fun l : List (List Nat) => decide (l.length = blkRows b) && l.all (fun r => decide (r.length = blkCols b))
  fmtsOk c.fmtA c.fmtB && decide (c.steps.length ≤ 65536) &&
    c.steps.all (fun k => decide (k.1.length = blkRows b) && decide (k.2.length = blkCols b)) && grid c.acc && grid c.outs &&
    (match c.load with
     | some (v, _) => decide (v.length = blkRows b) && v.all (fun r => decide (r.length = blkCols b))
     | none => true)

def exactFmt (d : Contr) : Bool := fmtBase d.fmtA != 7
def scaleF (d : Contr) : Int := ((fmtF (fmtBase d.fmtA) + fmtF (fmtBase d.fmtB) : Nat) : Int)
/-- A non-finite operand makes a special contraction (R109, R114). -/
def isSpecial (d : Contr) : Bool := d.steps.any (fun k => k.1.any (·.cls != .finite) || k.2.any (·.cls != .finite))

/-- R108, R109, R398: the contraction fails the window check. -/
def windowFails (d : Contr) (c : Contraction) (exactMode : Bool) : Bool :=
  let span : Int := (d.W : Int) - 17 - ((fmtW (fmtBase d.fmtA) + fmtW (fmtBase d.fmtB) : Nat) : Int)
  let mx := fmtMx d.fmtA || fmtMx d.fmtB
  let out := d.steps.any (fun k => k.1.any (fun a => !a.bad && k.2.any (fun b =>
    !b.bad && (decide (a.sc + b.sc < d.base) || decide (d.base + span < a.sc + b.sc)))))
  let load := match c.load with
    | some (_, b) => !exactMode || decide (b ≠ d.base)
    | none => false
  (exactFmt d && mx && out) || load || (c.exactExport && !exactMode)

/-- The residues that an exact load adds (R398). -/
def loadRes (d : Contr) (c : Contraction) (i j : Nat) : Nat :=
  match c.load with
  | some (v, _) => accRes d.W (twos d.W ((v.getD i []).getD j 0))
  | none => 0

/-- R110, R111: predicted residues by row and by column. -/
def predictRes (d : Contr) (c : Contraction) : List Nat × List Nat :=
  let fa : Int := ((fmtF (fmtBase d.fmtA) : Nat) : Int)
  let fb : Int := ((fmtF (fmtBase d.fmtB) : Nat) : Int)
  let row0 := (List.range d.rows).map (fun i => sumMod ((List.range d.cols).map (fun j => loadRes d c i j)))
  let col0 := (List.range d.cols).map (fun j => sumMod ((List.range d.rows).map (fun i => loadRes d c i j)))
  d.steps.foldl (fun p k =>
    let sa := k.1.map (fun a => rotRes a.m (a.q + fa + a.sc))
    let sb := k.2.map (fun b => rotRes b.m (b.q + fb + b.sc - d.base))
    (List.zipWith (fun r a => (r + a * sumMod sb) % resMod) p.1 sa,
     List.zipWith (fun r b => (r + sumMod sa * b) % resMod) p.2 sb)) (row0, col0)

/-- R112: observed residues of the drained accumulators. -/
def observedRes (d : Contr) (acc : List (List Nat)) : List Nat × List Nat :=
  let rs := acc.map (fun r => r.map (accRes d.W))
  (rs.map sumMod, (List.range d.cols).map (fun j => sumMod (rs.map (fun r => r.getD j 0))))

/-! ### Failures of one class -/

/-- The failing rows and columns, the place and the SYNDROME of Table 4.4. -/
structure Fail where
  rows : List Nat := []
  cols : List Nat := []
  row : Nat := 0
  col : Nat := 0
  syn : Nat := 0
  synCol : Bool := false
deriving DecidableEq, Repr

/-- R113. -/
def residueFail (p o : List Nat × List Nat) : Option Fail :=
  let syn := fun (a b : List Nat) => List.zipWith (fun x y => (x + resMod - y) % resMod) a b
  let r := syn o.1 p.1
  let c := syn o.2 p.2
  let rows := (List.range r.length).filter (fun i => r.getD i 0 != 0)
  let cols := (List.range c.length).filter (fun i => c.getD i 0 != 0)
  match rows, cols with
  | [], [] => none
  | [], j :: _ => some { rows := [], cols := cols, row := 0, col := j, syn := c.getD j 0, synCol := true }
  | i :: _, cs => some { rows := rows, cols := cs, row := i, col := cs.headD 0, syn := r.getD i 0 }

/-- The first failing output in row-major order, with every failing output of the class. -/
def outputFail (l : List (Nat × Nat × Nat)) : Option Fail :=
  match l with
  | [] => none
  | (i, j, s) :: _ =>
    some { rows := (l.map (·.1)).eraseDups, cols := (l.map (fun e => e.2.1)).eraseDups, row := i, col := j, syn := s }

/-! ### Classes (R114) -/

def prodClass (a b : Dec) : FClass :=
  if a.cls = .nan ∨ b.cls = .nan then .nan
  else if a.cls = .finite ∧ b.cls = .finite then .finite
  else if a.m = 0 ∨ b.m = 0 then .nan
  else if (a.m < 0) ↔ (b.m < 0) then .posInf else .negInf

/-- The class that operand classes predict for output (i, j). -/
def predictClass (d : Contr) (i j : Nat) : FClass :=
  let cs := d.steps.map (fun k => prodClass (k.1.getD i {}) (k.2.getD j {}))
  if cs.contains .nan || (cs.contains .posInf && cs.contains .negInf) then .nan
  else if cs.contains .posInf then .posInf else if cs.contains .negInf then .negInf else .finite

/-! ### Rounded outputs (R115) -/

/-- Fields of an output in FP32 or binary16. -/
structure OutVal where
  cls : FClass
  sign : Nat
  exp : Nat
  sig : Nat
deriving DecidableEq, Repr

def outShape (half : Bool) : Nat × Nat := if half then (5, 10) else (8, 23)

/-- The fields of an output's bits; the significand carries its leading bit. -/
def outFields (half : Bool) (bits : Nat) : OutVal :=
  let s := outShape half
  let M := bitsOf bits 0 s.2
  let E := bitsOf bits s.2 s.1
  let neg := bitAt bits (s.1 + s.2)
  let cls := if E = 2 ^ s.1 - 1 then (if M = 0 then (if neg then FClass.negInf else .posInf) else .nan) else .finite
  { cls := cls, sign := bit01 neg, exp := E, sig := if E = 0 ∨ cls ≠ .finite then M else 2 ^ s.2 + M }

/-- R115: a dyadic number rounded to the output format. An accumulator of exactly 0 rounds to the positive zero in every mode (the
spec is silent on its sign; DESIGN CHOICE, log entry 153). -/
def roundOut (half : Bool) (mode : RMode) (v : Int × Int) : OutVal :=
  if v.1 = 0 then { cls := .finite, sign := 0, exp := 0, sig := 0 }
  else
    let s := outShape half
    let bias : Int := 2 ^ (s.1 - 1) - 1
    let neg := decide (v.1 < 0)
    let m := v.1.natAbs
    let top : Int := (bitLen m : Int) - 1 + v.2
    let lsb := max (top - (s.2 : Int)) (1 - bias - (s.2 : Int))
    let q := if lsb ≤ v.2 then m * 2 ^ (v.2 - lsb).toNat else (roundShift mode neg m (lsb - v.2).toNat).1
    let bits := ((lsb + (s.2 : Int) + bias - 1) * (2 ^ s.2 : Nat)).toNat + q
    let inf := (2 ^ s.1 - 1) * 2 ^ s.2
    let sat := match mode with
      | .nearestEven => inf
      | .towardZero => inf - 1
      | .up => if neg then inf - 1 else inf
      | .down => if neg then inf else inf - 1
    outFields half ((if inf ≤ bits then sat else bits) + bit01 neg * 2 ^ (s.1 + s.2))

/-- Value of an accumulator: its position 0 weighs 2^(B - F). -/
def accValue (d : Contr) (raw : Nat) : Int × Int := (signedOf d.W raw, d.base - scaleF d)

/-! ### The magnitude shadow (R116) -/

/-- Half an ulp of a number with an 11-bit significand; 0 for 0, which has no ulp. -/
def halfUlp (v : Int × Int) : Int × Int :=
  if v.1 = 0 then (0, 0) else (1, v.2 + (bitLen v.1.natAbs : Int) - 12)

/-- A sum rounded to nearest even to 11 bits, and half an ulp of it where the rounding was inexact. -/
def shadowRound (v : Int × Int) : (Int × Int) × (Int × Int) :=
  let m := v.1.natAbs
  let sh := bitLen m - 11
  let r := roundShift .nearestEven false m sh
  let out : Int × Int := (if v.1 < 0 then -(r.1 : Int) else (r.1 : Int), v.2 + (sh : Int))
  (out, if r.2 then halfUlp out else (0, 0))

/-- The bound, kept rounded upward to 11 bits. -/
def boundRound (v : Int × Int) : Int × Int :=
  let m := v.1.natAbs
  let sh := bitLen m - 11
  (((roundShift .up false m sh).1 : Int), v.2 + (sh : Int))

/-- R116, R398: the sum s and the bound e at the contraction's end. An exact load starts e at half an ulp of s, whether or not its
rounding was exact. e is rounded upward after each addition (DEDUCED, log entry 154). -/
def shadowOf (d : Contr) (c : Contraction) (i j : Nat) : (Int × Int) × (Int × Int) :=
  let start := match c.load with
    | some (v, _) =>
      let s := (shadowRound ((v.getD i []).getD j 0, d.base - scaleF d)).1
      (s, halfUlp s)
    | none => ((0, 0), (0, 0))
  d.steps.foldl (fun st k =>
    let a := k.1.getD i {}
    let b := k.2.getD j {}
    let p := shadowRound (a.m * b.m, a.q + b.q + a.sc + b.sc)
    let s := shadowRound (dyAdd st.1 p.1)
    (s.1, boundRound (dyAdd (boundRound (dyAdd st.2 p.2)) s.2))) start

/-- The sign and exponent that every value in the bound rounds to, where the shadow is decisive. -/
def shadowDecides (half : Bool) (mode : RMode) (sh : (Int × Int) × (Int × Int)) : Option (Nat × Nat) :=
  let lo := roundOut half mode (dyAdd sh.1 (dyNeg sh.2))
  let hi := roundOut half mode (dyAdd sh.1 sh.2)
  if lo.sign = hi.sign ∧ lo.exp = hi.exp then some (lo.sign, lo.exp) else none

/-- Parity of sign and exponent. -/
def parityOf (sign exp : Nat) : Nat := ((List.range 8).foldl (fun n b => n + bit01 (bitAt exp b)) sign) % 2

/-! ### Binary32 arithmetic of the tolerance check (R118) -/

/-- A result of the checksum arithmetic: a finite binary32 value, one that has overflowed to an infinity by rounding, or one that a
non-finite operand or output has entered. -/
inductive F32 where
  | fin (v : Int × Int)
  | over
  | nonFinite
deriving DecidableEq, Repr

def F32.isOver : F32 → Bool
  | .over => true
  | _ => false

/-- One result rounded to binary32, to nearest even or upward. -/
def f32Round (up : Bool) (v : Int × Int) : F32 :=
  if v.1 = 0 then .fin (0, 0)
  else
    let m := v.1.natAbs
    let lsb := max ((bitLen m : Int) - 1 + v.2 - 23) (-149)
    let r : Nat × Int := if lsb ≤ v.2 then (m, v.2)
      else ((roundShift (if up then .up else .nearestEven) (decide (v.1 < 0)) m (lsb - v.2).toNat).1, lsb)
    if 128 < (bitLen r.1 : Int) + r.2 then .over else .fin (if v.1 < 0 then (-(r.1 : Int), r.2) else ((r.1 : Int), r.2))

def f32Op (up : Bool) (op : Int × Int → Int × Int → Int × Int) (a b : F32) : F32 :=
  match a, b with
  | .fin x, .fin y => f32Round up (op x y)
  | .nonFinite, _ => .nonFinite
  | _, .nonFinite => .nonFinite
  | _, _ => .over
def f32Add (up : Bool) (a b : F32) : F32 := f32Op up dyAdd a b
def f32Mul (up : Bool) (a b : F32) : F32 := f32Op up dyMul a b
/-- Sum in the order of the list. -/
def f32Sum (up : Bool) (l : List F32) : F32 := l.foldl (f32Add up) (.fin (0, 0))

/-- The value of a decoded bfloat16 operand, and its magnitude. -/
def bfVal (a : Dec) : F32 := if a.cls = .finite then .fin (a.m, a.q) else .nonFinite
def bfAbs (a : Dec) : F32 := if a.cls = .finite then .fin ((a.m.natAbs : Int), a.q) else .nonFinite

/-- R118: predicted sums, or magnitudes rounded upward, by row and by column. -/
def bfSums (d : Contr) (mag : Bool) : List F32 × List F32 :=
  let val := if mag then bfAbs else bfVal
  let row := (List.range d.rows).map (fun i => f32Sum mag (d.steps.map (fun k =>
    f32Mul mag (val (k.1.getD i {})) (f32Sum mag (k.2.map val)))))
  let col := (List.range d.cols).map (fun j => f32Sum mag (d.steps.map (fun k =>
    f32Mul mag (f32Sum mag (k.1.map val)) (val (k.2.getD j {})))))
  (row, col)

/-- A binary32 output as a value. -/
def f32Of (bits : Nat) : F32 :=
  let o := outFields false bits
  if o.cls ≠ .finite then .nonFinite
  else .fin (if o.sign = 1 then -(o.sig : Int) else (o.sig : Int), (if o.exp = 0 then 1 else (o.exp : Int)) - 150)
/-- A binary16 output as a value. -/
def f16Of (bits : Nat) : F32 :=
  let o := outFields true bits
  if o.cls ≠ .finite then .nonFinite
  else .fin (if o.sign = 1 then -(o.sig : Int) else (o.sig : Int), (if o.exp = 0 then 1 else (o.exp : Int)) - 25)

/-- R118: observed sums of the outputs. -/
def bfObserved (d : Contr) (half : Bool) (outs : List (List Nat)) : List F32 × List F32 :=
  let v := fun i j => (if half then f16Of else f32Of) ((outs.getD i []).getD j 0)
  ((List.range d.rows).map (fun i => f32Sum false ((List.range d.cols).map (fun j => v i j))),
   (List.range d.cols).map (fun j => f32Sum false ((List.range d.rows).map (fun i => v i j))))

/-- R118: the tolerance (K + 40) x 2^-23 x M. -/
def bfTau (k : Nat) (m : Int × Int) : Int × Int := (((k + 40 : Nat) : Int) * m.1, m.2 - 23)

/-- The floor of log2(dev / tau), saturated (Table 4.4). -/
def tauLog (dev tau : Int × Int) : Nat :=
  let e := min dev.2 tau.2
  let a := dev.1.natAbs * 2 ^ (dev.2 - e).toNat
  let b := tau.1.natAbs * 2 ^ (tau.2 - e).toNat
  if b = 0 then 0x1FFF
  else
    let k := bitLen a - bitLen b
    min 0x1FFF (if a < b * 2 ^ k then k - 1 else k)

/-- One row or column: the deviation and the tolerance where it is compared; it is not where a checksum or magnitude overflows
(R120) or is not finite for want of a finite operand or output (log entry 152). -/
inductive BfLine where
  | compared (dev tau : Int × Int)
  | overflow
  | nonFinite
deriving DecidableEq, Repr

def bfLine (k : Nat) (p o m : F32) (shift : Int) : BfLine :=
  match p, o, m with
  | .fin p, .fin o, .fin m =>
    let tau := bfTau k m
    let d := dyAdd (dyAdd o (shift * tau.1, tau.2)) (dyNeg p)
    .compared ((d.1.natAbs : Int), d.2) tau
  | _, _, _ => if p.isOver || o.isOver || m.isOver then .overflow else .nonFinite

/-- R118: failing rows and columns, with the number of rows and columns not compared. -/
def toleranceFail (d : Contr) (half : Bool) (outs : List (List Nat)) (site : Nat) : Option Fail × Nat :=
  let k := d.steps.length
  let p := bfSums d false
  let m := bfSums d true
  let o := bfObserved d half outs
  let line := fun (a b c : List F32) (i : Nat) (sh : Int) => bfLine k (a.getD i .nonFinite) (b.getD i .nonFinite) (c.getD i .nonFinite) sh
  let rows := (List.range d.rows).map (fun i => line p.1 o.1 m.1 i (if site = 7 ∧ i = 0 then 4 else 0))
  let cols := (List.range d.cols).map (fun j => line p.2 o.2 m.2 j 0)
  let bad := fun l : List BfLine =>
    (l.zipIdx.filterMap (fun e => match e.1 with
      | .compared dev tau => if dyLt tau dev then some (e.2, tauLog dev tau) else none
      | _ => none))
  let br := bad rows
  let bc := bad cols
  let abst := ((rows ++ cols).filter (· == .overflow)).length
  match br, bc with
  | [], [] => (none, abst)
  | [], (j, s) :: _ => (some { cols := bc.map (·.1), col := j, syn := s, synCol := true }, abst)
  | (i, s) :: _, cs => (some { rows := br.map (·.1), cols := cs.map (·.1), row := i, col := (cs.map (·.1)).headD 0, syn := s }, abst)

/-! ### The verdict -/

/-- What a contraction's checks found. -/
structure Verdict where
  /-- failures by class code, in the order of R122 -/
  fails : List (Nat × Fail) := []
  parAbst : Nat := 0
  tolAbst : Nat := 0
  special : Bool := false
  /-- the injection found an eligible contraction and was applied -/
  applied : Bool := false
deriving DecidableEq, Repr

/-- Table 4.8: the class that a site expects. -/
def siteClass (site : Nat) : Nat :=
  if site = 1 ∨ site = 2 ∨ site = 3 then 1 else if site = 4 then 3 else if site = 5 then 4 else if site = 6 then 2 else 5

/-- Accumulator (0,0) changed by sites 0x1 and 0x2; `n` numbers the injections of the tile. -/
def injectAcc (d : Contr) (acc : List (List Nat)) (site n : Nat) : List (List Nat) :=
  match acc with
  | (a :: r) :: rest =>
    let u := a % 2 ^ d.W
    let v := if site = 1 then u ^^^ 2 ^ (n * 7 % d.W) else if site = 2 then (u + 0xFFF * 2 ^ 40) % 2 ^ d.W else a
    (v :: r) :: rest
  | l => l

def places (d : Contr) : List (Nat × Nat) := (List.range d.rows).flatMap (fun i => (List.range d.cols).map (fun j => (i, j)))

/-- Output checks of an exact-checked format (R114 to R116), output by output. The outputs of an exact export have no rounded
output: their class is taken as finite (log entry 151). The rounding and parity checks are made on the outputs that operand classes
predict as finite, whatever they round to; the others are neither compared nor counted as abstentions (log entry 155). -/
def exactOutputs (d : Contr) (c : Contraction) (acc : List (List Nat)) (site : Nat) : Verdict :=
  let pred := (places d).map (fun e => (e, predictClass d e.1 e.2))
  let gr := fun e : Nat × Nat => roundOut c.outHalf c.mode (accValue d ((acc.getD e.1 []).getD e.2 0))
  let out := fun e : Nat × Nat => outFields c.outHalf ((c.outs.getD e.1 []).getD e.2 0)
  let fin := (pred.filter (fun e => e.2 == .finite)).map (·.1)
  let special := pred.filterMap (fun e =>
    let want := if site = 6 ∧ e.1 = (0, 0) then FClass.nan
      else if e.2 = .finite then (if c.exactExport then .finite else (gr e.1).cls) else e.2
    let got := if c.exactExport then FClass.finite else (out e.1).cls
    if got = want then none else some (e.1.1, e.1.2, 0))
  if c.exactExport then
    { fails := (match outputFail special with | some f => [(2, f)] | none => []), special := isSpecial d, applied := site == 6 }
  else
    let flipped := (fin.filter (fun e => (gr e).cls == .finite) ++ fin).head?
    let round : List (Nat × Nat × Nat) := fin.filterMap (fun e =>
      let g := gr e
      let sig := if site = 4 ∧ flipped = some e then g.sig ^^^ 1 else g.sig
      let o := out e
      let diff := (o.sig + resMod * 2 ^ 24 - sig) % resMod
      if diff = 0 ∧ o.sign = g.sign ∧ o.exp = g.exp then none else some (e.1, e.2, diff))
    let shadows := fin.map (fun e => (e, shadowDecides c.outHalf c.mode (shadowOf d c e.1 e.2)))
    let decided : List ((Nat × Nat) × (Nat × Nat)) := shadows.filterMap (fun e => e.2.map (fun s => (e.1, s)))
    let par : List (Nat × Nat × Nat) := decided.filterMap (fun e =>
      let o := out e.1
      let flip := if site = 5 ∧ (decided.head?.map (·.1)) = some e.1 then 1 else 0
      if (parityOf e.2.1 e.2.2 + flip) % 2 = parityOf o.sign o.exp then none else some (e.1.1, e.1.2, 0))
    let one := fun (k : Nat) (l : List (Nat × Nat × Nat)) => match outputFail l with | some f => [(k, f)] | none => []
    { fails := one 2 special ++ one 3 round ++ one 4 par, parAbst := shadows.length - decided.length,
      special := isSpecial d,
      applied := site == 6 || site == 4 || (site == 5 && !decided.isEmpty) }

/-- A window failure stands in front of the other failures of its contraction (R122). -/
def windowFail (window : Bool) : List (Nat × Fail) := if window then [(6, {})] else []

/-- The verdict of an exact-checked contraction. -/
def exactVerdict (d : Contr) (c : Contraction) (window : Bool) (site n : Nat) : Verdict :=
  let acc := injectAcc d c.acc site n
  let p := predictRes d c
  let p := if site = 3 then (match p.1 with | a :: r => ((a + 1) % resMod :: r, p.2) | [] => p) else p
  let res := if isSpecial d then [] else
    match residueFail p (observedRes d acc) with
    | some f => [(1, f)]
    | none => []
  let v := exactOutputs d c acc site
  { v with fails := windowFail window ++ res ++ v.fails, applied := v.applied || site == 1 || site == 2 || site == 3 }

/-- The verdict of a bfloat16 contraction (R114, R118). -/
def bfVerdict (d : Contr) (c : Contraction) (window : Bool) (site : Nat) : Verdict :=
  let m := bfSums d true
  let lost := fun e : Nat × Nat => (m.1.getD e.1 .nonFinite).isOver && (m.2.getD e.2 .nonFinite).isOver
  let pred := (places d).map (fun e => (e, if site = 6 ∧ e = (0, 0) then FClass.nan else predictClass d e.1 e.2))
  let free := pred.filter (fun e => e.2 == .finite && lost e.1)
  let special := pred.filterMap (fun e =>
    let got := (outFields c.outHalf ((c.outs.getD e.1.1 []).getD e.1.2 0)).cls
    if (e.2 = .finite ∧ lost e.1 = true) ∨ got = e.2 then none else some (e.1.1, e.1.2, 0))
  let tol := toleranceFail d c.outHalf c.outs site
  { fails := windowFail window ++ (match outputFail special with | some f => [(2, f)] | none => []) ++
      (match tol.1 with | some f => [(5, f)] | none => []),
    tolAbst := tol.2 + free.length, special := isSpecial d, applied := site == 6 || site == 7 }

/-- R127, Table 4.8: the site that applies to this contraction, 0 for none. -/
def siteFor (d : Contr) (c : Contraction) (window : Bool) (site : Nat) : Nat :=
  let exact := exactFmt d && !isSpecial d
  if window then 0
  else if site = 6 then 6
  else if site = 7 then (if exactFmt d then 0 else 7)
  else if site = 4 ∨ site = 5 then (if exact && !c.exactExport then site else 0)
  else if exact && decide (1 ≤ site) && decide (site ≤ 3) then site else 0

/-- The verdict of a contraction, with an injection (`site` 0 for none). -/
def verdictOf (c : Contraction) (exactMode : Bool) (site n : Nat) : Verdict :=
  let d := decodeContr c
  let w := windowFails d c exactMode
  let st := siteFor d c w site
  if exactFmt d then exactVerdict d c w st n else bfVerdict d c w st

/-- Table 4.4: the syndrome word of a class, for an execution with the PASS given. POW2 is set for class RESIDUE alone, of whose
syndromes R113 speaks (DEDUCED, log entry 156). -/
def syndromeWord (c : Contraction) (pass cls : Nat) (injected observe : Bool) (f : Fail) : Dword :=
  let multi := fun l : List Nat => bit01 (decide (1 < l.length))
  let p2 := if cls = 1 then powTwoExp f.syn else none
  BitVec.ofNat 64 (cls + bit01 injected * 2 ^ 4 + bit01 observe * 2 ^ 5 + multi f.rows * 2 ^ 6 + multi f.cols * 2 ^ 7 +
    f.row * 2 ^ 8 + f.col * 2 ^ 11 + f.syn * 2 ^ 15 + bit01 p2.isSome * 2 ^ 28 + p2.getD 0 * 2 ^ 29 + c.fmtA % 16 * 2 ^ 33 +
    c.fmtB % 16 * 2 ^ 37 + sat 0xFFF c.stepCycle * 2 ^ 41 + sat 127 c.index * 2 ^ 53 + pass % 4 * 2 ^ 60 +
    bit01 f.synCol * 2 ^ 62)

/-- R105, Table 4.4: the syndrome word of class OPEN: the format codes, the index and the cycle of the contraction that is open. -/
def openWord (o : OpenContraction) (pass cycle : Nat) : Dword :=
  BitVec.ofNat 64 (7 + o.fmtA % 16 * 2 ^ 33 + o.fmtB % 16 * 2 ^ 37 + sat 0xFFF cycle * 2 ^ 41 + sat 127 o.index * 2 ^ 53 + pass % 4 * 2 ^ 60)

end Sys2Proof.Machine
end

