-- ==== Sys2Proof/Machine/Guard.lean ====
section
/-! DEFINITION. The tile guards during a step: contraction ends (R103 to R129), exports at the gate (R106, R144, R145, R158 to
R160), the replay hold buffer (R153, R154), markers (R158, R159, R169), and arrival at a seam (R21, R105, R144). -/

namespace Sys2Proof.Machine

/-! ### Where a tile stands -/

/-- The position that a physical tile serves is a shadow's (R142). -/
def isShadow (s : State) (phys : Nat) : Bool :=
  let x := fieldOf s (taField phys)
  x.redund && (match servedBy x (taPlace phys) with | some pos => decide (pos / 100 % 2 = 1) | none => false)

/-- The primary of a tile's pair, and its shadow where the pair has one (R142). -/
def primaryOf (s : State) (phys : Nat) : Nat :=
  match logOf s phys with
  | some l => if isShadow s phys then physOf s l else phys
  | none => phys
def shadowOfTile (s : State) (phys : Nat) : Option Nat :=
  let x := fieldOf s (taField phys)
  if !x.redund then none
  else
    match logOf s phys with
    | some l =>
      let o := ownerOf x (shadowPos (taPlace l))
      if o = unfilled then none else some (tileAddr (taField phys) true o)
    | none => none

/-- The mode in which the exact paths run (R398). -/
def exactMode (s : State) (f : Nat) : Bool := fieldOpmode s f == 2

/-- What a physical tile executes: its step, a replay of it in a group on its own tile or as a spare (R164), the re-execution of a spot
check (R137), or a Bench segment (R214). -/
inductive Exec where
  | original
  | same (g : Group)
  | spare (g : Group) (log : Nat)
  | spot
  | bench
deriving DecidableEq, Repr

/-- The group that runs the tile as a spare, with the logical tile it stands in for. -/
def spareOf (s : State) (phys : Nat) : Option (Group × Nat) :=
  (s.groups.find? (fun g => g.state == .spare && g.spares.any (fun e => e.2 == phys))).map (fun g =>
    (g, ((g.spares.find? (fun e => e.2 == phys)).map (·.1)).getD 0))

/-- The group that replays the tile, or the pair it belongs to, in place. -/
def ownReplay (s : State) (phys : Nat) : Option Group :=
  match logOf s phys with
  | some l => s.groups.find? (fun g => (g.state == .same || g.state == .spare) && g.round.contains l)
  | none => none

/-- A step of the field runs, and the tile takes part in it. -/
def inField (s : State) (phys : Nat) : Bool :=
  s.feed && physicalOk phys && (fieldOf s (taField phys)).run == .running && (logOf s phys).isSome && !(guardOf s phys).underTest

/-- The same, before the tile has reported its arrival. -/
def inStep (s : State) (phys : Nat) : Bool := inField s phys && !(guardOf s phys).arrived

/-- What the tile executes now; none where it executes nothing, or has reached the end of it. -/
def execOf (s : State) (phys : Nat) : Option Exec :=
  if !(s.feed && physicalOk phys) then none
  else if (guardOf s phys).underTest then
    if (fieldOf s (taField phys)).bench.any (fun e => e.2.tile == taPlace phys && e.2.admitted) then some .bench else none
  else if islandGated s phys then none
  else if inStep s phys then some .original
  else if (guardOf s phys).redone then none
  else
    match spareOf s phys, ownReplay s phys with
    | some (g, l), _ => some (.spare g l)
    | none, some g => some (.same g)
    | none, none =>
      if (fieldOf s (taField phys)).spots.any (fun c => c.running && c.spare == taPlace phys) then some .spot else none

/-- Table 4.4 PASS: 0 original execution, 1 replay on the same tile, 2 replay on the spare, 3 spot check; a shadow's executions are
shadow executions throughout (DEDUCED, log entry 157). -/
def passOf (s : State) (phys : Nat) (m : Exec) : Nat :=
  match m with
  | .original => if isShadow s phys then 3 else 0
  | .same _ => if isShadow s phys then 3 else 1
  | .spare _ _ => 2
  | .spot => 3
  | .bench => 0

/-- R414: the logical tile whose counters the tile's guard keeps: that of its place, or, for a spare in a replay, of the place it stands
in for; none for a shadow, a spot spare or a tile under test. -/
def workLog (s : State) (phys : Nat) : Option Nat :=
  match spareOf s phys with
  | some (_, l) => some l
  | none => if (guardOf s phys).underTest || isShadow s phys then none else logOf s phys

/-- A tile counts an event of its logical tile. -/
def countOf (s : State) (phys : Nat) (g : TileCount → TileCount) : State :=
  match workLog s phys with
  | some l => countTile s l g
  | none => s

/-- R130, R214: the key of the digests that the tile's guard forms: the power-up key, or the weight key in a Bench segment. -/
def digestKeyOf (s : State) (m : Exec) : Nat :=
  match m with
  | .bench => weightKey
  | _ => s.arm.digestKey

/-- R130: symbols enter the step digest. -/
def foldStep (s : State) (phys : Nat) (m : Exec) (syms : List Word) : State :=
  modGuard s phys (fun g =>
    let st := foldSyms (digestKeyOf s m) (g.digest, g.symbols) syms
    { g with digest := st.1, symbols := st.2 })

/-- R164: the guards of the tiles that execute anew: digests and verdicts are formed afresh, and what a port holds is replaced (R160).
The undo area stays (R156). A tile whose guard holds nothing yet has nothing to forget. -/
def freshRun (s : State) (phys : List Nat) : State :=
  phys.foldl (fun s t => if (tfind s.guards t).isNone then s else modGuard s t (fun g => { g with
    digest := 0, symbols := 0, exportNo := 0, owed := [], gated := [], again := none, redone := false, ports := [], tokenWords := [] })) s

/-- The model's class codes for failures that Table 4.5 does not number: a pair's disagreement, an uncorrectable row whose
start-of-step content is held (R272), one without an image, and one in a tile without a spare row (R234). -/
def clsCompare : Nat := 9
def clsSramHeld : Nat := 10
def clsSramLost : Nat := 11
def clsSramFull : Nat := 12
/-- And for an uncorrectable error that the scrubber finds (R272). -/
def clsScrub : Nat := 13

/-- A failed verdict of an original execution, or of a tile under test (R26, R106, R122, R214): the gate shuts, the pin rises, and the
word of the first failure of the step stays; later ones are counted. -/
def latchFailure (s : State) (phys cls : Nat) (word : Dword) (instr : Nat) : State :=
  if (guardOf s phys).gateShut then modGuard s phys (fun g => { g with more := sat16 (g.more + 1) })
  else
    let s : State := modGuard s phys (fun g => { g with
      gateShut := true, pin := true, syndrome := word, cls := cls, instrAddr := instr,
      seen := some (detected s (taField phys) (logOf s phys)) })
    if (guardOf s phys).underTest then s
    else modField s (taField phys) (fun x => { x with
      guardPins := x.guardPins ++ [phys], storm := x.storm.map (fun m => { m with lastRise := s.now }) })

/-- The first failure of a replay or of a re-execution stays in the guard until its verdict. -/
def failAgain (s : State) (phys cls : Nat) (word : Dword) : State :=
  modGuard s phys (fun g => { g with again := if g.again.isSome then g.again else some (cls, word) })

/-! ### CONTRACTION_END -/

/-- R129: the counters of a verdict. -/
def countVerdict (x : Field) (v : Verdict) (injectedFail : Bool) (cycles : Nat) (t : TileCount) : TileCount :=
  let t := engineBusy x 0 cycles t
  let has := fun k : Nat => bit01 (!v.applied && v.fails.any (fun e => e.1 == k))
  { t with
    matrixBusy := wrap48 (t.matrixBusy + cycles), residue := sat32 (t.residue + has 1),
    specialFail := sat32 (t.specialFail + has 2), round := sat32 (t.round + has 3), parity := sat32 (t.parity + has 4),
    tolerance := sat32 (t.tolerance + has 5), parityAbst := sat32 (t.parityAbst + v.parAbst),
    tolAbst := sat32 (t.tolAbst + v.tolAbst), specialContr := sat32 (t.specialContr + bit01 v.special),
    injected := sat32 (t.injected + bit01 injectedFail) }

/-- R125: the classes that the field's policy leaves in observe mode. -/
def observed (x : Field) (cls : Nat) : Bool :=
  (bitAt x.observe 0 && decide (1 ≤ cls) && decide (cls ≤ 4)) || (bitAt x.observe 1 && decide (cls = 5))

/-- The slot that tests a tile. -/
def testSlot (s : State) (phys : Nat) : Option (Nat × BenchSlot) :=
  (fieldOf s (taField phys)).bench.find? (fun e => e.2.tile == taPlace phys)

/-- The site of the injection armed in a tile's guard, 0 for none: CHECK_POLICY's in an original execution of a tile that is no shadow
(R127), a CHECKER segment's in the tile under test (R215). -/
def armedSite (s : State) (phys : Nat) (m : Exec) : Nat :=
  match m with
  | .original =>
    match (fieldOf s (taField phys)).injected with
    | some (t, site, _) => if t = phys ∧ isShadow s phys = false then site else 0
    | none => 0
  | .bench => ((testSlot s phys).map (·.2.site)).getD 0
  | _ => 0

/-- An armed injection has been made: one less of CHECK_POLICY's (R127); the next site of a CHECKER segment (R215). -/
def useInjection (s : State) (phys : Nat) (m : Exec) : State :=
  let s : State := modGuard s phys (fun g => { g with injCount := g.injCount + 1 })
  modField s (taField phys) (fun x =>
    if m = .bench then { x with bench := x.bench.map (fun e =>
      if e.2.tile = taPlace phys then (e.1, { e.2 with site := e.2.site % 7 + 1, nextSite := e.2.site % 7 + 1 }) else e) }
    else { x with injected := match x.injected with
      | some (t, site, n) => if 1 < n then some (t, site, n - 1) else none
      | none => none })

/-- R121, R122, R125, R128: what a verdict comes to: class, syndrome word, and whether it is enforced. An injected contraction is
enforced; it shows a faulty checker unless the expected class is among its failures. -/
def verdictWord (x : Field) (c : Contraction) (pass : Nat) (v : Verdict) (site : Nat) : Option (Nat × Dword × Bool) :=
  if v.applied then
    match v.fails.find? (fun e => e.1 == siteClass site), v.fails with
    | some _, (cls, f) :: _ => some (cls, syndromeWord c pass cls true false f, true)
    | _, _ => some (8, syndromeWord c pass 8 true false { syn := site }, true)
  else
    match v.fails with
    | [] => none
    | (cls, f) :: _ =>
      let obs := v.fails.all (fun e => observed x e.1)
      some (cls, syndromeWord c pass cls false obs f, !obs)

/-- R215: a Bench injection that is not detected as expected ends the test. -/
def benchMiss (s : State) (phys : Nat) : State :=
  modField s (taField phys) (fun x => { x with bench := x.bench.map (fun e =>
    if e.2.tile = taPlace phys then (e.1, { e.2 with miss := true }) else e) })

/-- What a failed verdict leads to: the ring entry with its word, and, where it is enforced: in an original execution the shut gate and
the pin of the tile, of the primary for a shadow (R36, R121, R145); in a replay or a re-execution its failure (R137, R164); in a Bench
segment the pin of the tile under test, but for an injection that is detected (R214, R215). -/
def failVerdict (s : State) (c : Contraction) (m : Exec) (v : Verdict) (site : Nat) : State :=
  match verdictWord (fieldOf s (taField c.tile)) c (passOf s c.tile m) v site with
  | none => s
  | some (cls, w, enforced) =>
    let s : State := gring s c.tile 3 cls c.stepCycle w
    match m with
    | .bench =>
      if v.applied && decide (cls ≠ 8) then s
      else latchFailure (if v.applied then benchMiss s c.tile else s) c.tile cls w c.instrAddr
    | .original =>
      if !enforced then s
      else
        let s : State := modGuard s c.tile (fun g => { g with ownFail := true })
        let s : State := latchFailure s (primaryOf s c.tile) cls w c.instrAddr
        if cls = 6 then modField s (taField c.tile) (fun x => { x with noReplay := true }) else s
    | _ =>
      if !enforced then s
      else failAgain (modGuard s c.tile (fun g => { g with ownFail := true })) c.tile cls w

/-- CONTRACTION_END (R103 to R129): the guard's verdict over one contraction. -/
def execContractionEnd (c : Contraction) (s : State) : Result :=
  if !(physicalOk c.tile && contractionOk c) then .fault (.malformed "CONTRACTION_END")
  else whenSome s (execOf s c.tile) "no program executes in the tile" fun m =>
    let f := taField c.tile
    let site := armedSite s c.tile m
    let v := verdictOf c (exactMode s f) site ((guardOf s c.tile).injCount + 1)
    let s : State := if v.applied then useInjection s c.tile m else s
    let s : State := countOf s c.tile (countVerdict (fieldOf s f) v (v.applied && !v.fails.isEmpty)
      (if m = .original then c.steps.length else 0))
    .next (failVerdict s c m v site)

/-! ### EXPORT_ATTEMPT -/

/-- R124, R144: cycles an export waits at the gate. -/
def gateWait (s : State) (x : Export) : Nat :=
  let comp := match shadowOfTile s x.tile with | some _ => 12 | none => 0
  max x.cycle x.release + comp - x.cycle

/-- R106, R415, R416, R427: the wait is a stall of the exporting engine, with reason GATE. Table 16.9's example charges it to the
matrix unit. DEDUCED. -/
def countWait (s : State) (t cycle wait : Nat) : State :=
  let x := fieldOf s (taField t)
  let s : State := countOf s t (engineStall x 0 1 wait)
  if bitAt x.engines 0 && bitAt x.reasons 1 && decide (256 ≤ wait) then gring s t 9 (0 + 1 * 4) cycle (BitVec.ofNat 64 wait) else s

/-- Table 5.5: the comparison word. -/
def comparisonWord (kind outcome : Nat) (replayed : Bool) (cycle expNo partner : Nat) : Dword :=
  BitVec.ofNat 64 (kind + outcome * 2 ^ 2 + bit01 replayed * 2 ^ 5 + sat 0xFFF cycle * 2 ^ 6 + sat16 expNo * 2 ^ 18 +
    partner * 2 ^ 34)

/-- A disagreement of a pair, while it is unresolved (R145, R147): in the original execution the primary's gate shuts and its pin
rises; in a replay the pair fails it. -/
def pairDisagrees (s : State) (t : Nat) (replayed : Bool) (kind cycle expNo : Nat) : State :=
  let w := comparisonWord kind 1 replayed cycle expNo ((shadowOfTile s t).getD 0xFFFFFF)
  let s : State := gring s t 10 kind cycle w
  if replayed then failAgain s t clsCompare w else latchFailure s t clsCompare w 0

/-- An export of an original execution leaves for another tile, with its release kept for a recall (R169), or is held at its port
until the release of the seam (R160). -/
def sendExport (s : State) (x : Export) (d wait : Nat) : State :=
  match x.dest with
  | .tile l =>
    let at_ := x.cycle + wait
    let s : State := modGuard s x.tile (fun g => { g with
      recent := (at_, l, x.header) :: g.recent.filter (fun e => decide (x.cycle ≤ e.1 + 32)) })
    sampleHeader (drive s (.released x.tile d (.tile l) (fieldOf s (taField x.tile)).epoch)) (taField x.tile) x.header
  | .fabricPort p => modGuard s x.tile (fun g => { g with ports := g.ports ++ [(d, .fabricPort p)] })
  | .hostPort => modGuard s x.tile (fun g => { g with ports := g.ports ++ [(d, .hostPort)], tokenWords := x.payload })

/-- R163: a marker of the step goes to a tile of another field. -/
def noteCross (s : State) (f log : Nat) : State :=
  if taField log = f then s
  else modField s f (fun x => { x with crossSent := if x.crossSent.contains (taField log) then x.crossSent else x.crossSent ++ [taField log] })

/-- R158: the withheld marker that takes the place of a suppressed export. -/
def withhold (s : State) (x : Export) (n : Nat) : State :=
  let s : State := drive (gring s x.tile 5 n x.cycle 0) (.marker x.tile x.header x.payload.length x.dest)
  let s : State := sampleHeader s (taField x.tile) x.header
  match x.dest with
  | .tile l => noteCross s (taField x.tile) l
  | _ => s

/-- R160: a replayed export goes to members of its group, its packets under the idle version where the group has spares (R164); what a
port holds is replaced; for any other addressee it is digested and discarded. -/
def resendExport (s : State) (g : Group) (x : Export) (d : Nat) : State :=
  match x.dest with
  | .tile l =>
    if g.tiles.contains l then
      let ep := (fieldOf s (taField x.tile)).epoch
      sampleHeader (drive s (.released x.tile d (.tile l) (if g.state = .spare then !ep else ep))) (taField x.tile) x.header
    else s
  | .fabricPort p => modGuard s x.tile (fun g => { g with ports := g.ports ++ [(d, .fabricPort p)] })
  | .hostPort => modGuard s x.tile (fun g => { g with ports := g.ports ++ [(d, .hostPort)], tokenWords := x.payload })

/-- The gate opens for an export, or stays shut for it (R106, R144, R158 to R160, R169): number `n` of the tile's execution. -/
def passGate (s : State) (m : Exec) (x : Export) (n d : Nat) : State :=
  let g := guardOf s x.tile
  match m with
  | .original =>
    if g.gateShut || g.tainted || (fieldOf s (taField x.tile)).droop then withhold s x n else sendExport s x d (gateWait s x)
  | .same k => if g.again.isSome then withhold s x n else resendExport s k x d
  | .spare k _ => if g.again.isSome then withhold s x n else resendExport s k x d
  | .spot => s
  | .bench => s

/-- A replay, as the comparison of a pair records it (R147). -/
def isReplay (m : Exec) : Bool :=
  match m with
  | .same _ => true
  | _ => false

/-- R144, R145: the two export digests of a pair's export meet. -/
def comparePair (s : State) (m : Exec) (k : Gated) (e : Nat) : State :=
  let s : State := if k.digest = e then s else pairDisagrees s k.x.tile (isReplay m) 1 k.x.cycle k.n
  passGate s m k.x k.n k.digest

/-- R144: a shadow's export is digested and discarded: its digest meets the export of the primary that waits for it, or waits. -/
def shadowExport (s : State) (m : Exec) (p n d : Nat) : State :=
  match (guardOf s p).gated.find? (fun k => k.n == n) with
  | some k => comparePair (modGuard s p (fun g => { g with gated := g.gated.filter (fun k => k.n != n) })) m k d
  | none => modGuard s p (fun g => { g with owed := g.owed ++ [(n, d)] })

/-- R144: a primary's export waits at the gate for its shadow's digest. -/
def primaryExport (s : State) (m : Exec) (k : Gated) : State :=
  match (guardOf s k.x.tile).owed.find? (fun e => e.1 == k.n) with
  | some e => comparePair (modGuard s k.x.tile (fun g => { g with owed := g.owed.filter (fun e => e.1 != k.n) })) m k e.2
  | none => modGuard s k.x.tile (fun g => { g with gated := g.gated ++ [k] })

/-- The tile's execution runs beside a shadow's. -/
def pairRuns (s : State) (phys : Nat) (m : Exec) : Bool :=
  match m with
  | .original => (shadowOfTile s phys).isSome
  | .same _ => (shadowOfTile s phys).isSome
  | _ => false

/-- An export reaches the gate of a tile that executes. -/
def gateExport (s : State) (m : Exec) (x : Export) (d : Nat) : State :=
  let n := (guardOf s x.tile).exportNo
  let s : State := modGuard s x.tile (fun g => { g with exportNo := g.exportNo + 1 })
  if m ≠ .bench ∧ isShadow s x.tile = true then shadowExport s m (primaryOf s x.tile) n d
  else
    let s : State := if m = .original then countWait s x.tile x.cycle (gateWait s x) else s
    if pairRuns s x.tile m then primaryExport s m { n := n, digest := d, x := x } else passGate s m x n d

/-- EXPORT_ATTEMPT (R26, R106, R124, R130, R137, R144, R145, R158 to R160, R214). -/
def execExportAttempt (x : Export) (s : State) : Result :=
  if !(physicalOk x.tile && decide (x.header.length = 4) && decide (x.payload.length ≤ 2048)) then
    .fault (.malformed "EXPORT_ATTEMPT")
  else whenSome s (execOf s x.tile) "no program executes in the tile" fun m =>
    let syms := x.header ++ x.payload
    .next (gateExport (foldStep s x.tile m syms) m x (digestOf (digestKeyOf s m) syms))

/-! ### The replay hold buffer -/

/-- R179: a context that covers the row has been written. -/
def writeContexts (s : State) (log row : Nat) (covers : Context → Nat → Nat → Bool) : State :=
  { s with side := { s.side with contexts := s.side.contexts.map (fun c : Context =>
      if covers c log row then { c with written := true } else c) } }

/-- R177: the shard of a context of kind 0 covers a row of a logical tile. -/
def coversRow (c : Context) (log row : Nat) : Bool :=
  coversTile c log && (c.masks.getD (tileIndex log - tileIndex c.first) 0).getLsbD row

/-- R137: 12 bytes a cycle since the snapshot started have not yet reached a row of the data SRAM. -/
def rowUncopied (s : State) (f : Nat) (c : Spot) (row : Nat) : Bool :=
  decide ((s.now - c.startAt) * (fieldOf s f).clock / 1000 * 12 < 64 * (row + 1))

/-- R137: a line that is overwritten before it has been copied into the snapshot is captured; beyond 2 KiB the check is abandoned and
counted. -/
def snapshotWrite (s : State) (t row : Nat) : State :=
  let f := taField t
  let x := fieldOf s f
  match x.spots.find? (fun c => c.phys == taPlace t && !c.running) with
  | none => s
  | some c =>
    if c.lines.contains row || !rowUncopied s f c row then s
    else if 32 ≤ c.lines.length then
      let s : State := setField s f { x with spots := x.spots.filter (fun d => d != c) }
      let s : State := countField s f (fun n => { n with skipOther := sat32 (n.skipOther + 1) })
      returnLent s f c.spare
    else setField s f { x with spots := x.spots.map (fun d => if d = c then { d with lines := d.lines ++ [row] } else d) }

/-- Data as 8-byte writes: address, low word, high word (R130). -/
def writeSyms : Nat → List Word → List Word
  | a, lo :: hi :: r => w32 a :: lo :: hi :: writeSyms (a + 8) r
  | a, [lo] => [w32 a, lo, 0]
  | _, [] => []

/-- R153: the first own write of a row in the step captures the row, in two exempt cases not. -/
def captureRow (s : State) (t row : Nat) (full readBefore : Bool) (old : BitVec 512) : State :=
  let g := guardOf s t
  let known := g.undo.any (fun e => e.1 == row)
  let exempt := full && !readBefore && !g.touched.contains row
  let s : State := modGuard s t (fun g => { g with touched := if g.touched.contains row then g.touched else g.touched ++ [row] })
  if known || exempt || g.holdOvf || g.touched.contains row then s
  else if g.undo.length < 120 then modGuard s t (fun g => { g with undo := g.undo ++ [(row, old)] })
  else countOf (modGuard s t (fun g => { g with holdOvf := true })) t (fun c => { c with holdOvf := sat32 (c.holdOvf + 1) })

/-- A write of a row of the tile's place: contexts that cover it have been written (R179), and a snapshot of it is saved first. -/
def rowWritten (s : State) (t row : Nat) : State :=
  let s : State := snapshotWrite s t row
  match logOf s t with
  | some l => writeContexts s l row coversRow
  | none => s

/-- SRAM_OWN_WRITE (R130, R137, R153, R156, R179, R214): every execution forms its digest; the original one alone captures rows. -/
def execSramOwnWrite (tile row addr : Nat) (data : List Word) (full readBefore : Bool) (old : BitVec 512) (s : State) : Result :=
  if !(physicalOk tile && decide (row < 1024) && decide (addr / 64 = row)) then .fault (.malformed "SRAM_OWN_WRITE")
  else whenSome s (execOf s tile) "no program executes in the tile" fun m =>
    let s : State := foldStep s tile m (writeSyms addr data)
    match m with
    | .original => .next (rowWritten (captureRow s tile row full readBefore old) tile row)
    | .same _ => .next (rowWritten s tile row)
    | _ => .next s

/-- MESH_WRITE_RECEIVE (R154, R179): a row that own engines have read or written in the step sets INBOUND_ORDER, also after the tile's own
arrival, until the step ends with the field's. -/
def execMeshWriteReceive (tile row : Nat) (readBefore : Bool) (s : State) : Result :=
  if !(physicalOk tile && decide (row < 1024)) then .fault (.malformed "MESH_WRITE_RECEIVE")
  else whenOk s (inField s tile) "no step runs in the tile"
    (let g := guardOf s tile
     let late := (readBefore || g.touched.contains row) && !g.inbound
     let s : State := if late then
         countOf (modGuard s tile (fun g => { g with inbound := true })) tile (fun c => { c with inbound := sat32 (c.inbound + 1) })
       else s
     rowWritten s tile row)

/-! ### Markers -/

/-- R163: the running steps of two fields end at a seam marked CROSS in both. -/
def sharedSeam (s : State) (f g : Nat) : Bool :=
  let cross := fun h : Nat => match (fieldSeams s h)[(fieldOf s h).seam]? with | some m => m.cross | none => false
  f == g || (decide (partNo s f = partNo s g) && (partNo s f).isSome && decide ((fieldOf s f).seam = (fieldOf s g).seam) &&
    cross f && cross g)

/-- A receiver is tainted by an origin (logical address): its own step counts as tainted once (R158, R159, Table 16.2). -/
def taint (s : State) (tile origin : Nat) : State :=
  let f := taField tile
  let s : State := if (guardOf s tile).tainted then s else countOf s tile (fun c => { c with taint := sat32 (c.taint + 1) })
  let s : State := modGuard s tile (fun g => { g with tainted := true })
  if !sharedSeam s f (taField origin) then modField s f (fun x => { x with noReplay := true })
  else
    match logOf s tile with
    | some l => modField s f (fun x => { x with taints := if x.taints.contains (l, origin) then x.taints else x.taints ++ [(l, origin)] })
    | none => s

/-- WITHHELD_MARKER_RECEIVE (R158, R159, R163): the payload is discarded and the receiver is tainted. -/
def execWithheldMarkerReceive (tile origin edge : Nat) (header : Word) (s : State) : Result :=
  if !(physicalOk tile && logicalOk origin && decide (edge < 4)) then .fault (.malformed "WITHHELD_MARKER_RECEIVE")
  else whenOk s (inField s tile) "no step runs in the tile"
    (taint (gring s tile 4 edge 0 (header.setWidth 64)) tile origin)

/-- RECALL_MARKER_RECEIVE (R169): RECALLED and TAINTED are set; data already written stays. -/
def execRecallMarkerReceive (tile origin edge : Nat) (s : State) : Result :=
  if !(physicalOk tile && logicalOk origin && decide (edge < 4)) then .fault (.malformed "RECALL_MARKER_RECEIVE")
  else whenOk s (inField s tile) "no step runs in the tile"
    (let s : State := countOf (gring s tile 6 edge 0 0) tile (fun c => { c with recalls := sat32 (c.recalls + 1) })
     taint (modGuard s tile (fun g => { g with recalled := true })) tile origin)

/-! ### Arrival at a seam -/

/-- Step flags of Table 6.1 as the ring entry of the arrival carries them: TAINTED, HOLD_OVF, INBOUND_ORDER, RECALLED from bit 0,
the count of valid row tags from bit 4. -/
def stepFlags (g : Guard) : Nat :=
  bit01 g.tainted + bit01 g.holdOvf * 2 + bit01 g.inbound * 4 + bit01 g.recalled * 8 + g.undo.length * 16

/-- R105, R170: a contraction open at the seam: class OPEN, a program fault; in a replay or a re-execution, its failure. -/
def openFault (s : State) (tile cycle : Nat) (m : Exec) (o : OpenContraction) : State :=
  let w := openWord o (passOf s tile m) cycle
  let s : State := modGuard (gring s tile 3 7 cycle w) tile (fun g => { g with ownFail := true })
  if m = .original then
    modField (latchFailure s (primaryOf s tile) 7 w o.instrAddr) (taField tile) (fun x => { x with noReplay := true })
  else failAgain s tile 7 w

/-- R144, R145: the comparison of a pair at the end of its step: exports that still wait for a digest of the shadow's disagree, and the
step digests are compared. -/
def settlePair (s : State) (m : Exec) (p h cycle : Nat) : State :=
  let left := (guardOf s p).gated
  let s : State := modGuard s p (fun g => { g with gated := [], owed := [] })
  let s : State := left.foldl (fun s k => withhold (pairDisagrees s p (isReplay m) 1 k.x.cycle k.n) k.x k.n) s
  if (guardOf s p).digest = (guardOf s h).digest then s else pairDisagrees s p (isReplay m) 2 cycle 0

/-- R144: a pair reports its arrival when both tiles have arrived and their step digests have been compared. -/
def pairArrives (s : State) (tile cycle : Nat) : State :=
  let p := primaryOf s tile
  let one := fun s : State => modField s (taField tile) (fun x => { x with arrived := x.arrived + 1 })
  match shadowOfTile s tile with
  | none => one s
  | some h =>
    if (guardOf s p).arrived && (guardOf s h).arrived then one (settlePair s .original p h cycle) else s

/-- A replay or a re-execution has reached its seam; a pair's two replays are then compared (R145). -/
def endRerun (s : State) (tile cycle : Nat) (m : Exec) : State :=
  let s : State := modGuard s tile (fun g => { g with redone := true })
  match m, shadowOfTile s tile with
  | .same _, some h =>
    let p := primaryOf s tile
    if (guardOf s p).redone && (guardOf s h).redone then settlePair s m p h cycle else s
  | _, _ => s

/-- TILE_SEAM_REACH (R21, R105, R130, R137, R144, R145, R152, R159, R164, R427): `checkpoint` is what the seam checkpoint takes of the
tile's engines (Table 6.1). -/
def execTileSeamReach (tile cycle : Nat) (checkpoint : List Word) (openAt : Option OpenContraction) (s : State) : Result :=
  if !physicalOk tile || decide (checkpoint.length ≠ 64) then .fault (.malformed "TILE_SEAM_REACH")
  else whenSome s (match execOf s tile with | some .bench => none | m => m) "no step runs in the tile" fun m =>
    let s : State := match openAt with | some o => openFault s tile cycle m o | none => s
    let s : State := modGuard s tile (fun g => { g with enginesNext := checkpoint })
    if m = .original then
      let s : State := modGuard s tile (fun g => { g with arrived := true })
      .next (pairArrives (gring s tile 1 (stepFlags (guardOf s tile)) cycle 0) tile cycle)
    else .next (endRerun s tile cycle m)

end Sys2Proof.Machine
end

