-- ==== Sys2Proof/Machine/ReplayOps.lean ====
section
/-! DEFINITION. Replay groups (R162 to R176): how they form, start, move to spares, pass or are lost. -/

namespace Sys2Proof.Machine

/-! ### Parts -/

def setGroup (s : State) (g : Group) : State :=
  { s with groups := s.groups.map (fun h => if h.id = g.id then g else h) }
def dropGroup (s : State) (id : Nat) : State := { s with groups := s.groups.filter (fun h => h.id != id) }
def findGroup (s : State) (id : Nat) : Option Group := s.groups.find? (fun h => h.id == id)
def freshGroup (s : State) : Nat := s.groups.foldl (fun m g => max m (g.id + 1)) 0

/-- The field stands held at its seam. -/
def isHeld (s : State) (f : Nat) : Bool := (fieldOf s f).run == .held
/-- A group that has still to end. -/
def openGroup (g : Group) : Bool := g.state != .done

/-- R162, R176: failures by the time of their latch, ties by logical address. -/
def failOrder (l : List ReplayFail) : List ReplayFail :=
  sortBy (fun a b => decide (a.time < b.time) || (a.time == b.time && decide (a.tile ≤ b.tile))) l
/-- R176: the group's triggering failure: the first latched, or nothing for a droop without one. -/
def triggerFail (g : Group) : Option ReplayFail := g.failed.head?
/-- An injected failure (Table 4.4 INJECTED), detected as expected. -/
def injectedFail (r : ReplayFail) : Bool := r.word.getLsbD 4 && decide (r.cls < 8)
/-- Table 6.3 TRIGGER of a failure. -/
def triggerCode (r : ReplayFail) : Nat :=
  if r.cls = 8 then 3 else if r.cls = clsCompare then 2 else if injectedFail r then 4 else 0

/-- The logical tile runs as a pair (R142). -/
def isPair (s : State) (log : Nat) : Bool := (shadowOfTile s (physOf s log)).isSome

/-! ### Forming groups (R162, R163, R169) -/

/-- A set of tiles joins the groups that wait: those that share a tile with it merge, in the place of the first. -/
def addGroup (s : State) (g : Group) : State :=
  let shares := fun h : Group => h.state == .waiting && h.tiles.any (fun t => g.tiles.contains t)
  match s.groups.find? shares with
  | none => { s with groups := s.groups ++ [{ g with id := freshGroup s }] }
  | some h0 =>
    let hs := s.groups.filter shares
    let all := hs ++ [g]
    let tiles := (all.flatMap (·.tiles)).eraseDups
    let failed := failOrder (all.flatMap (·.failed)).eraseDups
    let m : Group := { h0 with
      tiles := tiles, failed := failed, fields := (tiles.map taField).eraseDups,
      trigger := if all.any (fun h => h.trigger == 1) then 1 else (failed.head?.map triggerCode).getD h0.trigger,
      field := (failed.head?.map (fun r => taField r.tile)).getD h0.field }
    { s with groups := (s.groups.filter (fun h => !shares h || h.id == h0.id)).map (fun h => if h.id = h0.id then m else h) }

def seedGroup (s : State) (f : Nat) (tiles : List Nat) (failed : List ReplayFail) (trigger : Nat) : State :=
  addGroup s { id := 0, field := f, fields := (tiles.map taField).eraseDups, tiles := tiles, failed := failed, trigger := trigger,
               state := .waiting, spareFirst := false }

/-- R162, R169: the groups of the step that a field has just ended. -/
def formGroups (s : State) (f : Nat) : State :=
  let x := fieldOf s f
  let s : State :=
    if x.droop then seedGroup s f ((fieldPlaces x).map (tileAddr f false)) x.failed 1
    else x.failed.foldl (fun s r => seedGroup s f [r.tile] [r] (triggerCode r)) s
  x.taints.foldl (fun s e => seedGroup s f [e.1, e.2] [] 0) s

/-! ### Reservations (R165) -/

/-- R165: a spare is reserved for a failed logical tile, unless it has one: its paired spare, or, where that is reserved for another
tile, the nearest lendable spare that is not. -/
def reserveFor (s : State) (log : Nat) : State :=
  let f := taField log
  let x := fieldOf s f
  let l := taPlace log
  if x.reserved.any (fun e => e.1 == l) then s
  else
    let o := ownerOf x (posOf x l)
    let pick := match pairFor s f o [] with
      | some u => if (reservedSpares x).contains u then nearest o (unreserved s f) else some u
      | none => none
    match pick with
    | some u => setField s f { x with reserved := x.reserved ++ [(l, u)] }
    | none => s
def reservedSpare (s : State) (log : Nat) : Option Nat :=
  ((fieldOf s (taField log)).reserved.find? (fun e => e.1 == taPlace log)).map (·.2)
/-- R165: at the start of a hold, for every tile that failed a check, in ascending order of logical address. -/
def reserveAll (s : State) (tiles : List Nat) : State :=
  (sortBy (fun a b => decide (a ≤ b)) tiles).foldl reserveFor s

/-! ### Slots (R162, R164, R249) -/

/-- Fewer than four groups replay on the same tiles in each of the group's fields. -/
def sameSlotFree (s : State) (g : Group) : Bool :=
  g.fields.all (fun f => decide ((s.groups.filter (fun h => h.state == .same && h.fields.contains f)).length < 4))
/-- Spare-replay slots taken in a field. -/
def spareSlots (s : State) (f : Nat) : Nat :=
  ((s.groups.filter (fun h => (h.state == .copying || h.state == .spare) && h.fields.contains f)).map
    (fun h => min 4 (h.spares.filter (fun e => taField e.1 == f)).length)).sum
/-- R164, R249, R305: the group can run all of its spares now. -/
def spareReady (s : State) (g : Group) : Bool :=
  s.hang.fwUp && g.fields.all (fun f =>
    let n := (g.spares.filter (fun e => taField e.1 == f)).length
    !(fieldOf s f).idleDirty && (if n ≤ 4 then decide (spareSlots s f + n ≤ 4) else decide (spareSlots s f = 0)))

/-- R164: the physical tiles of a group that replay in place in this round, shadows with their primaries (R145). -/
def ownTiles (s : State) (g : Group) : List Nat :=
  g.round.flatMap (fun l => physOf s l :: (shadowOfTile s (physOf s l)).toList)

/-- R156: the replay image is restored in each of the tiles that replay in place: the seam checkpoint is reloaded, the undo rows are
written back. -/
def restoreOwn (s : State) (g : Group) : State :=
  (ownTiles s g).foldl (fun s t => match tfind s.guards t with
    | some k => drive s (.restore t k.engines k.undo)
    | none => s) s

/-- A round of replays in place starts (R156, R164, R168). -/
def runOwn (s : State) (g : Group) (st : GroupState) : State :=
  let s : State := setGroup s { g with state := st, since := s.now }
  restoreOwn (freshRun s (ownTiles s g)) g

/-- R157: the image of a failed tile goes to its spare: the data SRAM with the undo rows overlaid, and the seam checkpoint. -/
def sendImage (s : State) (e : Nat × Nat) : State :=
  let k := guardOf s (physOf s e.1)
  drive s (.image (physOf s e.1) e.2 k.engines k.undo)

/-- R164: the idle route-table version takes each failed coordinate to its spare. -/
def mapIdle (s : State) (g : Group) : State :=
  g.spares.foldl (fun s e => modField s (taField e.1) (fun x =>
    let pos := posOf x (taPlace e.1)
    { x with idleMap := x.idleMap.filter (fun m => m.1 != pos) ++ [(pos, taPlace e.2)] })) s

/-- The spare replay's image copies start (R157, R164, R168). -/
def startCopies (s : State) (g : Group) : State :=
  let s : State := setGroup s { g with state := .copying, copies := g.spares.map (·.1), retried := [], copyTime := [], since := s.now }
  (g.spares.foldl sendImage (mapIdle s g))

/-- The copies are done: the spares run, and the rest of the group beside them (R164). -/
def runSpares (s : State) (g : Group) : State :=
  runOwn (freshRun s (g.spares.map (·.2))) g .spare

/-! ### The end of a group -/

/-- The ring's replay entries (R428). -/
def ringReplay (s : State) (f typ : Nat) (word : Nat) : State := wring s f typ [word]

/-- The counters of a replay (R176, R418). -/
def countReplay (s : State) (tiles moved : List Nat) (cycles : Nat) : State :=
  tiles.foldl (fun s t => countTile s t (fun c => { c with
    replayCycles := wrap48 (c.replayCycles + cycles),
    replaySame := if moved.contains t then c.replaySame else sat32 (c.replaySame + 1),
    replaySpare := if moved.contains t then sat32 (c.replaySpare + 1) else c.replaySpare })) s

def groupWord (s : State) (g : Group) (outcome : Nat) (spare : Nat) : Nat :=
  let _ := s
  replayWord g.trigger outcome g.spareFirst (decide (1 < g.fields.length)) g.tiles.length spare g.cycles

/-- Table 5.5: the comparison word of a pair, with its final outcome and the tile that decided it. -/
def withOutcome (w : Dword) (outcome : Nat) (replayed : Bool) (partner : Nat) : Dword :=
  BitVec.ofNat 64 (w.toNat % 2 ^ 34 / 64 * 64 + w.toNat % 4 + outcome * 4 + bit01 replayed * 32 + partner % 2 ^ 24 * 2 ^ 34)

/-- The word of a failure as its record carries it: a comparison word takes its outcome, a syndrome word stays (R147, R176). -/
def failWord (r : ReplayFail) (outcome : Nat) (replayed : Bool) (arbiter : Option Nat) : Dword :=
  if r.cls = clsCompare then withOutcome r.word outcome replayed (arbiter.getD (r.word.toNat / 2 ^ 34 % 2 ^ 24)) else r.word

/-- The word of the triggering failure. -/
def triggerWord (g : Group) (outcome : Nat) (replayed : Bool) (arbiter : Option Nat) : Dword :=
  match triggerFail g with
  | some r => failWord r outcome replayed arbiter
  | none => 0

/-- R145, R167: the physical tiles whose own checks failed; the primary, where a pair has only disagreed. -/
def culprits (s : State) (log : Nat) : List Nat :=
  let p := physOf s log
  let own := (p :: (shadowOfTile s p).toList).filter (fun t => (guardOf s t).ownFail)
  if own.isEmpty then [p] else own

/-- R167: a tile's step passed on its own replay; the third transient within 24 hours makes it suspect. -/
def noteTransient (s : State) (phys : Nat) : State :=
  let l := s.hutch.transients.filter (fun e => !(e.1 == phys && decide (e.2 + 24 * 57600 < s.cab.opTime))) ++ [(phys, s.cab.opTime)]
  if 3 ≤ (l.filter (fun e => e.1 == phys)).length then
    suspectAndTest { s with hutch := { s.hutch with transients := l.filter (fun e => e.1 != phys) } } (taField phys) (taPlace phys) 3
  else { s with hutch := { s.hutch with transients := l } }

/-- EV_REPLAY with its words (R176). -/
def emitReplay (s : State) (g : Group) (outcome spare : Nat) (detail : Dword) : State :=
  let w := groupWord s g outcome spare
  emitWords (ringReplay s g.field 6 w) evReplay (partNo s g.field) (replayBody w detail)

/-- Table 10.9: the failure of a logical tile as it stood at its first detection: by its guard, else by its shadow's, else in the
replay that ends now. -/
def detection (s : State) (log : Nat) : Detection :=
  match (guardOf s (physOf s log)).seen with
  | some d => d
  | none =>
    match (shadowOfTile s (physOf s log)).bind (fun h => (guardOf s h).seen) with
    | some d => d
    | none => detected s (taField log) (some log)

/-- R167: the tiles of a group that pass on their own replay have suffered transients, but for a droop, an injected failure and an
uncorrectable error. -/
def noteTransients (s : State) (g : Group) (again : List ReplayFail) : State :=
  if g.trigger = 1 then s else
    (g.failed.filter (fun r => g.round.contains r.tile && !g.noted.contains r.tile && !again.any (fun a => a.tile == r.tile) &&
        !injectedFail r && decide (r.cls ≤ clsCompare))).foldl
      (fun s r => (culprits s r.tile).foldl (fun s p =>
        noteTransient (noteCause s p (kindOfClass r.cls) 2 r.word (detection s r.tile)) p) s) s

/-- The group passed on the same tiles (R164, R167). -/
def passSame (s : State) (g : Group) : State :=
  let s : State := noteTransients (emitReplay s g 0 0xFFFFFF (triggerWord g 4 true none)) g []
  setGroup s { g with state := .done }

/-- R128: a tile with a CHECKER failure is quarantined at this seam, with EV_CHECKER_FAULT and its finding. -/
def checkerFault (s : State) (r : ReplayFail) (severity word : Nat) : State :=
  let a := physOf s r.tile
  let seqNo := nextSeqNo s
  let s : State := emitPart s evCheckerFault (partNo s (taField a)) [a, r.word.toNat]
  let s : State := confirmFinding s 4 5 severity a (detection s r.tile) r.word (BitVec.ofNat 64 word) 0 seqNo
  markQuarantined s (taField a) (taPlace a) 2 3

/-- R128, R234: the failed tiles of a lost step that are quarantined whatever becomes of it: those with a CHECKER failure, and
those that need a ninth spare row. -/
def quarantineFailed (s : State) (fails : List ReplayFail) : State :=
  fails.foldl (fun s r =>
    if r.cls = 8 then checkerFault s r 0 0
    else if r.cls = clsSramFull then markQuarantined s (taField (physOf s r.tile)) (taPlace (physOf s r.tile)) 3 3
    else s) s

/-- R171, R272: the tile that a lost step makes suspect: none for an uncorrectable error. -/
def ownSuspect (s : State) (g : Group) (log : Nat) : List Nat :=
  if g.failed.any (fun r => r.tile == log && decide (10 ≤ r.cls)) then [] else [physOf s log]

/-- R171, R277: a tile that a lost step makes suspect is kept with the failure that did so; a spare that failed served no coordinate. -/
def suspectLost (s : State) (g : Group) (p : Nat) : State :=
  let own := g.failed.find? (fun r => physOf s r.tile == p || shadowOfTile s (physOf s r.tile) == some p)
  let moved := g.failed.find? (fun r => g.spares.any (fun e => e.1 == r.tile && e.2 == p))
  let r := (own <|> moved).getD { tile := 0xFFFFFF, cls := 0, word := 0 }
  let kind := if isPair s r.tile then 3 else kindOfClass r.cls
  let s : State := noteCause s p kind 0 r.word (if own.isSome then detection s r.tile else detected s (taField p) none)
  suspectAndTest s (taField p) (taPlace p) 2

/-- A lost group (R171): the tiles named are suspect and queued for Bench, EV_STEP_LOST is committed and the partition is reset. -/
def loseGroup (s : State) (g : Group) (outcome spare : Nat) (suspects : List Nat) (detail : Dword) : State :=
  let s : State := suspects.foldl (fun s p => suspectLost s g p) (quarantineFailed s g.failed)
  let s : State := ringReplay s g.field 6 (groupWord s g outcome spare)
  let s : State := dropGroup s g.id
  loseWith s g.field (groupWord s g outcome spare) detail 4

/-- The failures among a replay's that move to spares find a spare each, or the step is lost (R134, R165, R171). `again` are logical
tiles. -/
def moveToSpares (s : State) (g : Group) (again : List ReplayFail) : State :=
  let s : State := reserveAll s (again.map (·.tile))
  let lone := again.filter (fun r => (reservedSpare s r.tile).isNone)
  if !lone.isEmpty then
    let sus := (lone.filter (fun r => decide (r.cls ≤ clsCompare) && r.cls != 8)).flatMap (fun r => culprits s r.tile)
    loseGroup s g 6 0xFFFFFF sus (triggerWord g 1 true none)
  else
    let spares := g.spares ++ (again.filterMap (fun r => (reservedSpare s r.tile).map (fun u => (r.tile, pa (taField r.tile) u)))).filter
      (fun e => !g.spares.any (fun h => h.1 == e.1))
    let failed := g.failed ++ again.filter (fun r => !g.failed.any (fun h => h.tile == r.tile))
    let g : Group := { g with
      spares := spares, failed := failed, state := .waitSpare, round := g.tiles.filter (fun t => !spares.any (fun e => e.1 == t)),
      field := (failed.head?.map (fun r => taField r.tile)).getD g.field,
      trigger := if g.trigger = 1 then 1 else (failed.head?.map triggerCode).getD g.trigger }
    let s : State := setGroup s g
    if spareReady s g then startCopies s g else s

/-- R128, R166, R234: the failed tile goes straight to its spare, whatever its own replay would show. -/
def straight (r : ReplayFail) : Bool := r.cls == 8 || r.cls == clsSramFull

/-- R164, R166, R169: a failed tile of the group skips its replay on the same tile: by its class, or under SPARE_FIRST, which spares pairs,
injected failures and droops. -/
def skipsSame (s : State) (g : Group) (r : ReplayFail) : Bool :=
  straight r || (g.trigger != 1 && (fieldOf s (taField r.tile)).spareFirst && !injectedFail r && !isPair s r.tile)

/-- A waiting group starts (R156, R162, R166): the failed tiles that skip the replay in place move to their spares at once, and the rest
of the group replays beside them. -/
def startGroup (s : State) (g : Group) : State :=
  let s : State := ringReplay s g.field 5 (groupWord s g 0 0xFFFFFF)
  let skip := g.failed.filter (skipsSame s g)
  if skip.isEmpty then runOwn s { g with round := g.tiles } .same
  else
    let g : Group := { g with spareFirst := decide (skip.length = g.failed.length) }
    moveToSpares (setGroup s g) g skip

/-- R163: a field to which markers of the group's step have gone has still to arrive at the seam that it shares. -/
def awaitsCross (s : State) (g : Group) : Bool :=
  g.fields.any (fun f => (fieldOf s f).crossSent.any (fun h => sharedSeam s f h && (fieldOf s h).run == .running))

/-- A waiting group that can start now: its fields, and those that share its seam, all stand held, and a slot is free. -/
def startable (s : State) (g : Group) : Bool :=
  g.state == .waiting && g.fields.all (isHeld s) && !awaitsCross s g && (g.failed.any (skipsSame s g) || sameSlotFree s g)

/-- Table 6.2: a group that waited for its start has been held until now, or for the `c` cycles of the group whose slot it takes. -/
def afterWait (s : State) (g : Group) (c : Nat) : Group := { g with cycles := max g.cycles (max c (heldSoFar s g.field)) }

/-- R162: the groups in the order of their first failure. -/
def groupOrder (s : State) : List Nat :=
  let key := fun g : Group => match g.failed with | r :: _ => (r.time, r.tile) | [] => (s.now, 0)
  (sortBy (fun a b => decide ((key a).1 < (key b).1) || ((key a).1 == (key b).1 && decide ((key a).2 ≤ (key b).2))) s.groups).map (·.id)

/-- Waiting groups of a field start in their order while slots are free. -/
def startWaiting (s : State) (f c : Nat) : State :=
  (groupOrder s).foldl (fun s id =>
    match findGroup s id with
    | some g => if g.fields.contains f && startable s g then startGroup s (afterWait s g c) else s
    | none => s) s

/-- A group waits for spare-replay slots or a writable version and can have them now. -/
def spareStartable (s : State) (g : Group) : Bool := g.state == .waitSpare && spareReady s g
def startSpares (s : State) (f c : Nat) : State :=
  (groupOrder s).foldl (fun s id =>
    match findGroup s id with
    | some g => if g.fields.contains f && spareStartable s g then startCopies s (afterWait s g c) else s
    | none => s) s

/-! ### Verdicts -/

/-- What the guards of a logical tile have found in its replay in place: the primary's failure, else its shadow's. -/
def againOf (s : State) (log : Nat) : Option ReplayFail :=
  let p := physOf s log
  let of := fun t : Nat => (guardOf s t).again.map (fun a => ({ tile := log, cls := a.1, word := a.2, time := s.now } : ReplayFail))
  match of p with
  | some r => some r
  | none => (shadowOfTile s p).bind of
/-- What the guard of a spare has found. -/
def spareAgain (s : State) (e : Nat × Nat) : Option ReplayFail :=
  (guardOf s e.2).again.map (fun a => { tile := e.1, cls := a.1, word := a.2, time := s.now })

/-- Every tile that replays in this round has reached its seam. -/
def rerunDone (s : State) (g : Group) : Bool :=
  (ownTiles s g).all (fun t => (guardOf s t).redone) && (g.state != .spare || g.spares.all (fun e => (guardOf s e.2).redone))

/-- Table 5.4: how a pair is arbitrated by the three step digests: 1 the primary's result stands and the spare replaces the shadow, 2 the
spare replaces the primary, 0 unresolved. Where a tile's own check did not fail, its digest stands against a partner that failed or
disagreed. -/
def arbitrate (s : State) (log spare : Nat) : Nat :=
  let p := physOf s log
  match shadowOfTile s p with
  | none => 0
  | some h =>
    let a := guardOf s p
    let b := guardOf s h
    let d := (guardOf s spare).digest
    if d = a.digest ∧ (b.ownFail = true ∨ b.digest ≠ a.digest ∨ a.ownFail = false) then 1
    else if d = b.digest ∧ (a.ownFail = true ∨ a.digest ≠ b.digest ∨ b.ownFail = false) then 2
    else 0

/-- A spare is installed at a position by a claim of this seam (R164, R250). -/
def claimInstall (s : State) (f pos u : Nat) : State :=
  let x := fieldOf s f
  let c : Claim := { source := 1, place := pos, expected := ownerOf x pos, owner := u, gen := genOf s (domField f), copied := true }
  modField s f (fun x => { x with claims := x.claims ++ [c] })

/-- One moved tile of a group that passed on its spares; the tile that leaves is suspect, or quarantined for a CHECKER failure or want of
spare rows. -/
def settleMoved (s : State) (g : Group) (word : Nat) (seqNo : Nat) (e : Nat × Nat) : State :=
  let f := taField e.1
  let x := fieldOf s f
  let l := taPlace e.1
  match g.failed.find? (fun r => r.tile == e.1) with
  | none => s
  | some r =>
    let pair := isPair s e.1
    let shadow := pair && decide (arbitrate s e.1 e.2 = 1)
    let pos := if shadow then shadowPos l else posOf x l
    let old := pa f (ownerOf x pos)
    let s : State := claimInstall s f pos (taPlace e.2)
    if r.cls = 8 then checkerFault s r 2 word
    else if r.cls = clsSramFull then markQuarantined s f (taPlace old) 3 3
    else if r.cls = clsSramHeld then s
    else
      let d0 := failWord r (if shadow then 3 else 2) true (some e.2)
      let kind := if pair then 3 else kindOfClass r.cls
      let s : State := noteCause s old kind 2 d0 (detection s e.1)
      let s : State := suspectAndTest s f (taPlace old) 2
      if injectedFail r then s
      else confirmFinding s kind (if pair then 3 else 1) 2 old (detection s e.1) d0 (BitVec.ofNat 64 word) 0 seqNo

/-- The group passed on its spares (R36, R145, R164, R176). -/
def passSpare (s : State) (g : Group) : State :=
  let spare := (triggerFail g).bind (fun r => (g.spares.find? (fun e => e.1 == r.tile)).map (·.2))
  let out := match triggerFail g, spare with
    | some r, some u => if isPair s r.tile && decide (arbitrate s r.tile u = 1) then 3 else 2
    | _, _ => 4
  let seqNo := nextSeqNo s
  let s : State := emitReplay s g 1 (spare.getD 0xFFFFFF) (triggerWord g out true spare)
  let word := groupWord s g 1 (spare.getD 0xFFFFFF)
  let s : State := noteTransients (g.spares.foldl (fun s e => settleMoved s g word seqNo e) s) g []
  setGroup s { g with state := .done }

/-- R168: compiled length of the step that ends at the field's present seam. -/
def compiledLen (s : State) (f : Nat) : Nat :=
  let l := fieldSeams s f
  let i := (fieldOf s f).seam
  ((l[i]?.map (·.pos)).getD 0) - (if i = 0 then 0 else ((l[i - 1]?.map (·.pos)).getD 0))

/-- R168: the replay or the copy in progress has overrun its limit. -/
def overLimit (s : State) (g : Group) : Bool :=
  let run := (s.now - g.since) * (fieldOf s g.field).clock / 1000
  decide ((if g.state = .copying then 13200 else compiledLen s g.field + 4000) < run)

end Sys2Proof.Machine
end

