-- ==== Sys2Proof/Machine/FaultCollect.lean ====
section
/-! DEFINITION. Fault collection: the error trees and acknowledgement (R261 to R268), episodes, rate summaries and storms (R269 to
R276), ECC errors (R234, R263, R272), the droop detector (R169, R366, R367) and signature records (R278 to R282). -/

namespace Sys2Proof.Machine

/-! ### Sources -/

/-- Table 10.1: the source class of a check class of a guard. -/
def sourceClass (cls : Nat) : Nat :=
  if cls = 8 then 1 else if cls = 6 ∨ cls = 7 then 2 else if cls = clsCompare then 3 else if 10 ≤ cls then 5 else 0

/-- What the warden reads of a guard (Tables 10.4 and 10.5). The spec does not say which engine read an SRAM word: MASTER is then a free
value among the three engines. -/
def guardDetail (s : State) (t : Nat) : SourceDetail :=
  let g := guardOf s t
  let c := sourceClass g.cls
  { cls := c, tile := t,
    master := if g.cls = clsScrub then 5 else if c = 5 then freeVal s 3 else if c = 3 then 6 else 0,
    access := if g.cls = clsScrub then 5 else if c = 5 then 1 else if c = 3 then 9 else 0,
    loc := w32 g.instrAddr, detail := g.syndrome }

/-- R36, step 2: the failed tile is latched into the step's list of failures. -/
def noteFailed (s : State) (f t : Nat) : State :=
  match logOf s t with
  | none => s
  | some l =>
    let g := guardOf s t
    modField s f (fun x => { x with
      failed := if x.failed.any (fun r => r.tile == l) then x.failed else x.failed ++ [{ tile := l, cls := g.cls, word := g.syndrome, time := s.now }] })

/-- The guard pin of a tile is latched. -/
def latchGuard (s : State) (f t : Nat) : State :=
  let d := guardDetail s t
  let s : State := if d.cls = 5 then advFree s else s
  let s : State := addSource (noteFailed s f t) f d (guardOf s t).more
  modField s f (fun x => { x with latched := some d })

/-- R236: a router's fault quarantines its tile and loses the step of a running program. -/
def routerFault (s : State) (f : Nat) (d : SourceDetail) : State :=
  let s : State := modTileRec s d.tile (fun r => { r with routerFault := true })
  let s : State := markQuarantined s f (taPlace d.tile) 5 3
  if fieldLoaded s f && (fieldOf s f).lostCause.isNone then lostStep s f 0 3 false 1 0xFFFFFF 0 d.detail 4 else s

/-- The router pin of a tile is latched. -/
def latchRouter (s : State) (f : Nat) (d : SourceDetail) : State :=
  let s : State := addSource s f d 0
  routerFault (modField s f (fun x => { x with latched := some d })) f d

/-- R262: the source that the two roots present: the lowest tile index, the guard before the router of one tile. -/
def nextSource (x : Field) : Option (Sum Nat SourceDetail) :=
  let g := x.guardPins.foldl (fun (m : Option Nat) t => match m with | none => some t | some a => some (min a t)) none
  let r := x.routerPins.foldl (fun (m : Option SourceDetail) d => match m with | none => some d | some a => if d.tile < a.tile then some d else some a) none
  match g, r with
  | some t, some d => if t ≤ d.tile then some (.inl t) else some (.inr d)
  | some t, none => some (.inl t)
  | none, some d => some (.inr d)
  | none, none => none

/-- R169: a recall marker follows an export that has left within the last 32 cycles, or leaves after the signal (DEDUCED, log entry
164). -/
def recallExport (s : State) (f t cycle : Nat) (r : Nat × Nat × List Word) : State :=
  if r.1 + 32 < cycle then s
  else noteCross (sampleHeader (drive s (.recallMark t r.2.1 r.2.2)) f r.2.2) f r.2.1

/-- R169: the detector's signal reaches every guard: the step counts as failed, and the exports of the last 32 cycles are recalled. -/
def droopSignal (s : State) (f cycle : Nat) : State :=
  let x := fieldOf s f
  if x.run ≠ .running ∨ x.droop = true then s
  else
    let s : State := setField s f { x with droop := true }
    (s.guards.filter (fun e => taField e.1 == f)).foldl (fun s e =>
      e.2.recent.foldl (fun s r => recallExport s f e.1 cycle r) s) s

/-- STORM_DECLARE (R273, R274): the sum of the root counts is 64 or more, or DROOP is latched. -/
def stormCheck (s : State) (f rootCount cycle : Nat) (droop : Bool) : State :=
  let storm := match (fieldOf s f).episode with | some e => e.storm | none => false
  if storm || droop || decide (64 ≤ rootCount) then
    let s : State := openStorm s f rootCount droop
    let prog := match (fieldOf s f).episode with | some e => bitAt e.classes 2 | none => false
    if prog then s else droopSignal s f cycle
  else s

def inStorm (x : Field) : Bool := match x.episode with | some e => e.storm | none => false
def epReleased (x : Field) : Bool := match x.episode with | some e => e.released | none => false

/-- ERROR_SOURCE_LATCH (R36, R261 to R268, R273). `rootCount` is the sum of the two roots' counts, `cycle` the cycle of the step. Seam
overrun, deadlock, link resends and droop have rows of their own. -/
def execErrorSourceLatch (f : Nat) (src : ErrSource) (rootCount cycle : Nat) (s : State) : Result :=
  if 84 ≤ f then .fault (.malformed "ERROR_SOURCE_LATCH")
  else
    let x := fieldOf s f
    let up := clocked s && x.warden == .up && !epReleased x
    match src with
    | .guardRoot =>
      if !(up && !x.guardPins.isEmpty && (x.latched.isNone || inStorm x)) then idle s "no guard root rises"
      else if inStorm x then .next (stormCheck s f rootCount cycle false)
      else
        match x.guardPins with
        | t :: _ => .next (stormCheck (latchGuard s f t) f rootCount cycle false)
        | [] => idle s "no guard root rises"
    | .router d =>
      if d.cls ≠ 6 ∨ !physicalOk d.tile ∨ taField d.tile ≠ f then .fault (.malformed "ERROR_SOURCE_LATCH")
      else if !s.feed ∨ x.routerPins.any (fun e => e.tile == d.tile) then idle s "the router's pin stands already"
      else
        let s : State := modField s f (fun x => { x with
          routerPins := x.routerPins ++ [d],
          storm := x.storm.map (fun m => { m with lastRise := s.now, routers := m.routers + 1 }) })
        if !up || x.latched.isSome then .next s
        else if inStorm x then .next (stormCheck s f rootCount cycle false)
        else .next (stormCheck (latchRouter s f d) f rootCount cycle false)
    | .level d =>
      if !(d.cls == 11 || d.cls == 12) then .fault (.malformed "ERROR_SOURCE_LATCH")
      else if !up then idle s "the warden latches no source now"
      else .next (stormCheck (addSource s f d 0) f rootCount cycle false)

/-- SOURCE_ACKNOWLEDGE (R26, R262): the pin is released and the next source of the episode is latched. -/
def execSourceAcknowledge (f : Nat) (s : State) : Result :=
  if 84 ≤ f then .fault (.malformed "SOURCE_ACKNOWLEDGE")
  else
    let x := fieldOf s f
    whenSome s (if clocked s && x.warden == .up then x.latched else none) "no source is being read" fun d =>
      let s : State := modField s f (fun x => { x with latched := none })
      let s : State :=
        if d.cls = 6 then modField s f (fun x => { x with routerPins := x.routerPins.filter (fun e => e.tile != d.tile) })
        else modGuard (modField s f (fun x => { x with guardPins := x.guardPins.filter (· != d.tile) })) d.tile
          (fun g => { g with pin := false })
      let y := fieldOf s f
      if inStorm y || epReleased y then .next s
      else
        match nextSource y with
        | some (.inl t) => .next (latchGuard s f t)
        | some (.inr e) => .next (latchRouter s f e)
        | none => .next s

/-! ### Episodes and storms -/

/-- The field reaches no further seam: idle, held for good, or its step lost. -/
def noMoreSeams (s : State) (f : Nat) : Bool :=
  let x := fieldOf s f
  let held := match fieldPart s f with | some (_, p) => p.heldAll | none => true
  !fieldLoaded s f || x.lostCause.isSome || (x.run != .running && (held || x.quiet || decide ((fieldSeams s f).length ≤ x.seam)))

/-- EPISODE_CLOSE (R266, R269, R271). -/
def execEpisodeClose (f : Nat) (s : State) : Result :=
  if 84 ≤ f then .fault (.malformed "EPISODE_CLOSE")
  else
    let x := fieldOf s f
    let done := x.latched.isNone && ((x.guardPins.isEmpty && x.routerPins.isEmpty) || epReleased x)
    whenOk s (clocked s && x.warden == .up && x.episode.isSome && done && (epReleased x || noMoreSeams s f))
      "the episode is not over" (closeEpisode s f)

/-- RATE_SUMMARY (R271). -/
def execRateSummary (f : Nat) (s : State) : Result :=
  if 84 ≤ f then .fault (.malformed "RATE_SUMMARY")
  else
    let x := fieldOf s f
    whenOk s (clocked s && x.summary.isSome && decide (x.rateSecond < faultSecond s)) "no episode was summarised, or the second runs"
      (sendSummary s f)

/-- Table 10.1: the source class that an entry of a tile ring shows. -/
def entryClass (e : RingEntry) : Option Nat :=
  if e.typ = 3 then some (sourceClass e.arg)
  else if e.typ = 7 then some 4
  else if e.typ = 8 then some 5
  else if e.typ = 10 then some 3
  else none

/-- R275: the ring walk: a guard is a source of a class once in a step; the routers and the field-level sources are those that the
warden has seen (DESIGN CHOICE, log entry 163). -/
def walkCounts (s : State) (f : Nat) (m : Storm) : List Nat :=
  let seen := (s.guards.filter (fun e => taField e.1 == f)).flatMap (fun e =>
    ((e.2.ring.filter (fun r => decide (m.seam0 ≤ r.seam))).filterMap (fun r => (entryClass r).map (fun c => (r.seam, c)))).eraseDups)
  (List.range 13).map (fun c =>
    sat 0xFFFF (if c = 6 then m.routers else if 7 ≤ c then bit01 (bitAt m.classes c) else (seen.filter (fun e => e.2 == c)).length))

/-- STORM_CLOSE (R275): the ring walk has ended and no pin of the field has risen for 1 ms; or the record has been open for 100 ms, and
one marked CONTINUED, which starts now (DESIGN CHOICE, log entry 163), takes its place. -/
def execStormClose (f : Nat) (s : State) : Result :=
  if 84 ≤ f then .fault (.malformed "STORM_CLOSE")
  else
    let x := fieldOf s f
    whenSome s (if clocked s && !(inStorm x && !epReleased x) then x.storm else none) "no storm of the field is open" fun m =>
      let old := decide (m.start + 100000000 ≤ s.now)
      if !old && !(x.guardPins.isEmpty && x.routerPins.isEmpty && decide (m.lastRise + 1000000 ≤ s.now)) then
        idle s "a pin of the field stands, or has risen within 1 ms"
      else
        let ended : Storm := { m with stopped := s.now, counts := walkCounts s f m }
        let next : Option Storm := if old then
            some { noStorm with start := s.now, continued := true, first := m.first, lastRise := m.lastRise, seam0 := x.seam + 1 }
          else none
        let s : State := setField s f { x with storm := next }
        .next { s with storms := s.storms ++ [(f, ended)] }

/-- The closed storms that are merged: those whose first latch lies within 10 us of the earliest (R276). -/
def mergedStorms (s : State) : List (Nat × Storm) :=
  match s.storms with
  | [] => []
  | e :: r =>
    let t := r.foldl (fun m d => min m d.2.start) e.2.start
    s.storms.filter (fun d => decide (d.2.start ≤ t + 10000))
/-- A storm of the same merge is still open in some field. -/
def mergeWaits (s : State) : Bool :=
  let t := (mergedStorms s).foldl (fun m d => min m d.2.start) ((mergedStorms s).head?.map (·.2.start) |>.getD 0)
  s.fields.any (fun e => match e.2.storm with
    | some m => decide (m.start ≤ t + 10000)
    | none => false)

/-- STORM_MERGE_COMMIT (R276): one EV_STORM when the last field of the merge has closed. -/
def execStormMergeCommit (s : State) : Result :=
  let l := mergedStorms s
  whenOk s (clocked s && !l.isEmpty && !mergeWaits s) "no storm waits, or a field of it is open"
    (let stop := l.foldl (fun m e => max m e.2.stopped) 0
     emitWords { s with storms := s.storms.filter (fun e => !l.contains e) } evStorm none (stormWords l stop))

/-! ### ECC -/

/-- The tile serves a coordinate of a field that runs a program. -/
def servesProgram (s : State) (t : Nat) : Bool := (logOf s t).isSome && fieldLoaded s (taField t)
def rowsFull (s : State) (t : Nat) : Bool := decide (8 ≤ (tileRec s t).rows) || decide (65536 ≤ s.hutch.img.rowList.length)

/-- R234: a row of a tile that serves no program is retired at once; a tile without a spare row is quarantined with reason 0x3. -/
def retireNow (s : State) (t row : Nat) : State :=
  match retireRow s (taField t) (taPlace t) row 3 with
  | some u => u
  | none => settleLevel (markQuarantined s (taField t) (taPlace t) 3 3) (taField t) false

/-- R234: a row of a tile in service waits for the field's next seam. -/
def retireAtSeam (s : State) (t row : Nat) : State :=
  modField s (taField t) (fun x => { x with
    rowsDue := if x.rowsDue.any (fun e => e.1 == taPlace t && e.2.1 == row) then x.rowsDue else x.rowsDue ++ [(taPlace t, row, 3)] })

/-- ECC_CORRECTED_NOTICE (R234, R263, R271): counted, entered in the ring; the third correction of a row within 24 hours retires it. -/
def execEccCorrectedNotice (tile row bit : Nat) (s : State) : Result :=
  if !physicalOk tile ∨ 1024 ≤ row ∨ 512 ≤ bit then .fault (.malformed "ECC_CORRECTED_NOTICE")
  else if !s.feed then idle s "no hub feed"
  else
    let s : State := countOf (gring s tile 7 row 0 (BitVec.ofNat 64 bit)) tile (fun c => { c with eccCorr := sat32 (c.eccCorr + 1) })
    let day := ((guardOf s tile).rowUses.filter (fun e => decide (s.cab.opTime ≤ e.2 + 24 * 57600))) ++ [(row, s.cab.opTime)]
    if (day.filter (fun e => e.1 == row)).length < 3 then .next (modGuard s tile (fun g => { g with rowUses := day }))
    else
      let s : State := modGuard s tile (fun g => { g with rowUses := day.filter (fun e => e.1 != row) })
      if !servesProgram s tile then .next (retireNow s tile row)
      else if rowsFull s tile then .next (replaceAtSeam s (taField tile) (taPlace tile) 3 3)
      else .next (retireAtSeam s tile row)

/-- An uncorrectable error behind a failed verdict of the same step decides how the step ends. The SRAM syndrome has no layout in the
spec: it is a free value. -/
def raiseSram (s : State) (t cls loc : Nat) : State :=
  let shut := (guardOf s t).gateShut
  let s : State := advFree (latchFailure s t cls (BitVec.ofNat 64 (freeVal s (2 ^ 64))) loc)
  if shut && cls != clsSramHeld then
    match logOf s t with
    | some l => modField (modGuard s t (fun g => { g with cls := cls })) (taField t) (fun x => { x with failed := x.failed.map (fun r =>
        if r.tile = l then { r with cls := cls } else r) })
    | none => s
  else s

/-- The row of a tile that an error has worn: at the next seam in a tile in service of a program, else at once (R234). -/
def retireWorn (s : State) (t row : Nat) : State := if servesProgram s t then retireAtSeam s t row else retireNow s t row

/-- R272: the class of an uncorrectable error that an engine reads: instruction SRAM, or a row without its start-of-step content, loses
the step; a row that is held in the undo area does not, but moves the step to the spare where the tile has no spare row left. -/
def sramClass (s : State) (t row : Nat) (instr : Bool) : Nat :=
  if instr || !(guardOf s t).undo.any (fun e => e.1 == row) then clsSramLost else if rowsFull s t then clsSramFull else clsSramHeld

/-- What becomes of the SRAM that failed (R234, R272): the tile of an instruction SRAM is quarantined with reason 0xA; a row is retired,
but for one whose tile moves to its spare. -/
def sramWorn (s : State) (t row cls : Nat) (instr : Bool) : State :=
  if instr then settleLevel (markQuarantined s (taField t) (taPlace t) 10 3) (taField t) false
  else if cls = clsSramFull then s
  else retireWorn s t row

/-- ECC_UNCORRECTABLE (R137, R164, R214, R234, R272): an engine reads a word with an uncorrectable error, in an original execution, in a
replay or a re-execution, which then fails, or in a Bench segment. `instr` says that the word is an instruction's. -/
def execEccUncorrectable (tile row byteAddr : Nat) (instr : Bool) (s : State) : Result :=
  if !physicalOk tile ∨ 1024 ≤ row then .fault (.malformed "ECC_UNCORRECTABLE")
  else whenSome s (execOf s tile) "no program executes in the tile" fun m =>
    let loc := if instr then 2 ^ 31 + byteAddr else byteAddr
    let cls := sramClass s tile row instr
    let s : State := gring s tile 8 row 0 (BitVec.ofNat 64 byteAddr)
    match m with
    | .original => .next (sramWorn (raiseSram s tile cls loc) tile row cls instr)
    | .bench => .next (sramWorn (raiseSram s tile clsSramLost loc) tile row clsSramLost instr)
    | _ =>
      let s : State := advFree (failAgain s tile cls (BitVec.ofNat 64 (freeVal s (2 ^ 64))))
      .next (sramWorn s tile row cls instr)

/-- SCRUB_UNCORRECTABLE (R272): in a tile serving a program the step is lost at the next seam; else the row is only retired. -/
def execScrubUncorrectable (tile row : Nat) (s : State) : Result :=
  if !physicalOk tile ∨ 1024 ≤ row then .fault (.malformed "SCRUB_UNCORRECTABLE")
  else if !s.feed then idle s "no hub feed"
  else
    let f := taField tile
    let s : State := gring s tile 8 row 0 (BitVec.ofNat 64 (row * 64))
    if !servesProgram s tile then .next (retireNow s tile row)
    else
      let s : State := retireAtSeam s tile row
      if (fieldOf s f).run = .running then
        .next (noteFailed (raiseSram s tile clsScrub (row * 64)) f tile)
      else if (fieldOf s f).lostCause.isSome then .next s
      else .next (lostStep s f 0 3 false 1 0xFFFFFF 0 0 4)

/-! ### Droop -/

/-- The queued voltage writes of a change that was cancelled are withdrawn. -/
def cancelVcore (s : State) (f : Nat) : State :=
  let left := (tget s.arb.writes [] (zoneOf f)).filter (fun w => !(w.1 == pageOf f 0 && w.2.1 == 0x21))
  { s with arb := { s.arb with writes := tset s.arb.writes (zoneOf f) left } }

/-- R367: a droop aborts a change in progress back to the previous frequency. -/
def abortChange (s : State) (f : Nat) : State :=
  let x := fieldOf s f
  match x.power.change with
  | none => s
  | some c =>
    if c.abort then s
    else
      let back := setpointAt s f c.from_
      let s : State := cancelVcore s f
      let s : State :=
        if c.stage = 0 then
          let s : State := modField s f (fun x => { x with power := { x.power with change := none, lockout := true } })
          if c.wrote then queueVcore s f back else s
        else
          let s : State := modField s f (fun x => { x with power := { x.power with
            change := some { c with abort := true, wrote := false }, lockout := true } })
          if c.stage = 2 then queueVcore s f back else s
      emitWords s evFreqAbort (partNo s f) [w32 (f + c.from_ * 2 ^ 16), w32 (c.dest + back * 2 ^ 16), w32 c.stage, 0]

/-- EV_DROOP, at most once per field per second (R371). -/
def emitDroop (s : State) (f lowestMv : Nat) : State :=
  let x := fieldOf s f
  let sec := s.cab.opTime / 16 + 1
  if x.power.droopSecond = sec then setField s f { x with power := { x.power with droopSkipped := x.power.droopSkipped + 1 } }
  else
    let amps := match x.power.est with
      | e :: _ => ((e.2.getD 0 0) * x.power.kVcore).floor.toNat
      | [] => 0
    emitWords (setField s f { x with power := { x.power with droopSecond := sec, droopSkipped := 0 } }) evDroop (partNo s f)
      [w32 (f + bit01 x.power.change.isSome * 2 ^ 7 + sat16 lowestMv * 2 ^ 16), w32 (x.power.setpoint + x.clock * 2 ^ 16),
       w32 (sat16 amps), w32 x.power.droopSkipped]

/-- DROOP_DETECT (R169, R273, R366 to R368, R371): `lowestMv` is the lowest sensed VCORE, `cycle` the cycle of the step at which the
signal reaches the guards. -/
def execDroopDetect (f lowestMv cycle : Nat) (s : State) : Result :=
  if 84 ≤ f then .fault (.malformed "DROOP_DETECT")
  else
    let x := fieldOf s f
    whenOk s (clocked s && !x.zoneDown && x.warden == .up && !(epReleased x)) "the droop detector does not run"
      (let s : State := latchLevel s f 8 (fieldAddr f) 9 10 0 0
       let s : State := stormCheck s f (x.guardPins.length + x.routerPins.length) cycle true
       let s : State := droopSignal (emitDroop s f lowestMv) f cycle
       let s : State := modField s f (fun x => { x with bench := x.bench.map (fun e => (e.1, { e.2 with drooped := e.2.drooped || e.2.admitted })) })
       abortChange s f)

/-! ### Signature records (R278 to R282) -/

/-- Bytes of a number, low first. -/
def leBytes (n : Nat) (v : Nat) : List Byte := (List.range n).map (fun i => BitVec.ofNat 8 (v >>> (8 * i)))
/-- A GUID in the byte order of UEFI: the first three groups little-endian, the rest as written (PRESUMED, log entry 8). -/
def guidBytes (a b c d : Nat) : List Byte := leBytes 4 a ++ leBytes 2 b ++ leBytes 2 c ++ (leBytes 8 d).reverse

def asciiDigit (n : Nat) : Byte := BitVec.ofNat 8 (48 + n % 10)
def digits3 (n : Nat) : List Byte := [asciiDigit (n / 100), asciiDigit (n / 10), asciiDigit n]
/-- R280: FRUText, padded with NUL to 20 bytes. -/
def fruText (t : Nat) : List Byte :=
  let l := [0x4C#8, 0x46#8, 0x2D#8, 0x33#8, 0x20#8, 0x46#8] ++ digits3 (taField t) ++ [0x20#8, 0x50#8] ++ digits3 (taX t) ++ [0x2C#8] ++
    digits3 (taY t)
  (l ++ List.replicate 20 0).take 20

/-- Table 10.8: the 128-byte header. -/
def cperHeader (s : State) (fd : Finding) (n : Nat) : List Byte :=
  [0x43#8, 0x50#8, 0x45#8, 0x52#8] ++ leBytes 2 0x0101 ++ leBytes 4 0xFFFFFFFF ++ leBytes 2 1 ++ leBytes 4 fd.severity ++
    leBytes 4 (1 + bit01 fd.seen.part.isSome * 4) ++ leBytes 4 392 ++ leBytes 8 0 ++
    (serialBytes s ++ [0x4C#8, 0x46#8, 0x33#8] ++ leBytes 1 s.mfg.stepping) ++
    (leBytes 1 (fd.seen.part.getD 0) ++ leBytes 1 (if fd.seen.part.isSome then fd.seen.tenant else 0) ++ leBytes 14 0) ++
    guidBytes 0x5E9D1A73 0xC204 0x4B6F 0x8A39F17E2D60B4C8 ++ guidBytes 0x2A6F0C95 0x84D1 0x4E37 0x9B526C8E1F3A0D74 ++ leBytes 8 n ++
    leBytes 4 (bit01 (fd.severity == 2 || fd.severity == 3)) ++ leBytes 8 0 ++ leBytes 12 0

/-- R280: the 72-byte section descriptor. -/
def cperDescriptor (fd : Finding) : List Byte :=
  leBytes 4 200 ++ leBytes 4 192 ++ leBytes 2 0x0101 ++ leBytes 1 2 ++ leBytes 1 0 ++ leBytes 4 1 ++
    guidBytes 0x7C2B9E41 0x3A5D 0x4F08 0xB61E0D9A4C35E2F7 ++ leBytes 16 0 ++ leBytes 4 fd.severity ++ fruText fd.phys

/-- Table 10.9: the section body without its signature, 32 words. -/
def findingWords (s : State) (fd : Finding) (unsigned : Bool) : List Word :=
  [w32 (3 + fd.kind * 2 ^ 16 + fd.confirm * 2 ^ 24), w32 (fd.phys + bit01 unsigned * 2 ^ 24), w32 fd.seen.logical,
   w32 (fd.seen.part.getD 0 + fd.seen.tenant * 2 ^ 4 + s.mfg.stepping * 2 ^ 8 + recordedFmax s fd.phys * 2 ^ 16),
   w32 (fusedFmax s fd.phys + fd.seen.clock * 2 ^ 16), w32 (fd.seen.layer + fd.seen.op * 2 ^ 16)] ++ w64 fd.d0.toNat ++ w64 fd.d1.toNat ++
    w64 fd.d2.toNat ++ w64 fd.seen.time ++ [w32 fd.opTime, w32 (fd.opTime / 2 ^ 32 + s.cab.cycles * 2 ^ 8), w32 fd.occ,
    w32 (twos 16 fd.seen.temp + fd.seen.vcore * 2 ^ 16)] ++ w64 fd.eventSeq ++
    [w32 s.mfg.fwVersion, w32 s.mfg.serial, w32 (s.mfg.serial / 2 ^ 32), w32 (s.mfg.serial / 2 ^ 64), w32 s.sig.dropped] ++
    List.replicate 7 0

/-- A 256-bit number as eight words, low first. -/
def words256 (n : Nat) : List Word := (List.range 8).map (fun i => w32 (n / 2 ^ (32 * i)))

/-- R280 to R282: the 98 words of a signature record. -/
def signatureRecord (s : State) (fd : Finding) (n : Nat) : List Word :=
  let key := if s.arm.unsealed then s.arm.identity else none
  let front := wordsOfBytes (cperHeader s fd n ++ cperDescriptor fd) ++ findingWords s fd key.isNone
  match key with
  | none => front ++ List.replicate 16 0
  | some k =>
    let sg := Config.ecdsaSign k (front ++ List.replicate 16 0)
    front ++ words256 sg.1 ++ words256 sg.2

/-- SIGNATURE_SIGNED (R278 to R282): the oldest finding gets its number, is signed, and EV_SIGNATURE is committed. -/
def execSignatureSigned (s : State) : Result :=
  match s.sig.queue with
  | [] => idle s "no finding waits for its signature"
  | fd :: rest =>
    whenOk s (clocked s && s.hang.fwUp) "hub firmware is down"
      (let n := s.hutch.img.nextSig
       let body := signatureRecord s fd n
       let s : State := modImg s (fun i => { i with nextSig := n + 1 })
       let s : State := { s with sig := { s.sig with queue := rest, dropped := 0, lastSig := some n } }
       emitBody s evSignature fd.seen.tenant fd.seen.part (.words body))

end Sys2Proof.Machine
end

