-- ==== Sys2Proof/Machine/Timing.lean ====
section
/-! DEFINITION. Timing lanes (R67, R68, R402 to R404), TIME_ALIGN and its tree (R405 to R407), and the start barrier (R408 to R412). -/

namespace Sys2Proof.Machine

/-! ### Records -/

/-- Table 15.5: EV_TIME_ALIGN of a partition. Kinds 0 and 2 are deferred while the commit queue is long (R489). -/
def emitAlign (s : State) (p : Option Nat) (kind item : Nat) (late : Bool) (time : Int) (rate : Int) (lateNs : Nat) : State :=
  let y := p.bind (partOf s)
  let t := y.bind (·.tree)
  let root := match t with | some r => r.parent.isNone && !r.lost | none => false
  let peers := match t with | some r => (r.peers.map (·.serial)).eraseDups.length | none => 0
  let ws := [w32 (kind + (t.map (·.depth)).getD 0 % 256 * 2 ^ 8 + (y.map (·.job)).getD 0 * 2 ^ 16), w32 (peers + item * 2 ^ 16),
      w32 ((t.map (·.uncert)).getD 0), w32 (bit01 root + bit01 late * 2)] ++ w64 (time % 2 ^ 64).toNat ++
      [w32 (rate % 2 ^ 32).toNat, w32 lateNs]
  let r : Rec := { typ := evTimeAlign, part := p, body := .words ws }
  if (kind = 0 ∨ kind = 2) ∧ 12288 < queueBytes s then { s with cab := { s.cab with deferred := s.cab.deferred ++ [r] } } else arrive s r

/-- EV_TIME_ALIGN of kind 2 for every partition that measures over the lane, or once for none. -/
def emitLane (s : State) (lane : Nat) (restored : Bool) : State :=
  let ps := s.parts.filter (fun e => e.2.ports.contains lane)
  let item := lane + bit01 restored * 2 ^ 15
  if ps.isEmpty then emitAlign s none 2 item false 0 0 0
  else ps.foldl (fun s e => emitAlign s (some e.1) 2 item false 0 0 0) s

/-! ### Rounds (R402, R403) -/

/-- The representative nearest zero of a number, modulo `m`. -/
def nearZero (n : Int) (m : Nat) : Int :=
  let r := n % (m : Int)
  if 2 * r < (m : Int) then r else r - (m : Int)

/-- Offset of a round in quarters of 1 ns, the peer's timestamp minus the local one. The receipt `t4` is stamped in half ns (R67). -/
def roundOffset (t1 t2 t3 t4 : Nat) : Int :=
  let a := nearZero ((t2 : Int) - (t1 : Int)) (2 ^ 40)
  let b := nearZero ((t4 : Int) - 2 * (t3 : Int)) (2 ^ 41)
  nearZero (2 * a - b) (2 ^ 42)
/-- Delay of a round in quarters of 1 ns. -/
def roundDelay (t1 t2 t3 t4 : Nat) : Int :=
  2 * nearZero ((t2 : Int) - (t1 : Int)) (2 ^ 40) + nearZero ((t4 : Int) - 2 * (t3 : Int)) (2 ^ 41)

/-- R403: the lanes to the peers of a tree: one whose offset differs from its peer's median by more than 1 ns is excluded until it
agrees again; each change has its record (R407). -/
def judgeLane (s : State) (lane : Nat) : State :=
  match s.parts.findSome? (fun e => e.2.tree.bind (fun t => if t.peers.any (fun p => p.port == lane) then some t else none)) with
  | none => s
  | some t =>
    let m := hopOffset s t lane
    let x := laneOf s lane
    let d := laneOffset x - m
    let off := decide (1 < (if d < 0 then -d else d)) && !(usablePorts s t lane).isEmpty
    if off = x.excl then s else emitLane (modLane s lane (fun x => { x with excl := off })) lane (!off)

/-- The lanes that measure (R402). -/
def measures (s : State) (lane : Nat) : Bool := s.parts.any (fun e => e.2.ports.contains lane)

def low40 (n : Nat) : Nat := n % 2 ^ 40

/-- Table 2.9: characters 1 to 7 of a frame: type and sequence number, 40 bits of payload, CRC-8 over characters 1 to 6. -/
def frameChars (typ seqNo payload : Nat) : List Byte :=
  let cs := BitVec.ofNat 8 (typ + seqNo * 16) :: (List.range 5).map (fun i => BitVec.ofNat 8 (payload >>> (8 * i)))
  cs ++ [BitVec.ofNat 8 (crc8 cs)]
/-- R67: a frame leaves on a lane. -/
def sendFrame (s : State) (lane typ seqNo payload : Nat) : State := drive s (.frame lane (frameChars typ seqNo payload))
/-- R67, R402: what fills a slot of a lane in which nothing else is sent. -/
def idleFrame : List Byte := frameChars 0 0 0

/-- PROBE_SEND (R67, R402). -/
def execProbeSend (lane : Nat) (s : State) : Result :=
  if 64 ≤ lane then .fault (.malformed "PROBE_SEND")
  else
    whenOk s (clocked s && measures s lane) "the lane measures nothing"
      (let n := (laneOf s lane).seqNo
       let s : State := modLane s lane (fun x => { x with seqNo := (n + 1) % 16, sent := ((n, s.now) :: x.sent.filter (fun e => e.1 != n)).take 16 })
       sendFrame s lane 1 n (low40 s.now))

/-- PROBE_RECEIVE (R67, R402): the receipt, stamped to 0.5 ns (`half`: in the second half of the ns), is kept for the round, and the next
frame is its ECHO. -/
def execProbeReceive (lane : Nat) (seqNo : Nat) (payload : Nat) (half : Bool) (s : State) : Result :=
  if 64 ≤ lane ∨ 16 ≤ seqNo ∨ 2 ^ 40 ≤ payload then .fault (.malformed "PROBE_RECEIVE")
  else
    whenOk s (clocked s && measures s lane) "the lane measures nothing"
      (sendFrame (modLane s lane (fun x => { x with peerProbe := some (seqNo, payload, 2 * s.now + bit01 half) })) lane 2 seqNo (low40 s.now))

/-- ECHO_RECEIVE (R402 to R404, R407): with the peer's last PROBE it makes a round of the lane, where the lane is in sync (R68). -/
def execEchoReceive (lane : Nat) (seqNo : Nat) (payload : Nat) (s : State) : Result :=
  if 64 ≤ lane ∨ 16 ≤ seqNo ∨ 2 ^ 40 ≤ payload then .fault (.malformed "ECHO_RECEIVE")
  else
    let x := laneOf s lane
    if !(clocked s) then idle s "the lane is silent"
    else
      match x.sent.find? (fun e => e.1 == seqNo), x.peerProbe with
      | some (_, t1), some (_, t3, t4) =>
        let s : State := modLane s lane (fun x => { x with sent := x.sent.filter (fun e => e.1 != seqNo) })
        if !x.sync then .next s
        else .next (judgeLane (modLane s lane (fun x => { x with
          rounds := ((((s.now : Nat) : Int), roundOffset t1 payload t3 t4) :: x.rounds).take 1024 })) lane)
      | _, _ => .next s

/-- LANE_SYNC_LOSS (R68, R407). -/
def execLaneSyncLoss (lane : Nat) (s : State) : Result :=
  if 64 ≤ lane then .fault (.malformed "LANE_SYNC_LOSS")
  else
    whenOk s (clocked s && (laneOf s lane).sync) "the lane is not in sync"
      (emitLane (modLane s lane (fun x => { x with sync := false })) lane false)

/-- LANE_SYNC_REGAIN (R68, R407): 64 valid frames in a row. -/
def execLaneSyncRegain (lane : Nat) (s : State) : Result :=
  if 64 ≤ lane then .fault (.malformed "LANE_SYNC_REGAIN")
  else
    whenOk s (clocked s && !(laneOf s lane).sync) "the lane is in sync"
      (emitLane (modLane s lane (fun x => { x with sync := true })) lane true)

/-- LANE_FRAME_CRC_DISCARD (R67): characters 1 to 7 of a frame whose CRC-8 is wrong; the frame is discarded and counted. -/
def execLaneFrameCrcDiscard (lane : Nat) (chars : List Byte) (s : State) : Result :=
  if 64 ≤ lane ∨ chars.length ≠ 7 then .fault (.malformed "LANE_FRAME_CRC_DISCARD")
  else
    whenOk s (clocked s && decide (crc8 (chars.take 6) ≠ ((chars.drop 6).headD 0).toNat)) "the frame's CRC is good"
      (modLane s lane (fun x => { x with crcBad := sat32 (x.crcBad + 1) }))

/-! ### TIME_ALIGN (R405) -/

def portsOf (c : Cmd) : List Nat := (List.range 64).filter (fun i => bitAt (c.w 3 + c.w 4 * 2 ^ 32) i)

/-- TIME_ALIGN (R402, R405, R410): measurement starts on the ports of the mask; it waits while a barrier is armed. -/
def execTimeAlign (q e : Nat) (s : State) : Result :=
  whenSome s (runCmd s q e opTimeAlign) "no running TIME_ALIGN" fun c =>
    match partOf s c.part with
    | none => .next (complete s c stBadParam [])
    | some y =>
      if !reservedOk c [(3, 0xFFFFFFFF), (4, 0xFFFFFFFF), (5, 0xFFFF)] then .next (complete s c stBadParam [])
      else if y.barrier.isSome then idle s "a barrier is armed"
      else
        let fresh := (portsOf c).filter (fun l => !measures s l)
        let s : State := fresh.foldl (fun s l => modLane s l (fun x => { x with rounds := [], sent := [], peerProbe := none, excl := false })) s
        .next (setPart (background s c) c.part { y with ports := portsOf c, job := c.f 5 0 16, aligning := some (q, e) })

/-- R404: uncertainty of a hop in ps: 500 and half the interquartile range (at least 250) of the last 64 rounds of the median lane. The
quartiles are the values at one and three quarters of the ordered rounds. DEDUCED. -/
def hopUncert (s : State) (t : Tree) (l : Nat) : Nat :=
  let rs := sortBy (fun a b => decide (a ≤ b)) (((laneOf s (medianLane s t l)).rounds.take 64).map (·.2))
  let n := rs.length
  let iqr := (rs.getD (3 * n / 4) 0 - rs.getD (n / 4) 0).toNat * 250
  500 + max 250 iqr / 2

/-- The neighbour on the path of least summed uncertainty to the root, the lower port on ties (R405). -/
def bestParent (s : State) (t : Tree) (ps : List PeerInfo) : Option PeerInfo :=
  let cost := fun p : PeerInfo => (p.pathUncert + hopUncert s t p.port) * 64 + p.port
  ps.foldl (fun b p =>
    match b with
    | none => some p
    | some r => if cost p < cost r then some p else some r) none

/-- A tree with its parent chosen. -/
def withParent (s : State) (t : Tree) (o : Option PeerInfo) : Tree :=
  match o with
  | none => t
  | some p =>
    let t : Tree := { t with parent := some p.port, lost := false, above := p.theta, aboveAt := s.now, depth := p.depth + 1,
                             uncert := p.pathUncert + hopUncert s t p.port }
    { t with
      theta := (thetaAt s t (s.now : Int)).floor,
      rate := p.rate - (laneRate (laneOf s (medianLane s t p.port)) * 1000000000).floor }

/-- TIME_ALIGN_TREE_STABLE (R405): the tree of the job is complete; `peers` is what the measured peers with the same job identifier say
of themselves, one entry a port. A port of the mask without a usable lane makes the outcome ST_UNREACHABLE. -/
def execTimeAlignTreeStable (p : Nat) (peers : List PeerInfo) (s : State) : Result :=
  whenSome s (partOf s p) "no such partition" fun y =>
    whenSome s (y.aligning.bind (fun a => findCmd s a.1 a.2)) "no TIME_ALIGN is under way" fun c =>
      if !(clocked s && s.hang.fwUp && peers.all (fun r => y.ports.contains r.port && laneUsable s r.port)) then
        idle s "firmware is down, or a peer is not measured"
      else
        let own := s.mfg.serial
        let root := peers.foldl (fun m r => min m r.rootSerial) own
        let base : Tree := { job := y.job, peers := peers, size := peers.foldl (fun m r => max m r.treeSize) 1 }
        let up := if root = own then none else bestParent s base (peers.filter (fun r => r.rootSerial == root && !r.child))
        let t : Tree := withParent s base up
        let t : Tree := { t with lost := decide (root ≠ own) && up.isNone }
        let s : State := setPart s p { y with tree := some t, aligning := none }
        let s : State := emitAlign s (some p) 0 0 false t.theta t.rate 0
        let res := [w32 (peers.map (·.serial)).eraseDups.length, w32 t.uncert]
        .next (complete s c (if y.ports.all (laneUsable s) then stOk else stUnreachable) res)

/-- PARENT_LOSS (R407): no usable lane leads to the parent; another measured neighbour takes its place, or the wafer has no path to the
root. -/
def execParentLoss (p : Nat) (s : State) : Result :=
  whenSome s (partOf s p) "no such partition" fun y =>
    whenSome s y.tree "the partition has no tree" fun t =>
      whenSome s t.parent "the wafer has no parent" fun l =>
        if !(clocked s && s.hang.fwUp && (usablePorts s t l).isEmpty) then idle s "a usable lane leads to the parent"
        else
          match bestParent s t (t.peers.filter (fun r => laneUsable s r.port && !r.child && !(peerLanes t l).contains r.port)) with
          | some r => .next (setPart s p { y with tree := some (withParent s t (some r)) })
          | none => .next (emitAlign (setPart s p { y with tree := some { t with parent := none, lost := true } }) (some p) 3 0 false 0 0 0)

/-! ### The start barrier (R408 to R411) -/

/-- Children of the tree: one port for each, the lowest. -/
def childPorts (t : Tree) : List Nat :=
  let cs := t.peers.filter (·.child)
  ((cs.map (·.serial)).eraseDups).map (fun n => ((cs.filter (fun r => r.serial == n)).map (·.port)).foldl min 63)

/-- R408 steps 1 and 2: a wafer that is armed and has heard every child sends ARM to its parent; the root sets the release time and
sends it to its children. ARM and RELEASE frames carry sequence number 0 (DESIGN CHOICE, log entry 172). -/
def barrierReady (s : State) (p : Nat) : State :=
  match partOf s p with
  | none => s
  | some y =>
    match y.barrier with
    | none => s
    | some b =>
      let t : Tree := if b.count = 1 then {} else y.tree.getD {}
      let kids := ((t.peers.filter (·.child)).map (·.serial)).eraseDups
      if b.rel.isSome || b.sent || t.lost || !kids.all (fun n => y.arms.contains (n, b.id)) then s
      else
        match t.parent with
        | none =>
          let s : State := setPart s p { y with barrier := some { b with rel := some ((s.now : Int) + 10000) } }
          (childPorts t).foldl (fun s l => sendFrame s l 4 0 (low40 (s.now + 10000))) s
        | some l => sendFrame (setPart s p { y with barrier := some { b with sent := true } }) l 3 0 b.id

/-- BARRIER_ARM (R408, R410, R411). A timeout of 0 is the default of R300. DEDUCED. -/
def execBarrierArm (q e : Nat) (s : State) : Result :=
  whenSome s (runCmd s q e opBarrierArm) "no running BARRIER_ARM" fun c =>
    match partOf s c.part with
    | none => .next (complete s c stBadParam [])
    | some y =>
      let n := c.f 4 0 9
      let size := (y.tree.map (·.size)).getD 1
      if !reservedOk c [(3, 0xFFFF), (4, 0x1FF), (5, 0xFFFFFFFF)] || decide (n = 0) || decide (256 < n) ||
          (decide (n ≠ 1) && (y.tree.isNone || decide (n ≠ size))) then .next (complete s c stBadParam [])
      else if y.barrier.isSome then .next (complete s c stBusy [])
      else
        let limit := if c.w 5 = 0 then 50000 else c.w 5
        let b : Barrier := { id := c.f 3 0 16, count := n, timeout := limit, armedAt := s.now, q := q, e := e }
        .next (barrierReady (setPart (background s c) c.part { y with barrier := some b, waitLimit := some limit }) c.part)

/-- ARM_RECEIVE (R408): a child's ARM is kept until its barrier is armed here. -/
def execArmReceive (lane : Nat) (barrier : Nat) (s : State) : Result :=
  if 64 ≤ lane ∨ 65536 ≤ barrier then .fault (.malformed "ARM_RECEIVE")
  else
    whenOk s (clocked s) "the lane is silent"
      (let hit := s.parts.filterMap (fun e => (e.2.tree.bind (fun t => t.peers.find? (fun r => r.port == lane && r.child))).map
         (fun r => (e.1, r.serial)))
       hit.foldl (fun s h =>
         barrierReady (modPart s h.1 (fun y => { y with arms := if y.arms.contains (h.2, barrier) then y.arms else y.arms ++ [(h.2, barrier)] })) h.1) s)

/-- The aligned time of which a RELEASE carries the low 40 bits, nearest the present (R406). -/
def releaseAligned (s : State) (t : Tree) (low : Nat) : Nat :=
  let n : Int := (toAligned s t s.now : Int)
  (n + nearZero ((low : Int) - n) (2 ^ 40)).toNat

/-- RELEASE_RECEIVE (R406, R408, R409): the release time is converted to local time and forwarded to the children. -/
def execReleaseReceive (lane : Nat) (time : Nat) (s : State) : Result :=
  if 64 ≤ lane ∨ 2 ^ 40 ≤ time then .fault (.malformed "RELEASE_RECEIVE")
  else
    whenOk s (clocked s) "the lane is silent"
      (let hit := s.parts.filterMap (fun e => e.2.tree.bind (fun t => e.2.barrier.bind (fun b => t.parent.bind (fun l =>
         if (peerLanes t l).contains lane && b.sent && b.rel.isNone then some (e.1, t, b) else none))))
       hit.foldl (fun s h =>
         let loc := (toLocal s h.2.1 (releaseAligned s h.2.1 time)).ceil
         let late := ((s.now : Int) - loc).toNat
         let s : State := modPart s h.1 (fun y => { y with barrier := some { h.2.2 with rel := some loc, lateNs := late } })
         (childPorts h.2.1).foldl (fun s l => sendFrame s l 4 0 time) s) s)

/-- BARRIER_RELEASE (R408, R409): at the first edge `edge` of the field clock at or after the local time. -/
def execBarrierRelease (p : Nat) (edge : Nat) (s : State) : Result :=
  whenSome s ((partOf s p).bind (·.barrier)) "no barrier is armed" fun b =>
    whenSome s b.rel "no release time is known" fun t =>
      whenOk s (clocked s && decide (t ≤ (edge : Int))) "the edge is before the release time"
        (let s : State := modPart s p (fun y => { y with barrier := none, arms := y.arms.filter (fun a => a.2 != b.id) })
         let s : State := modFields s (fieldsOfPart s p) (fun x => { x with
           waitBarrier := false, run := if x.atStart then .running else x.run, atStart := false,
           releaseTs := if x.atStart then edge else x.releaseTs })
         let s : State := emitAlign s (some p) 1 b.id (decide (0 < b.lateNs)) (edge : Int) 0 b.lateNs
         match findCmd s b.q b.e with
         | some c => complete s c stOk (w64 edge)
         | none => s)

/-- BARRIER_TIMEOUT (R411): not released within its timeout, the partition is reset at level PART with cause 0x05. -/
def execBarrierTimeout (p : Nat) (s : State) : Result :=
  whenSome s ((partOf s p).bind (·.barrier)) "no barrier is armed" fun b =>
    whenOk s (clocked s && decide (b.armedAt + b.timeout * 1000 ≤ s.now)) "the timeout has not passed" (autoReset s 2 (domPart p) 5)

end Sys2Proof.Machine
end

