-- ==== Sys2Proof/Machine/AbortOps.lean ====
section
/-! DEFINITION. Commands and operations that a reset ends (R96, R290), crash dumps (R312 to R315), and the parts of a reset (R286,
R293 to R296). -/

namespace Sys2Proof.Machine

/-! ### Commands -/

/-- What waits for a command no longer does: barriers, alignments, freezes, latches, claims, comparisons, definitions, resets. -/
def forgetCmd (s : State) (c : Cmd) : State :=
  let mine := fun a : Nat × Nat => a == (c.q, c.e)
  let stops := s.parts.filter (fun e => match e.2.unloading with | some a => mine a | none => false)
  let s : State := modFields s (stops.flatMap (fun e => partFields e.2)) (fun x => { x with stopped := false })
  let parts : Table Part := s.parts.map (fun e => (e.1, { e.2 with
    barrier := e.2.barrier.filter (fun b => !mine (b.q, b.e)), aligning := e.2.aligning.filter (fun a => !mine a),
    freeze := e.2.freeze.filter (fun z => !mine (z.q, z.e)), unloading := e.2.unloading.filter (fun a => !mine a) }))
  let fields : Table Field := s.fields.map (fun e => (e.1, { e.2 with
    latchWait := e.2.latchWait.filter (fun a => !mine a), latchOut := e.2.latchOut.filter (fun a => !mine a),
    releaseDue := e.2.releaseDue.filter (fun r => !mine (r.2.1, r.2.2)),
    claims := e.2.claims.filter (fun k => !(k.source9 == 0 && k.source == 2 && mine (k.q, k.e))) }))
  let defining := c.opcode == opDigestDefine && c.phase == .background
  let contexts : List Context := (s.side.contexts.filter (fun k => !(defining && !k.ready && k.part == c.part && k.num == c.f 3 0 17))).map (dropCmds mine)
  { s with
    parts := parts, fields := fields, side := { s.side with contexts := contexts },
    hang := { s.hang with
      requests := s.hang.requests.filter (fun r => match r.cmd with | some a => !mine a | none => true),
      running := s.hang.running.map (fun r => { r with cmd := r.cmd.filter (fun a => !mine a) }) } }

/-- R96: an in-flight command is aborted with ST_STALE_GEN and the new generation. -/
def abortCmd (s : State) (c : Cmd) : State := complete (forgetCmd s c) c stStaleGen []

/-- R96, Table 11.2: the in-flight commands that a reset aborts, its own RESET command apart. -/
def abortedBy (s : State) (r : ResetRun) : List Cmd :=
  let doms := levelDomains s r.level r.dom
  s.fe.flight.filter (fun c => r.cmd != some (c.q, c.e) &&
    (if r.level = 0 then (let x := slotOf s c.q; decide (domQueue x.owner x.qnum = r.dom)) else r.level == 3 || doms.contains c.dom))

/-- R290: the operations that a reset ends. -/
def endedOps (s : State) (r : ResetRun) : List Op :=
  let doms := levelDomains s r.level r.dom
  s.fe.ops.filter (fun o => o.final.isNone &&
    (if r.level = 0 then (let x := slotOf s o.q; decide (domQueue x.owner x.qnum = r.dom)) else r.level == 3 || doms.contains o.dom))

/-- The record type of an operation's outcome. -/
def outcomeType (o : Op) : Nat := if o.opcode = opBenchRun then evBenchResult else if o.opcode = opTenantScrub then evScrub else evReset

/-- R85, R290: an operation ends with ST_STALE_GEN and the new generation, and its outcome is recorded. -/
def endOp (s : State) (o : Op) : State :=
  let part := if 128 ≤ o.dom ∧ o.dom < 144 then some (o.dom - 128) else if 144 ≤ o.dom ∧ o.dom < 228 then partNo s (o.dom - 144) else none
  finishOp (emitBody s (outcomeType o) o.tenant part (.fields [o.handle, stStaleGen, (genOf s o.dom).toNat])) o.handle stStaleGen []

/-- Operations end; a Bench test that waits for them alone is not run (R226, R290). -/
def endOps (s : State) (l : List Op) : State :=
  let hs := l.map (·.handle)
  let left := fun w : BenchWait => { w with handles := w.handles.filter (fun h => !hs.contains h) }
  let s : State := l.foldl endOp s
  { s with fields := s.fields.map (fun e => (e.1, { e.2 with
      waitTests := (e.2.waitTests.filter (fun w => !(w.trigger == 1 && !w.handles.isEmpty && (left w).handles.isEmpty))).map left })) }

/-! ### Crash dumps -/

/-- The logical tiles of a field whose guards meet a condition, one bit each by place (R313). -/
def tileMap (s : State) (f : Nat) (p : Guard → Bool) : Nat :=
  placeSet ((s.guards.filter (fun e => taField e.1 == f && p e.2 && !isShadow s e.1)).filterMap (fun e => (logOf s e.1).map taPlace))

/-- R313: the first 64 logical tiles of the fields, in row-major order, that have not arrived. -/
def notArrived (s : State) (fs : List Nat) : List Nat :=
  ((fs.flatMap (fun f => (fieldPlaces (fieldOf s f)).map (tileAddr f false))).filter (fun l => !(guardOf s (physOf s l)).arrived)).take 64

/-- What a dump holds of a field: program identifier, seam index, running count, slack account, and the maps of its tiles. -/
def dumpField (s : State) (f : Nat) : List Nat :=
  let x := fieldOf s f
  [f, ((fieldProg s f).map (·.id.toNat)).getD 0, x.seam, x.count, x.charge, tileMap s f (·.arrived), tileMap s f (·.tainted),
   tileMap s f (·.gateShut)]

/-- The tile-guard rings that a dump of tenant 0 holds: those of the sources that the field's episode names; for an overrun or a deadlock,
which name no tile, those of the tiles that have not arrived (DESIGN CHOICE, log entry 167). -/
def namedTiles (s : State) (f : Nat) : List Nat :=
  match (fieldOf s f).episode with
  | none => []
  | some e =>
    let named := ([e.first.tile, e.second, e.last].filter (fun t => taPhys t && t != 0xFFFFFF)).eraseDups
    if e.first.cls = 9 ∨ e.first.cls = 10 then named ++ (notArrived s [f]).map (physOf s) else named

/-- What a dump of tenant 0 adds for a field: its status words, the warden's event ring and the rings of the named tiles (R313). -/
def dumpAdmin (s : State) (f : Nat) : List Nat :=
  let x := fieldOf s f
  [(fsw0 x.episode).toNat, (fsw1 x.episode).toNat, (fsw2 x).toNat] ++ x.ring.flatMap (fun r => [r.1, r.2.1, r.2.2.1] ++ r.2.2.2) ++
    (namedTiles s f).flatMap (fun t => t :: (guardOf s t).ring.flatMap (fun r => [r.typ, r.seam, r.cycle, r.arg, r.detail.toNat]))

/-- R313: what a dump captures of fields and queues, in no order that the spec lays down. A tenant's dump holds logical tiles alone. -/
def dumpContent (s : State) (t level cause : Nat) (fs : List Nat) : List Nat :=
  let queue := fun e : Nat × QSlot => [e.1, e.2.sqHead, e.2.sqTail, e.2.cqHead, e.2.cqTail]
  [t, level, cause] ++ fs.flatMap (dumpField s) ++
    (notArrived s fs).flatMap (fun l => l :: (guardOf s (physOf s l)).engines.map (·.toNat)) ++
    (s.fe.slots.filter (fun e => e.2.owner == t)).flatMap queue ++ (if t = 0 then fs.flatMap (dumpAdmin s) else [])

/-- R312 to R314: a dump is captured for a tenant into the staging buffer; false where none is. -/
def captureDump (s : State) (t level cause : Nat) (fs : List Nat) : State × Bool :=
  if s.drawer.staging.isSome then (emitDump s 2 0 t 0 0, false)
  else if (dumpKey s t).isNone then (emitDump s 1 0 t 0 0, false)
  else
    let body := Config.dumpBody (dumpContent s t level cause fs)
    let d : Dump := {
      tenant := t, cause := cause, level := level, trunc := decide (2097120 < body.length), time := s.now, opTime := s.cab.opTime,
      cycles := s.cab.cycles, nonce := [w32 (Config.freeNat s.free), w32 (Config.freeNat (s.free + 1)), w32 (Config.freeNat (s.free + 2))],
      plain := body.take 2097120, order := s.drawer.count }
    ({ s with free := s.free + 3, drawer := { s.drawer with staging := some d } }, true)

/-! ### Resets -/

/-- Table 11.9: the reset word. -/
def resetWord (level cause target gen : Nat) (escalated dump : Bool) (aborted micros : Nat) : Dword :=
  BitVec.ofNat 64 (level + cause * 2 ^ 3 + target * 2 ^ 8 + gen * 2 ^ 15 + bit01 escalated * 2 ^ 21 + bit01 dump * 2 ^ 22 +
    sat16 aborted * 2 ^ 23 + sat 0xFFFFFF micros * 2 ^ 39)

/-- TARGET of the reset word: the number of the domain within its kind. -/
def resetTarget (level dom : Nat) : Nat :=
  if level = 0 then dom else if level = 1 then dom - 144 else if level = 2 then dom - 128 else 0

/-- Dump of an automatic reset: for the partition's tenant, for tenant 0 at level WAFER, none for a field of no partition. -/
def dumpOfReset (s : State) (r : ResetRun) : State × Bool :=
  if r.cmd.isSome ∨ r.level = 0 ∨ 4 ≤ r.level then (s, false)
  else if r.level = 3 then captureDump s 0 3 r.cause allFields
  else
    match (resetFields s r.level r.dom).findSome? (fieldTenant s) with
    | some t =>
      let fs := match (resetFields s r.level r.dom).head? with
        | some f => (match fieldPart s f with | some (_, x) => partFields x | none => [f])
        | none => []
      captureDump s t r.level r.cause fs
    | none => (s, false)

/-- Partitions whose program a reset takes away (R294, Table 11.3). -/
def droppedParts (s : State) (r : ResetRun) : List Nat :=
  if r.level = 1 then (match fieldPart s (r.dom - 144) with | some (p, x) => if x.prog.isSome then [p] else [] | none => [])
  else if r.level = 2 then [r.dom - 128]
  else if r.level = 3 then s.parts.map (·.1)
  else []

/-- R294: the fields of a partition that a FIELD reset does not cover are held until UNMAP or a PART reset, those in a step at its end
(FIELD_SEAM_ARRIVAL); the program leaves with the last of them. -/
def holdOthers (s : State) (p : Nat) (others : List Nat) : State :=
  let running := others.filter (fun f => (fieldOf s f).run == .running)
  let s : State := modPart s p (fun y => { y with heldAll := !others.isEmpty, gone := true })
  let s : State := (others.filter (fun f => !running.contains f)).foldl endForGood s
  if running.isEmpty then dropProgram s p else s

/-- Steps 2 and 4 of R295 for what a program loses: every field of its partition ends its work and the program is gone. -/
def dropPart (s : State) (r : ResetRun) (p : Nat) : State :=
  let fs := fieldsOfPart s p
  let covered := resetFields s r.level r.dom
  let s : State :=
    if r.level = 1 then holdOthers s p (fs.filter (fun f => !covered.contains f))
    else modPart (dropProgram s p) p (fun y => { y with heldAll := false, barrier := none })
  fs.foldl applySettings s

/-- Steps 1 to 5 of R295 for the fields. -/
def stopFields (s : State) (r : ResetRun) : State :=
  let fs := resetFields s r.level r.dom
  let s : State := discardExports s fs
  let s : State := modFields s fs (fun x => { x with run := if x.run = .held then .held else .gated })
  let s : State := fs.foldl endFieldWork s
  let s : State := (droppedParts s r).foldl (fun s p => dropPart s r p) s
  let s : State := modFields s fs (fun x => { x with stopped := false, quiet := false, atStart := false })
  fs.foldl rewriteTables s

/-- R309: a quiesce ends with a WAFER reset. -/
def endQuiesce (s : State) : State :=
  clearBit { s with
    hang := { s.hang with quiesce := 0, cycleReq := false }, fe := { s.fe with bgQuiesce := false } } tsQuiesced

/-- R482: a CTX reset clears DB_BAD and BAD_COUNT of its queue. -/
def clearQueueFlags (s : State) (dom : Nat) : State :=
  { s with fe := { s.fe with slots := s.fe.slots.map (fun e =>
    if decide (domQueue e.2.owner e.2.qnum = dom) then (e.1, { e.2 with dbBad := false, badCount := 0 }) else e) } }

/-- A reset starts (R286, R288, R290, R293 to R296). -/
def startReset (s : State) (r : ResetRun) (rest : List ResetRun) : State :=
  let doms := levelDomains s r.level r.dom
  let s : State := { s with hang := { s.hang with requests := rest.filter (fun k => k.cmd.isSome || !doms.contains k.dom) } }
  let s : State := bumpGens s doms
  let ended := s.hang.running.filter (fun k => doms.contains k.dom)
  let s : State := { s with hang := { s.hang with running := s.hang.running.filter (fun k => !doms.contains k.dom) } }
  let out := abortedBy s r ++ (ended.filterMap (fun k => k.cmd.bind (fun a => findCmd s a.1 a.2))).filter (fun c => !(abortedBy s r).contains c)
  let d := dumpOfReset s r
  let s : State := out.foldl abortCmd d.1
  let s : State := endOps s (endedOps s r)
  let s : State := { s with hang := { s.hang with
    running := s.hang.running ++ [{ r with dump := d.2, aborted := out.length, started := s.now }] } }
  let s : State := stopFields s r
  if r.level = 3 then endQuiesce s else if r.level = 0 then clearQueueFlags s r.dom else s

end Sys2Proof.Machine
end

