-- ==== Sys2Proof/Machine/Tray.lean ====
section
/-! DEFINITION. The tray interface (R46 to R51), output readback and pin faults (R41 to R45, R470). -/

namespace Sys2Proof.Machine

/-! ### Driven levels (Tables 2.1, 18.8) -/

def pinFaults (s : State) : List PinId :=
  [PinId.alertN, .thermtripN, .pwrcycReqN, .locLed, .fltLed, .svcLed, .attnBtn].filter (fun p => (pinOf s p).fault)

/-- A pin fault on an output other than `p`. -/
def otherOutputFault (s : State) (p : PinId) : Bool := (pinFaults s).any (fun x => x != p && x != .attnBtn)

/-- Table 18.8: FLT_LED. -/
def fltOn (s : State) : Bool :=
  !s.boot.s1 || s.boot.failed || decide (s.arm.locked ≠ 0) || otherOutputFault s .fltLed || tsBit s tsThermtrip ||
    tsBit s tsDegraded

/-- A field excluded (R433) or shut down (R383). -/
def fltBlink (s : State) : Bool := s.fields.any (fun e => e.2.excluded || e.2.therm.shutDone)

/-- A blinking LED is lit for the first half of each period, counted in block time (DESIGN CHOICE, log entry 168). -/
def blinkOn (s : State) (hz : Nat) : Bool := decide (s.now * hz * 2 / 1000000000 % 2 = 0)

/-- Level that the block drives on an output (Tables 2.1, 18.8); none while an open-drain pin is released. -/
def drivenLevel (s : State) (p : PinId) : Option Bool :=
  match p with
  | .alertN => if tsBit s tsAlertAssert then some false else none
  | .thermtripN => if s.arb.trips.isEmpty then none else some false
  | .pwrcycReqN => if s.tray.pwrcycLow then some false else none
  | .locLed => some (if s.panel.blink then blinkOn s 4 else s.panel.locate)
  | .fltLed => if fltOn s then some true else if fltBlink s then some (blinkOn s 1) else some false
  | .svcLed =>
    if tsBit s tsQuiesced then some true
    else if s.hang.quiesce = 1 then some (blinkOn s 1)
    else if s.svc.role.isSome then some (blinkOn s 4)
    else some false
  | .attnBtn => none

/-- R41, R42: the sample disagrees with the driven level. -/
def disagrees (s : State) (p : PinId) (high : Bool) : Bool :=
  match drivenLevel s p with
  | some l => l != high
  | none => false

/-- EV_PIN_FAULT: pin ID, driven level, read level, action (0 released, 1 restored), retry count. -/
def emitPinFault (s : State) (p : PinId) (driven high : Bool) (action retries : Nat) : State :=
  emit s evPinFault [pinKey p, bit01 driven, bit01 high, action, retries]

/-- R43: a fault is declared: the pin is released, recorded, and PIN_FAULT set. -/
def declarePinFault (s : State) (p : PinId) (driven high : Bool) : State :=
  let s : State := setPin s p { confirm := 0, fault := true, retries := 0 }
  raiseBit (emitPinFault s p driven high 0 0) tsPinFault

/-- PIN_FAULT holds while at least one pin of Table 2.3 is in fault. -/
def settlePinFault (s : State) : State := if (pinFaults s).isEmpty then clearBit s tsPinFault else s

/-- PIN_READBACK_SAMPLE (R41, R43): a disagreeing sample starts a confirmation; three further ones declare the fault. -/
def execPinReadbackSample (pin : PinId) (high : Bool) (s : State) : Result :=
  let x := pinOf s pin
  if !(clocked s && pin != .attnBtn && !x.fault) then idle s "the pin is not sampled"
  else if !disagrees s pin high then .next (setPin s pin { x with confirm := 0 })
  else if x.confirm < 3 then .next (setPin s pin { x with confirm := x.confirm + 1 })
  else .next (declarePinFault s pin ((drivenLevel s pin).getD false) high)

/-- PIN_RETRY (R43): every 60 s the pin is driven again for 100 us. -/
def execPinRetry (pin : PinId) (high : Bool) (s : State) : Result :=
  let x := pinOf s pin
  if !(clocked s && pin != .attnBtn && x.fault) then idle s "the pin is not in fault"
  else if disagrees s pin high then .next (setPin s pin { x with retries := x.retries + 1 })
  else
    let s : State := setPin s pin { confirm := 0, fault := false, retries := x.retries }
    .next (settlePinFault (emitPinFault s pin ((drivenLevel s pin).getD high) high 1 x.retries))

/-- ATTN_STUCK (Table 2.3): ATTN_BTN_N low for 60 s is a fault; the press it made is over. -/
def execAttnStuck (s : State) : Result :=
  whenOk s (clocked s && !(pinOf s .attnBtn).fault && (s.panel.pressed || s.panel.ignored)) "the button is not held low"
    (declarePinFault { s with panel := { s.panel with pressed := false, ignored := false, hold4 := false, hold10 := false } }
      .attnBtn true false)

/-- ATTN_FAULT_RECOVER (R44): the input has read high for 1 s. -/
def execAttnFaultRecover (s : State) : Result :=
  whenOk s (clocked s && (pinOf s .attnBtn).fault) "the button input is not faulted" (settlePinFault (setPin s .attnBtn {}))

/-! ### Pads of the NOR and the timing lanes -/

/-- R59: XSPI_RESET_N rises, SFDP is read and the device is switched to 8D-8D-8D; three failed attempts in a row leave it in 1S-1S-1S. -/
def bringNorUp (s : State) (fails : Nat) : State :=
  { s with tray := { s.tray with pads := { s.tray.pads with xspiReset := true, xspiOctal := decide (fails < 3) } } }

/-! ### SMBus target -/

/-- R46, R66: the target executes a write with a good PEC; it is silent without its clock. -/
def smbWrite (s : State) (pecOk : Bool) (t : State) : Result :=
  if !s.feed then idle s "no hub feed" else .next (if pecOk && !s.tray.smbDead then t else s)

/-- SMB_STATUS_CLR (Table 2.5): the W1C bits written as 1 are cleared; ALERT_N is not driven (R49). -/
def execSmbStatusClr (pecOk : Bool) (data : BitVec 16) (s : State) : Result :=
  smbWrite s pecOk (clearStatus s (data &&& tsW1c))

/-- SMB_QUIESCE (Table 2.5, R309): data 0xA5; the same request as the 4 s hold, which needs hub firmware (R468). -/
def execSmbQuiesce (pecOk : Bool) (data : Byte) (s : State) : Result :=
  smbWrite s pecOk (if data = 0xA5 ∧ s.hang.fwUp then startQuiesce s else s)

/-- SMB_LOCATE (Table 2.5, R467): 0x01 on, 0x00 off, other data ignored. -/
def execSmbLocate (pecOk : Bool) (data : Byte) (s : State) : Result :=
  smbWrite s pecOk
    (if data = 0x01 then { s with panel := { s.panel with locate := true } }
     else if data = 0x00 then { s with panel := { s.panel with locate := false } }
     else s)

/-- ALERT_RESPONSE (R49): the block wins arbitration at the Alert Response Address and releases ALERT_N. -/
def execAlertResponse (wins : Bool) (s : State) : Result :=
  if !s.feed then idle s "no hub feed"
  else .next (if wins && !s.tray.smbDead && tsBit s tsAlertAssert then clearBit s tsAlertAssert else s)

/-- SMB_CLOCK_TIMEOUT (R46): a clock held low for more than 25 ms resets the target's bus state. -/
def execSmbClockTimeout (s : State) : Result :=
  whenOk s s.feed "no hub feed" { s with tray := { s.tray with smbActive := false } }

/-! ### CYCLE -/

/-- CYCLE_REQUEST (R307, R308): the request is recorded, pending records are committed, the reason is written to the NOR,
CYCLE_REQ is set, PWRCYC_REQ_N is driven low and all compute is held. -/
def execCycleRequest (s : State) : Result :=
  match s.hang.cycleWant with
  | none => idle s "no CYCLE is asked for"
  | some reason =>
    whenOk s (clocked s) "no hub feed"
      (let s : State := emit s evCycleReq [reason]
       let s : State := commitAll s
       let s : State := { s with
         tray := { s.tray with cycleReason := reason, pwrcycLow := true },
         hang := { s.hang with cycleWant := none, cycleReq := true, running := [], requests := [] } }
       raiseBit (writeSnapshot s) tsCycleReq)

/-- PWRCYC_TIMEOUT (R51): the hub feed has not fallen in 10 s; the line is released and compute stays held (R307). -/
def execPwrcycTimeout (s : State) : Result :=
  whenOk s (clocked s && s.tray.pwrcycLow) "no request is driven"
    (emit (clearBit { s with tray := { s.tray with pwrcycLow := false } } tsCycleReq) evCycleIgnored [s.tray.cycleReason])

end Sys2Proof.Machine
end

