-- ==== Sys2Proof/Machine/Power.lean ====
section
/-! DEFINITION. Power: estimates, replans, frequency changes, PMBus slots, zones, POWER_CAP, OPMODE and CAP_LIMIT (R53 to R57,
R346 to R371). -/

namespace Sys2Proof.Machine

/-- SMB_CAP_LIMIT (Table 2.5, R359): 0 or 60-360 in 100 W, other values ignored. -/
def execSmbCapLimit (pecOk : Bool) (data : BitVec 16) (s : State) : Result :=
  let v := data.toNat
  smbWrite s pecOk
    (if (v = 0 ∨ (60 ≤ v ∧ v ≤ 360)) then
      (let t : State := { s with tray := { s.tray with capCeil := v } }
       if v = s.tray.capCeil then t else emitCapChange t 1 0xFFFF 0)
     else s)

/-! ### SMBus reads (Table 2.5) -/

/-- R390: the highest node 0 among fields in service; 0xFFFF with no field in service. -/
def smbTempMax (s : State) : Nat :=
  match (allFields.filter (fun f => ((fieldOf s f).stage == 7 || (fieldOf s f).reduced) && !(fieldOf s f).excluded)).map
      (fun f => (fieldOf s f).therm.node0) with
  | [] => 0xFFFF
  | t :: rest => ((rest.foldl max t) % 65536).toNat
/-- PANEL: bit 2 for LOC_LED, 3 for FLT_LED, 4 for SVC_LED (DEDUCED, log entry 169); a faulted pin is not driven and shows 0. -/
def smbPanel (s : State) : Nat :=
  let led := fun p : PinId => bit01 ((drivenLevel s p).getD false && !(pinOf s p).fault)
  bit01 s.panel.pressed + bit01 s.panel.lidOpen * 2 + led .locLed * 4 + led .fltLed * 8 + led .svcLed * 16
/-- IDENT: stepping, firmware version, wafer serial. -/
def smbIdent (s : State) : List Byte :=
  [BitVec.ofNat 8 s.mfg.stepping] ++ (List.range 3).map (fun i => BitVec.ofNat 8 (s.mfg.fwVersion >>> (8 * i))) ++ serialBytes s

/-- The values as firmware refreshes them. -/
def freshView (s : State) : SmbView :=
  { tempMax := smbTempMax s, power := sat16 (tenWatts s.arb.estimate), reason := s.tray.cycleReason, panel := smbPanel s,
    ident := smbIdent s }
/-- R47: firmware goes down; what it refreshed last stays readable for 10 ms. -/
def firmwareDown (s : State) : State :=
  { s with
    tray := { s.tray with view := if s.hang.fwUp then some (s.now, freshView s) else s.tray.view },
    hang := { s.hang with fwUp := false } }
/-- R47: the values that the target returns now: none older than 10 ms. -/
def smbView (s : State) : Option SmbView :=
  if s.hang.fwUp then some (freshView s)
  else match s.tray.view with
    | some (t, v) => if s.now ≤ t + 10000000 then some v else none
    | none => none

/-- A number as so many bytes, low first (Read Byte, Read Word). -/
def smbBytes (n k : Nat) : List Byte := (List.range k).map (fun i => BitVec.ofNat 8 (n >>> (8 * i)))

/-- Table 2.5: the data of a read command: 0xFF or 0xFFFF for a value that is too old; none for a code that is no read command. -/
def smbData (s : State) (code : Nat) : Option (List Byte) :=
  let v := smbView s
  if code = 0x00 then some (smbBytes s.tray.status.toNat 2)
  else if code = 0x02 then some (smbBytes (stageByte s) 1)
  else if code = 0x03 then some (smbBytes s.hang.hbCount 1)
  else if code = 0x04 then some (smbBytes ((v.map (·.tempMax)).getD 0xFFFF) 2)
  else if code = 0x05 then some (smbBytes ((v.map (·.power)).getD 0xFFFF) 2)
  else if code = 0x06 then some (smbBytes ((v.map (·.reason)).getD 0xFF) 1)
  else if code = 0x07 then some (smbBytes ((v.map (·.panel)).getD 0xFF) 1)
  else if code = 0x30 then some (16#8 :: (v.map (·.ident)).getD (List.replicate 16 0xFF#8))
  else none

/-- R46: the target's 7-bit address, by the strap. -/
def smbAddress (s : State) : Nat := if s.tray.smbAddrHigh then 0x5B else 0x5A

/-- R46, R66: what the target answers to a read: the data and the PEC over address, command, address and data (SMBus 3.1: PRESUMED, log
entry 170); nothing without its clock. -/
def smbRead (s : State) (addr code : Nat) : Option (List Byte) :=
  if !clocked s || s.tray.smbDead || decide (addr ≠ smbAddress s) then none
  else (smbData s code).map (fun d =>
    d ++ [BitVec.ofNat 8 (crc8 ([BitVec.ofNat 8 (2 * addr), BitVec.ofNat 8 code, BitVec.ofNat 8 (2 * addr + 1)] ++ d))])

/-! ### Estimates -/

/-- Entries not older than `ns` before now. -/
def recentOf (s : State) (ns : Nat) (l : List (Nat × List Rat)) : List (Nat × List Rat) :=
  l.filter (fun e => decide (s.now ≤ e.1 + ns))

def kOf (x : FieldPower) (kind : Nat) : Rat := if kind = 0 then x.kVcore else if kind = 1 then x.kVsram else x.kVlink
def withK (x : FieldPower) (kind : Nat) (k : Rat) : FieldPower :=
  if kind = 0 then { x with kVcore := k } else if kind = 1 then { x with kVsram := k } else { x with kVlink := k }

/-- Volts of a rail of a field. -/
def railVoltage (x : Field) (kind : Nat) : Rat :=
  if kind = 0 then ((x.power.setpoint : Nat) : Rat) / 1000 else Config.railVolts kind

/-- R364: an excess window on a rail. -/
def noteExcess (s : State) (f kind : Nat) : State :=
  let s : State := modField s f (fun x => { x with power := { x.power with excess := x.power.excess + 1 } })
  let x := fieldOf s f
  if kind = 2 ∨ x.power.lockout ∨ !fieldLoaded s f then s
  else if fieldOpmode s f ≠ 0 ∨ x.clock ≤ 600 then
    setField s f { x with power := { x.power with excessLost := some (3 * f + kind) } }
  else
    setField s f { x with power := { x.power with excessDue := if x.power.excessSeen then x.power.excessDue + 1 else 1 } }

/-- ESTIMATE_PERIOD (R350, R351, R354, R364): one 250 ns estimate of the three rails, and the 2 us windows they end. -/
def execEstimatePeriod (f : Nat) (act : Activity) (s : State) : Result :=
  if 84 ≤ f then .fault (.malformed "ESTIMATE_PERIOD")
  else
    let x := fieldOf s f
    if !(clocked s && x.warden == .up && !x.zoneDown) then idle s "the warden does not run"
    else
      let raw := [(0, act.vcore), (1, act.vsram), (2, act.vlink)].map (fun e =>
        Config.railCurrent s.mfg.stepping e.1 x.power.setpoint x.therm.node0 e.2)
      let cal := raw.zipIdx.map (fun e => e.1 * kOf x.power e.2)
      let watts := cal.zipIdx.map (fun e => e.1 * railVoltage x e.2)
      let est := (s.now, raw) :: recentOf s 1000000 x.power.est
      let wins := [0, 1, 2].map (fun k => ratMean ((est.take 8).map (fun e => e.2.getD k 0)) * kOf x.power k)
      let full := decide (8 ≤ est.length)
      let settled := match fieldPart s f with
        | some (_, p) => decide (p.railTime + 10000000 ≤ s.now)
        | none => true
      let s : State := setField s f { x with power := { x.power with
        est := est, watts := (s.now, watts) :: recentOf s 1000000 x.power.watts,
        peak := if full then (s.now, wins) :: recentOf s 1000000000 x.power.peak else recentOf s 1000000000 x.power.peak,
        excessSeen := x.power.excessSeen && !settled } }
      let excess := [0, 1, 2].filter (fun k => full && decide (railLimit s (3 * f + k) < wins.getD k 0))
      let s : State := excess.foldl (fun s k => noteExcess s f k) s
      .next { s with arb := { s.arb with estimate := waferWatts s } }

/-- ARBITER_REPLAN (R353, R360 to R363). -/
def execArbiterReplan (s : State) : Result := whenOk s (clocked s && !s.arb.hubOff) "the arbiter is off" (replan s)

/-- FREQ_CHANGE_END (R357): 100 us after the last action of the change it is over. -/
def execFreqChangeEnd (f : Nat) (s : State) : Result :=
  let x := fieldOf s f
  match x.power.change with
  | none => idle s "no change in progress"
  | some c =>
    whenOk s (decide (f < 84) && clocked s && !c.abort &&
        ((decide (c.from_ < c.dest) && decide (c.stage = 1) && decide (c.switchedAt + 100000 ≤ s.now)) ||
          (decide (c.stage = 2) && decide (c.wroteAt + 100000 ≤ s.now))))
      "the change has actions left, or its 100 us have not passed" (setField s f { x with power := { x.power with change := none } })

/-- DROOP_LOCKOUT_END (R367): 10 ms after the abort the field takes frequency changes again. -/
def execDroopLockoutEnd (f : Nat) (s : State) : Result :=
  let x := fieldOf s f
  whenOk s (decide (f < 84) && clocked s && x.power.lockout) "no lockout"
    (setField s f { x with power := { x.power with lockout := false } })

/-! ### PMBus -/

/-- What the next slot of a segment does (R55): clearing faults of a finished round, a STATUS_WORD round while PMB_ALERT_N is
low, a waiting write, or a calibration read. -/
inductive PmbusTurn where
  | clearFaults (page : Nat)
  | readStatus (page : Nat)
  | write (page cmd value : Nat)
  | calibrate (page : Nat)
deriving DecidableEq, Repr

/-- The calibration read of a segment's next page. -/
def calibrateTurn (s : State) (z : Nat) : PmbusTurn := .calibrate (tget s.arb.segPage 0 z % zonePages z)

/-- R57: a clearing or a write that failed and was retried once gives its slot to a calibration read. -/
def retried (s : State) (z : Nat) : Bool := decide (tget s.arb.segFails 0 z = 2)

def pmbusTurn (s : State) (z : Nat) (alertLow : Bool) : PmbusTurn :=
  match tfind s.arb.segStatus z with
  | some left => .readStatus (zonePages z - left)
  | none =>
    match tget s.arb.segFault [] z with
    | p :: _ => if retried s z then calibrateTurn s z else .clearFaults p
    | [] =>
      if alertLow then .readStatus 0
      else
        match tget s.arb.writes [] z with
        | (p, c, v) :: _ => if retried s z then calibrateTurn s z else .write p c v
        | [] => calibrateTurn s z

/-- CALIBRATION_UPDATE (R352, R353): the factor moves an eighth of the way to reading / mean estimate, within 0.50-2.00. -/
def calibrate (s : State) (z page : Nat) (amps : Rat) : State :=
  let f := fieldOfPage z page
  let kind := page % 3
  let x := fieldOf s f
  let mean := ratMean ((recentOf s 100000 x.power.est).map (fun e => e.2.getD kind 0))
  if mean ≤ 0 then s
  else
    let k := kOf x.power kind
    let k' := k + (amps / mean - k) / 8
    let out := decide (k' < 1 / 2) || decide (2 < k')
    let p := withK x.power kind (max (1 / 2) (min 2 k'))
    setField s f { x with power := { p with kOut := if out && !p.kOut.contains kind then p.kOut ++ [kind] else p.kOut } }

/-- PMBUS_SEGMENT_FAIL (R57, R353): the segment is declared failed; the factors of its zone freeze at 1.20 times. -/
def failSegment (s : State) (z : Nat) : State :=
  let s : State := { s with arb := { s.arb with segDown := s.arb.segDown ++ [z], segFails := tset s.arb.segFails z 0 } }
  let s : State := modFields s (zoneFields z) (fun x => { x with power := { x.power with
    kVcore := x.power.kVcore * 6 / 5, kVsram := x.power.kVsram * 6 / 5, kVlink := x.power.kVlink * 6 / 5 } })
  emit (raiseBit s tsPmbusFail) evPmbusFail [z]

/-- A read that failed twice is dropped: its page is passed over. -/
def passOver (s : State) (z : Nat) (turn : PmbusTurn) : State :=
  match turn with
  | .calibrate p => { s with arb := { s.arb with segPage := tset s.arb.segPage z ((p + 1) % zonePages z) } }
  | .readStatus p =>
    let left := zonePages z - p - 1
    { s with arb := { s.arb with segStatus := if left = 0 then tdel s.arb.segStatus z else tset s.arb.segStatus z left } }
  | _ => s

/-- R57: one more failed transaction in a row: the first is retried in the next slot, the third declares the segment failed. -/
def failSlot (s : State) (z : Nat) (turn : PmbusTurn) : State :=
  let n := tget s.arb.segFails 0 z + 1
  if n = 3 then failSegment s z
  else
    let s : State := { s with arb := { s.arb with segFails := tset s.arb.segFails z n } }
    if n = 2 then passOver s z turn else s

/-- A voltage write was acknowledged: the field's setpoint and the change that waited for it (R357). -/
def wroteVcore (s : State) (f mv : Nat) : State :=
  modField s f (fun x => { x with power := { x.power with
    setpoint := mv,
    change := x.power.change.map (fun c =>
      { c with wrote := true, wroteAt := s.now, stage := if c.stage = 1 ∧ c.dest < c.from_ then 2 else c.stage }) } })

/-- The transaction of a slot succeeded with a reply that fits it; none for a reply of another transaction. -/
def slotDone (s : State) (z : Nat) (turn : PmbusTurn) (reply : PmbusReply) : Option State :=
  let s : State := { s with arb := { s.arb with segFails := tdel s.arb.segFails z } }
  match turn, reply with
  | .clearFaults p, .acked =>
    some (drive { s with arb := { s.arb with segFault := tset s.arb.segFault z ((tget s.arb.segFault [] z).drop 1) } }
      (.pmbus z p 0x03 0))
  | .readStatus p, .status w =>
    let left := zonePages z - p - 1
    let s : State := { s with arb := { s.arb with
      segStatus := if left = 0 then tdel s.arb.segStatus z else tset s.arb.segStatus z left,
      segFault := if w = 0 then s.arb.segFault else tset s.arb.segFault z (tget s.arb.segFault [] z ++ [p]) } }
    some (drive s (.pmbus z p 0x79 0))
  | .write p c v, .acked =>
    let s : State := { s with arb := { s.arb with writes := tset s.arb.writes z ((tget s.arb.writes [] z).drop 1) } }
    let s : State := if c = 0x21 then wroteVcore s (fieldOfPage z p) v else s
    some (drive s (.pmbus z p c v))
  | .calibrate p, .iout a =>
    let s : State := calibrate s z p a
    some (drive { s with arb := { s.arb with segPage := tset s.arb.segPage z ((p + 1) % zonePages z) } } (.pmbus z p 0x8C 0))
  | _, _ => none

/-- PMBUS_SLOT (R53, R55, R57): one 100 us slot of a segment. -/
def execPmbusSlot (seg : Nat) (alertLow : Bool) (reply : PmbusReply) (s : State) : Result :=
  if 8 ≤ seg then .fault (.malformed "PMBUS_SLOT")
  else if !(clocked s && !s.arb.hubOff && !s.arb.segDown.contains seg) then idle s "the segment is not driven"
  else
    match reply with
    | .failed => .next (failSlot s seg (pmbusTurn s seg alertLow))
    | r =>
      match slotDone s seg (pmbusTurn s seg alertLow) r with
      | some t => .next t
      | none => .fault (.malformed "PMBUS_SLOT")

/-- PMBUS_SEGMENT_RETRY (R57): once every second a failed segment is tried again. -/
def execPmbusSegmentRetry (seg : Nat) (reply : PmbusReply) (s : State) : Result :=
  if !(clocked s && !s.arb.hubOff && s.arb.segDown.contains seg) then idle s "the segment is not failed"
  else
    match reply with
    | .failed => .next s
    | _ => .next { s with arb := { s.arb with segDown := s.arb.segDown.filter (· != seg), segFails := tdel s.arb.segFails seg } }

/-! ### Zones (R369) -/

/-- EV_ZONE_PGOOD. -/
def emitZone (s : State) (z : Nat) (level : Bool) : State :=
  let fs := zoneFields z
  let mask := (s.parts.map (fun e => if (partFields e.2).any (fun f => fs.contains f) then 2 ^ e.1 else 0)).sum
  emitWords s evZonePgood none ([w32 (z + bit01 level * 2 ^ 8), w32 mask] ++ w64 s.now)

def setPgood (s : State) (z : Nat) (v : Bool) : State :=
  let l := (s.arb.pgood ++ List.replicate 8 true).take 8
  { s with arb := { s.arb with pgood := l.set z v } }

/-- R450, Table 17.7: fields of a zone that loses power-good before their full service are excluded with cause 0x09, each stage
with its report. -/
def excludeLost (s : State) (fs : List Nat) : State :=
  if s.boot.stage < 2 then s
  else
    [2, 3, 4, 5, 6].foldl (fun s n =>
      let out := fs.filter (fun f => (fieldOf s f).stage == n && !(fieldOf s f).excluded)
      if out.isEmpty then s
      else emitStage (excludeFields s out n 9) n false (if n < 4 then 0xFF else s.boot.wave - 1) 9 (stageMs s) [] out []) s

/-- R302: a replay group runs in the field. -/
def groupRuns (s : State) (f : Nat) : Bool := s.groups.any (fun g => g.fields.contains f && g.state != .done)

/-- R302: the wardens of those fields stop; a replay that one of them ran is lost. -/
def stopWardens (s : State) (fs : List Nat) : State :=
  let hit := fs.filter (groupRuns s)
  let s : State := modFields s fs (fun x => { x with warden := if x.warden = .off then .off else .inReset, beats := 0, latched := none, link := [] })
  hit.foldl (fun s g =>
    if fieldLoaded s g then lostStep s g 0 5 false (max 1 (fieldOf s g).failed.length) 0xFFFFFF 0 ((((fieldOf s g).failed.head?).map (·.word)).getD 0) 4
    else autoReset s 1 (domField g) 8) s

/-- R32: the odd wardens whose even partners lie among those fields, and which do not lie there themselves. -/
def oddPartners (fs : List Nat) : List Nat := (fs.filter (fun f => f % 2 == 0 && !fs.contains (f + 1))).map (· + 1)

/-- R32, R437: a field begins S2; its warden starts, an odd one only with its partner. -/
def startWarden (s : State) (f : Nat) : State :=
  let on := partnerOn s f
  modField s f (fun x => { x with stage := 2, warden := if on then .starting else .off, starts := 0 })

/-- R28: VLINK of F(5,3), in zone 1, and of F(6,3), in zone 2, supply the hub feed. -/
def feedGone (s : State) : Bool := !(s.arb.pgood.getD 1 true) && !(s.arb.pgood.getD 2 true)

/-- ZONE_PGOOD_LOSS (R28, R29, R32, R369): with zones 1 and 2 both without power the hub feed is lost; else the zone's fields and wardens are without power; partitions with a field in it lose their
step. -/
def execZonePgoodLoss (z : Nat) (s : State) : Result :=
  if 8 ≤ z then .fault (.malformed "ZONE_PGOOD_LOSS")
  else
    let fs := zoneFields z
    whenOk s (clocked s && fs.any (fun f => !(fieldOf s f).zoneDown)) "the zone has no power-good already"
      (let s : State := setPgood s z false
       let s : State := modFields s fs (fun x => { x with zoneDown := true, warden := .off, beats := 0, run := .gated, link := [] })
       let s : State := stopWardens s (oddPartners fs)
       let hit := (loadedParts s).filterMap (fun e => (partFields e.2).find? (fun f => fs.contains f))
       let s : State := hit.foldl (fun s f => lostStep s f 0 3 false 0 0xFFFFFF 0 0 4) s
       let s : State := emitZone (excludeLost s fs) z false
       if feedGone s then loseFeed s else s)

/-- R450: an odd field that stood excluded for want of its partner's power. -/
def waitedForPartner (s : State) (f : Nat) : Bool := !(fieldOf s f).zoneDown && (fieldOf s f).excluded && decide ((fieldOf s f).exclCause = 9)

/-- ZONE_PGOOD_RETURN (R32, R369): after 100 ms high, the zone's fields go through S2 to S6 again. -/
def execZonePgoodReturn (z : Nat) (s : State) : Result :=
  if 8 ≤ z then .fault (.malformed "ZONE_PGOOD_RETURN")
  else
    let fs := zoneFields z
    whenOk s (clocked s && fs.any (fun f => (fieldOf s f).zoneDown)) "the zone has power-good"
      (let s : State := setPgood s z true
       let back := (fs.filter (fun f => !(fieldOf s f).excluded || decide ((fieldOf s f).exclCause = 9)) ++
         (oddPartners fs).filter (waitedForPartner s)).filter (fun _ => decide (2 ≤ s.boot.stage))
       let s : State := modFields s fs (fun x => { x with zoneDown := false, run := .idle })
       let s : State := back.foldl (fun s f => modField (startWarden s f) f (fun x => { x with excluded := false, exclCause := 0 })) s
       let s : State := { s with boot := { s.boot with redo := s.boot.redo ++ back.map (fun f => (f, 2)) } }
       emitZone s z true)

/-! ### Opcodes -/

/-- R365: the projected highest window of the last second of a rail. -/
def windowFloor (s : State) (rail : Nat) : Rat :=
  let f := rail / 3
  let x := fieldOf s f
  let top := (recentOf s 1000000000 x.power.peak).foldl (fun m e => max m (e.2.getD (rail % 3) 0)) 0
  if rail % 3 = 2 ∨ fieldOpmode s f ≠ 0 then top
  else Config.scaleDraw (x.clock, x.power.setpoint) (600, setpointAt s f 600) top

/-- The ceiling that a new rail limit asks for: the highest rung whose projected window is under it. -/
def limitCeil (s : State) (rail : Nat) : Nat :=
  let f := rail / 3
  let x := fieldOf s f
  let top := (recentOf s 1000000000 x.power.peak).foldl (fun m e => max m (e.2.getD (rail % 3) 0)) 0
  let fits := fun r => decide (Config.scaleDraw (x.clock, x.power.setpoint) (r, setpointAt s f r) top ≤ railLimit s rail)
  if top ≤ railLimit s rail then 0 else ((rungsUpTo x.clock).find? fits).getD 600

/-- POWER_CAP sets a rail limit; the arbiter plans the ceiling it needs. -/
def setRailLimit (s : State) (rail lim : Nat) : State :=
  let f := rail / 3
  let s : State := modField s f (fun x => { x with power := { x.power with
    limits := if lim = 0 then tdel x.power.limits (rail % 3) else tset x.power.limits (rail % 3) lim } })
  let s : State := emitCapChange s 2 rail (railLimitA s rail)
  let c := limitCeil s rail
  match fieldPart s f with
  | some (p, x) =>
    if x.prog.isSome ∧ x.opmodeRun = 0 ∧ c ≠ 0 ∧ rail % 3 ≠ 2 then
      modPart s p (fun y => { y with railCeil := lowCeil y.railCeil c, railTime := s.now })
    else s
  | none => s

/-- POWER_CAP (R359, R363, R365, R368). -/
def execPowerCap (q e : Nat) (s : State) : Result :=
  whenSome s (runCmd s q e opPowerCap) "no running POWER_CAP" fun c =>
    let cap := c.f 3 0 16
    let rail := c.f 4 0 16
    let lim := c.f 4 16 16
    let given := decide (lim ≠ 0xFFFF)
    if !reservedOk c [(3, 0xFFFF), (4, 0xFFFFFFFF)] || !(decide (cap = 0) || (decide (600 ≤ cap) && decide (cap ≤ 3600))) ||
        (given && (decide (252 ≤ rail) || decide (boardMax s rail < ((lim : Nat) : Rat)))) then
      .next (complete s c stBadParam [])
    else if (cap ≠ 0 ∧ ((cap * 10 : Nat) : Rat) < floorWatts s) ∨
        (given = true ∧ lim ≠ 0 ∧ ((lim : Nat) : Rat) < windowFloor s rail) then
      let s : State := emitWords s evCapUnreachable none
        [w32 (cap + tenWatts (floorWatts s) * 2 ^ 16), w32 ((if given then rail else 0xFFFF) + lim * 2 ^ 16), w32 1, 0]
      .next (complete s c stUnreachable [w32 (capInForce s)])
    else
      let old := capInForce s
      let s : State := { s with arb := { s.arb with cap := cap } }
      let s : State := if capInForce s = old then s else emitCapChange s 0 0xFFFF 0
      let s : State := if given then setRailLimit s rail lim else s
      let s : State := replan s
      let waits := allFields.filter (fun f => match (fieldOf s f).power.change with
        | some ch => decide (ch.dest < ch.from_) && decide (ch.stage = 0)
        | none => false)
      .next (applyAt s c waits stOk [w32 (capInForce s)])

/-- OPMODE (R358): takes effect at the next MAP_GRID LOAD. -/
def execOpmode (q e : Nat) (s : State) : Result :=
  whenSome s (runCmd s q e opOpmode) "no running OPMODE" fun c =>
    match partOf s c.part with
    | none => .next (complete s c stBadParam [])
    | some x =>
      if !reservedOk c [(3, 3)] || decide (c.f 3 0 2 = 3) then .next (complete s c stBadParam [])
      else if x.prog.isSome then .next (complete s c stBusy [])
      else .next (complete (setPart s c.part { x with opmode := c.f 3 0 2 }) c stOk [w32 x.opmode])

end Sys2Proof.Machine
end

