-- ==== Sys2Proof/Machine/Replay.lean ====
section
/-! DEFINITION. Arrival at a seam (R21 to R23), the rows of step replay (R156 to R176), route-table versions (R249) and spot checks
(R136 to R140). -/

namespace Sys2Proof.Machine

/-! ### FIELD_SEAM_ARRIVAL -/

/-- R162: the failed tiles of the step: those that the warden has latched, in their order, then any further shut gate in index
order. -/
def failedTiles (s : State) (f : Nat) : List ReplayFail :=
  let x := fieldOf s f
  let more := s.guards.filterMap (fun e =>
    if taField e.1 == f && e.2.gateShut && !e.2.underTest then
      match logOf s e.1 with
      | some l => if x.failed.any (fun r => r.tile == l) then none else some { tile := l, cls := e.2.cls, word := e.2.syndrome, time := s.now }
      | none => none
    else none)
  x.failed ++ more

/-- R170: HOLD_OVF or INBOUND_ORDER in the step of a tile of a logical address. -/
def notReplayable (s : State) (log : Nat) : Bool :=
  let p := physOf s log
  let bad := fun t : Nat => (guardOf s t).holdOvf || (guardOf s t).inbound
  bad p || (match shadowOfTile s p with | some h => bad h | none => false)

/-- R170, R272: the step of the field is lost without a replay: 1 a program fault, 2 not replayable, 0 neither. -/
def lostAtSeam (s : State) (f : Nat) : Nat :=
  let x := fieldOf s f
  if x.noReplay then 1
  else if x.failed.any (fun r => r.cls == clsSramLost || r.cls == clsScrub) then 2
  else
    let tiles := if x.droop then (s.guards.filter (fun e => taField e.1 == f)).filterMap (fun e => logOf s e.1)
      else x.failed.map (·.tile) ++ x.taints.map (·.1)
    if tiles.any (notReplayable s) then 2 else 0

/-- R176: the group that a step lost at the seam would have formed, over all its fields: that of the first failure, or of the first
tainted tile. -/
def seamGroup (s : State) (f : Nat) : Option Group :=
  let x := fieldOf s f
  let t := formGroups s f
  let tile := match x.failed, x.taints with
    | r :: _, _ => some r.tile
    | [], e :: _ => some e.1
    | [], [] => if x.droop then some (tileAddr f false 0) else none
  tile.bind (fun l => t.groups.find? (fun g => g.tiles.contains l))

/-- Table 6.3 of a step lost at the seam: TRIGGER, CROSS_FIELD and GROUP_TILES (R169, R176). -/
def seamTrigger (x : Field) : Nat := if x.droop then 1 else (x.failed.head?.map triggerCode).getD 0
def seamCross (g : Option Group) : Bool := match g with | some g => decide (1 < g.fields.length) | none => false
def seamTiles (g : Option Group) : Nat := match g with | some g => g.tiles.length | none => 1

/-- R136 to R138, R140: the snapshots of the sampled tiles start; a sampled tile whose step is replayed is sampled again. A tile that is
only tainted and replayed is taken likewise (DEDUCED, log entry 158). -/
def startSpots (s : State) (f : Nat) : State :=
  let x := fieldOf s f
  let replayed := fun l : Nat => s.groups.any (fun g => g.tiles.contains (tileAddr f false l))
  let s : State := x.sampled.foldl (fun s l =>
    let x := fieldOf s f
    if replayed l then
      countField (setField s f { x with spotOwed := x.spotOwed ++ [l] }) f (fun c => { c with superseded := sat32 (c.superseded + 1) })
    else
      let o := ownerOf x (posOf x l)
      let paired := pairFor s f o []
      let pool := unreserved s f
      let free := pool.filter (fun p => paired != some p)
      if free.isEmpty && !pool.isEmpty then countField s f (fun c => { c with skipOther := sat32 (c.skipOther + 1) })
      else if lendingCap s f ≤ spotLent x then countField s f (fun c => { c with skipCap := sat32 (c.skipCap + 1) })
      else
        match nearest o free with
        | none => countField s f (fun c => { c with skipCap := sat32 (c.skipCap + 1) })
        | some u =>
          let c : Spot := { tile := l, phys := o, spare := u, seamNo := x.seam, startAt := s.now, digest := (guardOf s (pa f o)).digest }
          drive (setField s f { x with spots := x.spots ++ [c], lent := tset x.lent u 0 }) (.snapshot (pa f o) (pa f u))) s
  modField s f (fun x => { x with sampled := [] })

/-- R309, R408: what holds a field at the seam it has reached, beside replays. -/
def noteHolds (s : State) (f : Nat) : State :=
  let x := fieldOf s f
  let seams := fieldSeams s f
  let atToken := (match seams[x.seam]? with | some m => m.token | none => false) || decide (x.seam + 1 = seams.length)
  let quiet := decide (s.hang.quiesce = 1) && (atToken || decide (s.hang.quiesceAt + 1000000000 ≤ s.now))
  let wait := match fieldPart s f with
    | some (_, p) => p.barrier.isSome
    | none => false
  modField s f (fun x => { x with quiet := x.quiet || quiet, waitBarrier := wait })

/-- The actions at a seam just reached, orders 1 and 2 of Table 1.1. -/
def arriveAtSeam (s : State) (f cycles : Nat) (taps : List EngineTap) : State :=
  let s : State := wring s f 1 [cycles]
  let s : State := countCycles (taps.foldl (fun s e => countTap s f e) s) f (cycles - (fieldOf s f).cut)
  let s : State := modField s f (fun x => { x with
    run := .held, arriveTs := s.now, cut := 0, stepLen := cycles, count := x.count + cycles, failed := failedTiles s f })
  let s : State := seamCopies s f
  let s : State := faultsAtSeam s f
  let x := fieldOf s f
  let s : State := noteHolds s f
  let s : State := if s.side.contexts.any (fun c => c.expelled && c.field == f) then holdPartition s f else s
  let g := seamGroup s f
  match lostAtSeam s f with
  | 1 =>
    let word := ((x.failed.find? (fun r => r.cls == 6 || r.cls == 7)).map (·.word)).getD ((x.failed.head?.map (·.word)).getD 0)
    programFault (quarantineFailed s x.failed) f (replayWord (seamTrigger x) 4 false (seamCross g) (seamTiles g) 0xFFFFFF 0) word
  | 2 => lostStep (quarantineFailed s x.failed) f (seamTrigger x) 3 (seamCross g) (seamTiles g) 0xFFFFFF 0 ((x.failed.head?.map (·.word)).getD 0) 4
  | _ =>
    let s : State := reserveAll (formGroups s f) (x.failed.map (·.tile))
    startSpots (startWaiting s f 0) f

/-- R294: a field of a partition whose program a FIELD reset has unloaded comes to its seam and is held; the program leaves with the last
one, and an UNMAP that waits for the fields then has it for stopped. -/
def arriveForGood (s : State) (p f cycles : Nat) : State :=
  let s : State := endForGood (wring s f 1 [cycles]) f
  if (fieldsOfPart s p).any (fun g => (fieldOf s g).run == .running) then s else dropProgram s p

/-- FIELD_SEAM_ARRIVAL (R21 to R23, R136 to R140, R162 to R170, R197, R309, R408, R421, R428): `cycles` is the length of the step and `taps`
what its engines' taps showed (R415, R416). -/
def execFieldSeamArrival (f cycles : Nat) (taps : List EngineTap) (s : State) : Result :=
  if 84 ≤ f ∨ !taps.all (tapOk (fieldOf s f)) then .fault (.malformed "FIELD_SEAM_ARRIVAL")
  else
    let x := fieldOf s f
    whenOk s (clocked s && x.warden == .up && x.run == .running && decide (x.arrived = (fieldPlaces x).length) &&
        decide (x.seam < (fieldSeams s f).length)) "the field's arrival line does not rise"
      (match fieldPart s f with
       | some (p, y) => if y.gone && y.unloading.isNone then arriveForGood s p f cycles else arriveAtSeam s f cycles taps
       | none => arriveAtSeam s f cycles taps)

/-! ### Replays -/

/-- REPLAY_GROUP_START (R156, R162, R164): waiting groups take free slots within the hold. -/
def execReplayGroupStart (f : Nat) (s : State) : Result :=
  if 84 ≤ f then .fault (.malformed "REPLAY_GROUP_START")
  else whenOk s (clocked s && s.groups.any (fun g => g.fields.contains f && (startable s g || spareStartable s g)))
    "no waiting group can start" (startSpares (startWaiting s f 0) f 0)

/-- R170: a replay that fails with class WINDOW or OPEN shows a program fault. -/
def programFail (fails : List ReplayFail) : Option ReplayFail := fails.find? (fun r => r.cls == 6 || r.cls == 7)

/-- R272: a tile that replays in place reads a word of which no correct content is left: no image of the step exists, and it is lost. -/
def imageGone (fails : List ReplayFail) : Bool := fails.any (fun r => r.cls == clsSramLost)
def loseImage (s : State) (g : Group) (again : List ReplayFail) : State :=
  let sus := (again.filter (fun r => r.cls != clsSramLost)).flatMap (fun r => ownSuspect s g r.tile)
  loseGroup s g 3 ((g.spares.head?.map (·.2)).getD 0xFFFFFF) sus (triggerWord g 1 true none)

/-- REPLAY_VERDICT (R26, R36, R145, R164 to R167, R171, R176): all tiles of the group have replayed, after `cycles`; the verdict is what
their guards have found. -/
def execReplayVerdict (g cycles : Nat) (s : State) : Result :=
  whenSome s (s.groups.find? (fun h => h.id == g && h.state == .same && wardenRuns s h.field && rerunDone s h)) "no such group has replayed on the same tiles" fun h =>
    let h : Group := { h with cycles := h.cycles + cycles }
    let s : State := countReplay (setGroup s h) h.tiles [] cycles
    let again := failOrder (h.round.filterMap (againOf s))
    match programFail again with
    | some r => .next (programFault (dropGroup s h.id) h.field (groupWord s h 4 0xFFFFFF) r.word)
    | none =>
      let s : State := if again.isEmpty then passSame s h
        else if imageGone again then loseImage s h again
        else moveToSpares (noteTransients s h again) { h with noted := h.failed.map (·.tile) } again
      .next (startWaiting s h.field h.cycles)

/-- Cycles that a tile's image copy has taken so far, and the longest of a group's, for copies overlap (Table 6.2). -/
def copyOf (g : Group) (log : Nat) : Nat := ((g.copyTime.find? (fun e => e.1 == log)).map (·.2)).getD 0
def longestCopy (g : Group) : Nat := g.copyTime.foldl (fun m e => max m e.2) 0

/-- A copy of a group's image to a spare ended (R157): the digests of the sent and the received image agree or not. -/
def groupCopyDone (s : State) (g : Group) (e : Nat × Nat) (ok : Bool) (cycles : Nat) : State :=
  let log := e.1
  let g : Group := { g with copyTime := g.copyTime.filter (fun c => c.1 != log) ++ [(log, copyOf g log + cycles)] }
  if ok then
    let left := g.copies.filter (· != log)
    if left.isEmpty then runSpares s { g with copies := [], cycles := g.cycles + longestCopy g }
    else setGroup s { g with copies := left }
  else if g.retried.contains log then
    loseGroup s { g with cycles := g.cycles + longestCopy g } 2 e.2 (ownSuspect s g log ++ [e.2]) (triggerWord g 6 true (some e.2))
  else sendImage (setGroup s { g with retried := g.retried ++ [log] }) e

/-! ### The seam, its token, and the swaps and claims due at it -/

def seamAt (s : State) (f : Nat) : Option Seam := (fieldSeams s f)[(fieldOf s f).seam]?
/-- R172: the seam ends a token. -/
def endsToken (s : State) (f : Nat) : Bool :=
  let x := fieldOf s f
  (match seamAt s f with | some m => m.token | none => false) || decide (x.seam + 1 = (fieldSeams s f).length)
/-- Position at which the present token ends. -/
def tokenEnd (l : List Seam) (i : Nat) : Nat :=
  match (l.drop i).find? (·.token) with
  | some m => m.pos
  | none => (l.getLast?.map (·.pos)).getD 0
/-- R172: the reserve of the present token in cycles. -/
def tokenReserve (s : State) (f : Nat) : Nat :=
  let x := fieldOf s f
  (tokenEnd (fieldSeams s f) x.seam - x.tokenStart) * ((fieldProg s f).map (·.slack)).getD 30 / 1000
/-- Replays ran at this seam (Table 1.1, order 4). -/
def replayedHere (s : State) (f : Nat) : Bool := s.groups.any (fun g => g.fields.contains f && g.state == .done)

/-- R140, R229: a snapshot of the tile or of its substitute is in progress, from it or to it. -/
def spotBusy (x : Field) (b : BenchSlot) : Bool :=
  x.spots.any (fun c => !c.running && (c.phys == b.tile || b.subst == some c.phys || c.spare == b.tile || b.subst == some c.spare))

/-- R210, R229: Bench swaps may take place at this seam. -/
def swapSeam (s : State) (f : Nat) : Bool :=
  let x := fieldOf s f
  (match seamAt s f with | some m => m.window | none => false) && !replayedHere s f && !x.idleDirty
/-- R175, R210: the token has room for a swap that has not started. -/
def swapRoom (s : State) (f : Nat) : Bool :=
  let x := fieldOf s f
  x.lateOk || (!x.shed && decide (x.charge + 6632 ≤ tokenReserve s f))

/-- Slots whose swap is due: out before the first segment, back after the last. A swap whose copy has failed twice waits for the next
window seam, as a spare whose copy fails twice does not run (R157, R216; DEDUCED, log entry 92). -/
def swapsDue (s : State) (f : Nat) : List (Nat × BenchSlot) :=
  if !swapSeam s f then []
  else (fieldOf s f).bench.filter (fun e => !e.2.inPlace && (!e.2.out || e.2.done) && !spotBusy (fieldOf s f) e.2 && decide (e.2.tries < 2) &&
    (e.2.copied || swapRoom s f))

/-- R23, R99: the tile replays at this seam: a member of a group on its own place, or a spare in use or reserved. -/
def replaysHere (s : State) (f p : Nat) : Bool :=
  (reservedSpares (fieldOf s f)).contains p ||
    s.groups.any (fun g => g.fields.contains f && (g.spares.any (fun e => e.2 == pa f p) ||
      (match logOf s (pa f p) with | some l => g.tiles.contains l | none => false)))

/-- A claim that is still good: its generation is the field's (R250). -/
def claimFresh (s : State) (f : Nat) (c : Claim) : Bool := decide (c.gen = genOf s (domField f))

/-- R250: the claim is accepted. A spare replay's install comes first, on a spare reserved for it, and is never rejected. -/
def claimAccepted (s : State) (f : Nat) (c : Claim) : Bool :=
  let x := fieldOf s f
  c.source == 1 || (decide (ownerOf x c.place = c.expected) &&
    ((servedBy x c.owner).isNone && (c.back || !(tileRec s (pa f c.owner)).quar)))

/-- Claims of QUARANTINE and of worn tiles that are due at this seam, each with an image copy to make (R234, R249, R252). -/
def copyClaims (s : State) (f : Nat) : List Claim :=
  if (fieldOf s f).idleDirty then []
  else (fieldOf s f).claims.filter (fun c => c.source == 2 && decide (c.place ≠ unfilled) && claimFresh s f c && claimAccepted s f c &&
    !replaysHere s f c.expected)

/-- A Bench swap that waits for its image copy to a place: a swap-out to its substitute, a swap-back to the tested tile (R216, R217). -/
def copyingSlot (s : State) (f target : Nat) : Option (Nat × BenchSlot) :=
  (swapsDue s f).find? (fun e => !e.2.copied &&
    ((!e.2.out && e.2.subst == some target) || (e.2.out && e.2.tile == target && !substituteKept s f e.2)))
/-- A claim that waits for its image copy to a place. -/
def copyingClaim (s : State) (f target : Nat) : Option Claim :=
  (copyClaims s f).find? (fun c => c.owner == target && !c.copied && decide (c.tries < 2))

/-- R157, R247: the image of a place's owner goes to its new owner. -/
def imageTo (s : State) (f src dst : Nat) : State :=
  let k := guardOf s (pa f src)
  drive s (.image (pa f src) (pa f dst) k.engines [])

/-- A copy for a claim or a swap ended: with equal digests it may take effect at this seam; a first disagreement repeats it. -/
def seamCopyDone (s : State) (f target : Nat) (ok : Bool) : Option State :=
  match copyingClaim s f target, copyingSlot s f target with
  | some c, _ =>
    let d : Claim := { c with copied := ok, tries := if ok then c.tries else c.tries + 1 }
    some (imageTo (modField s f (fun x => { x with claims := x.claims.map (fun e => if e = c then d else e) })) f c.expected target)
  | none, some (k, b) =>
    let src := ownerOf (fieldOf s f) b.place
    let d : BenchSlot := { b with copied := ok, from_ := src, tries := if ok then b.tries else b.tries + 1 }
    some (imageTo (modField s f (fun x => { x with bench := tset x.bench k d })) f src target)
  | none, none => none

/-- A copy to a place belongs to a seam at which the swap or the claim is due. -/
def copyDue (s : State) (f : Nat) : Bool := clocked s && (fieldOf s f).warden == .up && isHeld s f

/-- IMAGE_COPY_DONE (R157, R164, R216, R217, R252): `target` is the place of the spare, substitute or tested tile in field `f`; `sent` and
`received` are the digests of the image at either end. -/
def execImageCopyDone (f target sent received cycles : Nat) (s : State) : Result :=
  if 84 ≤ f ∨ 10000 ≤ target then .fault (.malformed "IMAGE_COPY_DONE")
  else if !wardenRuns s f then idle s "the warden does not run"
  else
    let a := pa f target
    let ok := decide (sent = received)
    match s.groups.find? (fun g => g.state == .copying && g.spares.any (fun e => e.2 == a && g.copies.contains e.1)) with
    | some g =>
      whenSome s (g.spares.find? (fun e => e.2 == a && g.copies.contains e.1)) "no image copy to the place is under way" fun e =>
        .next (groupCopyDone s g e ok cycles)
    | none =>
      whenSome s (if copyDue s f then seamCopyDone s f target ok else none) "no image copy to the place is under way" fun t => .next t

/-- A moved tile that its spare replay does not resolve: its spare failed, or the pair differs threefold (R145, R171). -/
def unresolved (s : State) (e : Nat × Nat) : Bool :=
  (spareAgain s e).isSome || (isPair s e.1 && decide (arbitrate s e.1 e.2 = 0))

/-- The tiles that a lost spare replay makes suspect (R171, Table 5.4). -/
def lostSuspects (s : State) (g : Group) (e : Nat × Nat) : List Nat :=
  if isPair s e.1 then
    if (spareAgain s e).isSome then [e.2]
    else [physOf s e.1, e.2] ++ (shadowOfTile s (physOf s e.1)).toList
  else ownSuspect s g e.1 ++ [e.2]

/-- SPARE_REPLAY_VERDICT (R36, R145, R164, R171, R176, Table 5.4): the spares and the tiles beside them have replayed, after `cycles`. -/
def execSpareReplayVerdict (g cycles : Nat) (s : State) : Result :=
  whenSome s (s.groups.find? (fun h => h.id == g && h.state == .spare && wardenRuns s h.field && rerunDone s h)) "no such group has replayed on spares" fun h =>
    let h : Group := { h with cycles := h.cycles + cycles }
    let s : State := countReplay (setGroup s h) h.tiles (h.spares.map (·.1)) cycles
    let onSpare := h.spares.filterMap (spareAgain s)
    let new := failOrder (h.round.filterMap (againOf s))
    let s : State := (h.spares.filter (fun e => (spareAgain s e).isSome)).foldl (fun s e => noteSpareFail s (taField e.1) 0 e.2) s
    match programFail (onSpare ++ new) with
    | some r => .next (programFault (dropGroup s h.id) h.field (groupWord s h 4 ((h.spares.head?.map (·.2)).getD 0xFFFFFF)) r.word)
    | none =>
      let bad := h.spares.filter (unresolved s)
      match bad with
      | e :: _ =>
        let out := if (spareAgain s e).isSome then 6 else 5
        .next (loseGroup s h 2 e.2 ((bad.flatMap (lostSuspects s h)).eraseDups) (triggerWord h out true (some e.2)))
      | [] =>
        if imageGone new then .next (loseImage s h new)
        else if new.isEmpty then .next (startSpares (startWaiting (passSpare s h) h.field h.cycles) h.field h.cycles)
        else .next (moveToSpares (noteTransients s h new) { h with noted := h.noted ++ h.failed.map (·.tile) } new)

/-- REPLAY_ABANDONED (R168, R299): a replay or a copy has overrun its limit; the field is handled as hung and the step is lost with
cause 0x03. -/
def execReplayAbandoned (g : Nat) (s : State) : Result :=
  whenSome s (s.groups.find? (fun h => h.id == g && wardenRuns s h.field && (h.state == .same || h.state == .copying || h.state == .spare) && overLimit s h))
    "no such group replays, or its limit has not passed" fun h =>
      let spare := (h.spares.head?.map (·.2)).getD 0xFFFFFF
      let s : State := dropGroup (ringReplay s h.field 6 (groupWord s h 5 spare)) h.id
      .next (loseWith s h.field (groupWord s h 5 spare) (triggerWord h 1 false none) 3)

/-- IDLE_VERSION_DRAINED (R249): the version that has ceased to be current becomes writable; spare replays that waited start. -/
def execIdleVersionDrained (f : Nat) (s : State) : Result :=
  if 84 ≤ f then .fault (.malformed "IDLE_VERSION_DRAINED")
  else
    let x := fieldOf s f
    whenOk s (wardenRuns s f && x.idleDirty && !x.switched) "the idle version is writable, or no seam has been released since the switch"
      (startSpares (modField s f (fun x => { x with idleDirty := false, fwd := [] })) f 0)

/-! ### Spot checks -/

def findSpot (s : State) (f tile : Nat) (running : Bool) : Option Spot :=
  (fieldOf s f).spots.find? (fun c => c.tile == tile && c.running == running)

/-- SNAPSHOT_DONE (R137): the copy is complete and the spot spare executes the step. -/
def execSnapshotDone (f tile : Nat) (s : State) : Result :=
  if 84 ≤ f then .fault (.malformed "SNAPSHOT_DONE")
  else whenSome s (if wardenRuns s f then findSpot s f tile false else none) "no snapshot of the tile is under way" fun c =>
    .next (freshRun (modField s f (fun x => { x with spots := x.spots.map (fun d =>
      if d = c then { d with running := true } else d) })) [pa f c.spare])

/-- Table 5.1, spare check failure: the original is not judged. -/
def spotSpareFailed (s : State) (f : Nat) (c : Spot) (cls : Nat) (word : Dword) : State :=
  let u := pa f c.spare
  let w := comparisonWord 0 6 false 0 0 u
  let s : State := emitPart s evSpotSpareFail (partNo s f) [tileAddr f false c.tile, u, w.toNat]
  let s : State := noteCause (gring s u 10 0 0 w) u (kindOfClass cls) 2 word (detected s f none)
  returnLent (suspectAndTest s f c.spare 2) f c.spare

/-- Table 5.1, mismatch: the tile that ran the step and its spot spare are both suspect, and the partition escalates (R139, R171). -/
def spotMismatch (s : State) (f : Nat) (c : Spot) (cycles : Nat) : State :=
  let a := pa f c.phys
  let u := pa f c.spare
  let w := comparisonWord 0 1 false 0 0 u
  let s : State := latchLevel (gring s a 10 0 0 w) f 3 a 8 9 0 w
  let s : State := emitPart s evSpotMismatch (partNo s f) [tileAddr f false c.tile, a, u, w.toNat]
  let s : State := noteCause (noteCause s a 3 0 w (detected s f (some (tileAddr f false c.tile)))) u 3 0 w (detected s f none)
  let s : State := suspectAndTest (suspectAndTest s f c.phys 2) f c.spare 2
  lostStep (returnLent s f c.spare) f 5 2 false 1 u cycles w 4

/-- SPOT_CHECK_VERDICT (R137 to R139, R147, R171): the spot spare has reached the end of the step, and the digests are compared. -/
def execSpotCheckVerdict (f tile cycles : Nat) (s : State) : Result :=
  if 84 ≤ f then .fault (.malformed "SPOT_CHECK_VERDICT")
  else
    let due := (findSpot s f tile true).filter (fun c => wardenRuns s f && (guardOf s (pa f c.spare)).redone)
    whenSome s due "no spot check of the tile has ended" fun c =>
      let g := guardOf s (pa f c.spare)
      let s : State := modField s f (fun x => { x with spots := x.spots.filter (fun d => d != c) })
      match g.again with
      | some (cls, w) => .next (spotSpareFailed s f c cls w)
      | none =>
        if g.digest = c.digest then
          .next (returnLent (countField s f (fun n => { n with agree := sat32 (n.agree + 1) })) f c.spare)
        else .next (spotMismatch s f c cycles)

end Sys2Proof.Machine
end

