-- ==== Sys2Proof/Machine/SideboardOps.lean ====
section
/-! DEFINITION. Stream contexts of the Sideboard: shards (R177, R178), goldens (R185 to R187), the digest word (R200), exchange
records (R190, R191) and expulsion (R197). -/

namespace Sys2Proof.Machine

/-! ### Contexts -/

/-- The context of a tenant's number. -/
def findContext (s : State) (t n : Nat) : Option Context := s.side.contexts.find? (fun c => c.tenant == t && c.num == n)
def setContexts (s : State) (l : List Context) : State := { s with side := { s.side with contexts := l } }
/-- The context of the same tenant and number takes the place of the one held, or is added. -/
def putContext (s : State) (c : Context) : State :=
  let same := fun d : Context => d.tenant == c.tenant && d.num == c.num
  setContexts s (if s.side.contexts.any same then s.side.contexts.map (fun d => if same d then c else d)
    else s.side.contexts ++ [c])
/-- The contexts of a replica group on this wafer (R183). -/
def groupContexts (s : State) (t group : Nat) : List Context :=
  s.side.contexts.filter (fun c => c.tenant == t && c.group == group)
/-- Those that take part in comparisons (R184, R197). -/
def liveContexts (s : State) (t group : Nat) : List Context := (groupContexts s t group).filter (fun c => c.ready && !c.expelled)

/-- R185: the golden digest of a group. -/
def goldenOf (s : State) (t group : Nat) : Option Golden := s.nor.golden.find? (fun g => g.tenant == t && g.group == group)
/-- R186: the golden digest that a context is held against; token chains have none. -/
def contextGolden (s : State) (c : Context) : Option Nat := if c.kind = 0 then (goldenOf s c.tenant c.group).map (·.digest) else none
/-- R185: the goldens that the store holds or that defined shards may still need fill it. -/
def goldensFull (s : State) : Bool :=
  let due := (((s.side.contexts.filter (fun c => c.kind == 0 && (goldenOf s c.tenant c.group).isNone)).map
    (fun c => (c.tenant, c.group)))).eraseDups
  decide (131072 ≤ s.nor.golden.length + due.length)

/-! ### Shards (R177, R178, R180) -/

/-- The rows that a mask covers, in ascending order. -/
def maskRows (m : BitVec 1024) : List Nat := (List.range 1024).filter (fun i => m.getLsbD i)
/-- Logical tiles of a field in row-major order (R142, R177). -/
def fieldTiles (x : Field) : Nat := if x.redund then 4608 else 9216
/-- The logical tile address of an index in row-major order. -/
def tileOfIndex (f i : Nat) : Nat := tileAddr f false ((i / 96) * 100 + i % 96)

/-- R178: the masks of the whole number of tiles whose covered rows make up `rows`; none where no such number does. -/
def shardMasks : List (BitVec 1024) → Nat → Option (List (BitVec 1024))
  | [], _ => none
  | m :: rest, rows =>
    let n := (maskRows m).length
    if n = rows then some [m]
    else if n < rows then (shardMasks rest (rows - n)).map (fun l => m :: l)
    else none

/-- The digest part of each tile, with the exponent offset of its first symbol (R180). -/
def tileParts (k : Nat) : Nat → List (List Word) → List Nat
  | _, [] => []
  | n, t :: rest => (foldSyms k (0, n) t).1 :: tileParts k (n + t.length) rest
/-- The parts of a shard's tiles add up to its digest (R180). -/
def sumParts (l : List Nat) : Nat := l.foldl (fun a p => (a + p) % digMod) 0

/-- R277: the first tile in shard order whose part differs. -/
def firstDiffer (c : Context) (parts : List Nat) : Option Nat :=
  (((List.range (max c.parts.length parts.length)).find? (fun i => c.parts[i]? != parts[i]?))).map
    (fun i => tileOfIndex c.field (tileIndex c.first + i))

/-- R190: seams of the field since program start. -/
def seamsReached (s : State) (f : Nat) : Nat :=
  let x := fieldOf s f
  if x.run = .held ∧ x.atStart = false ∧ x.seam < (fieldSeams s f).length then x.seam + 1 else x.seam

/-! ### Reports and counts -/

/-- R194: two reports agree. -/
def agrees (golden : Option Nat) (a b : Report) : Bool :=
  let off := fun r : Report => r.changed && (match golden with | some g => r.digest != g | none => false)
  decide (a.digest = b.digest) && !off a && !off b

/-- What a context reports now. -/
def ownReport (c : Context) : Report :=
  { replica := c.replica, interval := c.intervalNo, digest := c.digest, changed := c.changed, tokens := c.tokens, remote := false }
/-- What it reported for its interval. -/
def ownHeard (c : Context) : Report :=
  (c.reports.find? (fun r => r.interval == c.intervalNo && r.replica == c.replica && !r.remote)).getD (ownReport c)

/-- The reports that a context compares: those of its interval, of a chain only those with its own token count (R199). -/
def comparedReports (c : Context) : List Report :=
  (c.reports.filter (fun r => r.interval == c.intervalNo)).filter (fun r => c.kind == 0 || r.tokens == (ownHeard c).tokens)
def unalignedReports (c : Context) : Nat :=
  ((c.reports.filter (fun r => r.interval == c.intervalNo)).filter (fun r => c.kind != 0 && r.tokens != (ownHeard c).tokens)).length

/-- A report is heard: its replica is known (R192), and one of an interval that is open, or of one to come, is kept. -/
def hear (r : Report) (c : Context) : Context :=
  if c.gone.contains r.replica then c
  else
    { c with
      reports := if !c.opens.any (fun o => o.interval == r.interval) && decide (r.interval ≤ c.intervalNo) then c.reports
        else c.reports.filter (fun o => !(o.replica == r.replica && o.interval == r.interval)) ++ [r],
      known := if (tfind c.known r.replica).isSome then c.known else tset c.known r.replica 0,
      remotes := if r.remote && !c.remotes.contains r.replica then c.remotes ++ [r.replica] else c.remotes }

/-- Table 7.3: the digest word. -/
def digestWord (c : Context) (outcome agree disagree : Nat) (remote : Bool) : Dword :=
  BitVec.ofNat 64 (c.num + c.kind * 2 ^ 17 + outcome * 2 ^ 18 + c.replica * 2 ^ 21 + sat 255 agree * 2 ^ 29 +
    sat 255 disagree * 2 ^ 37 + c.group * 2 ^ 45 + bit01 remote * 2 ^ 61)

/-- A record of the Sideboard (R200): local digest, majority or golden digest (0 where there is none), digest word, interval. -/
def emitDigest (s : State) (typ : Nat) (c : Context) (other : Nat) (word : Dword) : State :=
  emitPart s typ (some c.part) [c.digest, other, word.toNat, c.intervalNo]

/-! ### Exchange records (Table 7.1) -/

/-- The eight words of an exchange record. -/
def exchangeWords (job : Nat) (c : Context) (typ : Nat) (matches_ : Bool) : List Word :=
  let ws := [w32 (job + c.group * 2 ^ 16), w32 (c.replica + c.kind * 2 ^ 8 + bit01 c.changed * 2 ^ 9 + typ * 2 ^ 10 + bit01 matches_ * 2 ^ 12),
    w32 c.intervalNo] ++ w64 c.digest ++ [w32 c.tokens]
  ws ++ [w32 (crc32c (bytesOf ws)), 0]

/-- R191: the ports on which records of a partition go out: the lowest usable one to each peer of its last TIME_ALIGN. -/
def peerPorts (s : State) (p : Nat) : List Nat :=
  match (partOf s p).bind (·.tree) with
  | none => []
  | some t =>
    let up := t.peers.filter (fun e => (laneOf s e.port).sync)
    ((up.map (·.serial)).eraseDups).filterMap (fun n => (up.filter (fun e => e.serial == n)).foldl (fun (m : Option Nat) e =>
      match m with | none => some e.port | some a => some (min a e.port)) none)
def jobOf (s : State) (p : Nat) : Nat := (((partOf s p).bind (·.tree)).map (·.job)).getD 0

/-- A record of a context goes to other wafers. -/
def sendExchange (s : State) (c : Context) (typ : Nat) (matches_ : Bool) : State :=
  (peerPorts s c.part).foldl (fun s port => drive s (.exchange port (exchangeWords (jobOf s c.part) c typ matches_))) s

/-! ### Results and expulsion -/

/-- Result words 3-6 of DIGEST_COMPARE. -/
def compareResults (c : Context) : List Word := w64 c.digest ++ [w32 c.agree, w32 c.disagree]

/-- DIGEST_COMPARE commands that waited for a comparison complete (R190). -/
def answerCmds (s : State) (c : Context) (cmds : List (Nat × Nat)) (status : Nat) : State :=
  cmds.foldl (fun s qe =>
    match findCmd s qe.1 qe.2 with
    | some d => complete s d status (compareResults c)
    | none => s) s

/-- R195, R197: the context takes part in no comparison: those that were open are over, and every command that it holds completes. -/
def leaveComparisons (s : State) (c : Context) (status : Nat) : State :=
  answerCmds (putContext s { c with opens := [], nowCmd := [], reports := [] }) c (waitingCmds c) status

/-- R196, R197: a replica leaves a context's view: it is known no more, and its reports are gone. -/
def forgetReplica (replica : Nat) (k : Context) : Context :=
  { k with known := tdel k.known replica, remotes := k.remotes.filter (· != replica),
           reports := k.reports.filter (fun r => r.replica != replica) }

/-- R197: the context is marked EXPELLED and leaves all comparisons, with EV_EXPEL; its partition is held from its field's next seam
on (FIELD_SEAM_ARRIVAL). -/
def expelContext (s : State) (c : Context) (other : Nat) (word : Dword) : State :=
  let c : Context := { c with expelled := true, reverify := false }
  let s : State := leaveComparisons (emitDigest s evExpel c other word) c stOk
  setContexts s (s.side.contexts.map (fun k =>
    if k.tenant = c.tenant ∧ k.group = c.group ∧ k.num ≠ c.num then forgetReplica c.replica k else k))

/-- R277, CONFIRM 0x4: the finding of an expelled context. Where no part is known to differ the spec names no tile: the tile is a
free value of the shard. -/
def expelFinding (s : State) (c : Context) (word : Dword) (seqNo : Nat) : State :=
  let tile := c.badTile.getD (tileOfIndex c.field (tileIndex c.first + freeVal s (max 1 c.masks.length)))
  let s : State := if c.badTile.isNone then advFree s else s
  let p := ownerOf (fieldOf s c.field) (posOf (fieldOf s c.field) (taPlace tile))
  confirmFinding s 5 4 0 (pa c.field (if p = unfilled then taPlace tile else p)) (detected s c.field (some tile)) word 0 0 seqNo

/-- An expulsion by adjudication: the record, the hold and, of a weight shard, the finding. -/
def expelByRule (s : State) (c : Context) (outcome other : Nat) (remote : Bool) : State :=
  let w := digestWord c outcome c.agree c.disagree remote
  let seqNo := nextSeqNo s
  let s : State := expelContext s c other w
  if c.kind = 0 then expelFinding s c w seqNo else s

end Sys2Proof.Machine
end

