-- ==== Sys2Proof/Machine/Release.lean ====
section
/-! DEFINITION. The release of a field from its seam, orders 3 to 7 of Table 1.1 (R22 to R24, R135, R160, R172 to R175, R216, R217,
R247 to R250, R356, R357, R362, R400, R401). -/

namespace Sys2Proof.Machine

/-! ### Idle holds and pads -/

/-- R362: the larger idle duty of cap and thermal limit, in sixteenths. -/
def dutyOf (s : State) (f : Nat) : Nat :=
  match fieldPart s f with
  | some (_, p) => min 12 (max p.idleDuty p.thermDuty)
  | none => 0
/-- R362: cycles of the idle hold. -/
def idleCycles (s : State) (f : Nat) : Nat :=
  let d := dutyOf s f
  ((fieldOf s f).stepLen * d + (15 - d)) / (16 - d)
/-- R400: the pad of a TOKEN seam in OPMODE 2 with spot checks on. -/
def seamPad (s : State) (f : Nat) : Nat :=
  let x := fieldOf s f
  if fieldOpmode s f = 2 ∧ endsToken s f = true ∧ x.spotN ≠ 0 ∧ x.reduced = false then 6827 + compiledLen s f + 40 else 0

/-! ### What keeps a field at its seam -/

/-- R235: the ends of links of a field, or of a neighbour, that wait for a seam at this field. -/
def borderLinks (s : State) (f : Nat) : List (Nat × (Nat × Nat × Nat)) :=
  [f, f + 1, f - 1, f + 12, f - 12].eraseDups.flatMap (fun h =>
    ((fieldOf s h).linksDue.filter (fun e => (linkEnds h e.1 e.2.1).any (fun d => d.1 == f))).map (fun e => (h, e)))
/-- R235: a link to a running field is switched only while both are held. -/
def borderWaits (s : State) (f : Nat) : Bool :=
  (borderLinks s f).any (fun e => (linkEnds e.1 e.2.1 e.2.2.1).any (fun d => d.1 != f && fieldLoaded s d.1 && (fieldOf s d.1).run == .running))

/-- A swap has had the image copy that it needs. -/
def swapCopied (s : State) (f : Nat) (b : BenchSlot) : Bool := b.copied || (b.out && substituteKept s f b)

/-- R305: an action of this release needs the hub. -/
def needsHub (s : State) (f : Nat) : Bool :=
  let x := fieldOf s f
  !x.claims.isEmpty || !(swapsDue s f).isEmpty || !x.rowsDue.isEmpty || !x.slotsDue.isEmpty || !x.backDue.isEmpty ||
    !(borderLinks s f).isEmpty

/-- R300, Table 6.2: at a seam marked CROSS a field waits on the barrier tree until every field of its partition that shares the seam
(the same index, marked CROSS there too) has come to it and is held by no replay of its own. DEDUCED. -/
def crossWaits (s : State) (f : Nat) : Bool :=
  let i := (fieldOf s f).seam
  let cross := fun g : Nat => match (fieldSeams s g)[i]? with | some m => m.cross | none => false
  cross f && (match fieldPart s f with
    | some (_, p) => (partFields p).any (fun g =>
        let y := fieldOf s g
        g != f && cross g && !(decide (i < y.seam) ||
          (decide (y.seam = i) && y.run == .held && !s.groups.any (fun k => k.fields.contains g && openGroup k))))
    | none => false)

/-- R23, R26, R138, R162, R197, R235, R252, R255, R305, R309, R362, R400, R408: nothing holds the field any longer. -/
def mayRelease (s : State) (f heldCycles : Nat) : Bool :=
  let x := fieldOf s f
  let base := clocked s && x.warden == .up && x.run == .held && !x.atStart && !x.stopped && x.lostCause.isNone &&
    decide (x.seam < (fieldSeams s f).length) && !fieldInReset s f && !s.groups.any (fun g => g.fields.contains f && openGroup g) &&
    x.guardPins.isEmpty && !(endsToken s f && !x.spots.isEmpty) && !borderWaits s f && (s.hang.fwUp || !needsHub s f) &&
    (swapsDue s f).all (fun e => swapCopied s f e.2) && (copyClaims s f).all (fun c => c.copied || decide (2 ≤ c.tries)) && decide (idleCycles s f + seamPad s f ≤ heldCycles)
  let free := match fieldPart s f with
    | some (_, p) => p.unloading.isSome || (!p.heldAll && !x.quiet && !x.waitBarrier && !crossWaits s f && x.map.vacant.isEmpty)
    | none => false
  base && free

/-! ### Slack and tokens (R172 to R175, R401) -/

/-- R175: the charges of a field in its token reach a figure: the first field of the partition commits its record, and the field sheds. -/
def slackFigures (s : State) (f c : Nat) : State :=
  let x := fieldOf s f
  let r := tokenReserve s f
  let s : State := if !x.lateOk && decide (r ≤ c) then setField s f { x with shed := true } else s
  match fieldPart s f with
  | none => s
  | some (p, y) =>
    let s : State :=
      if x.warnPct * r ≤ c * 100 ∧ !y.slackWarned.contains x.token then
        emitPart (modPart s p (fun y => { y with slackWarned := y.slackWarned ++ [x.token] })) evSlackWarn (some p) [f, x.token, c, r]
      else s
    if r ≤ c ∧ !y.slackOut.contains x.token then
      emitPart (modPart s p (fun y => { y with slackOut := y.slackOut ++ [x.token] })) evSlackExhausted (some p) [f, x.token, c, r]
    else s

/-- SLACK_CHARGE (R174, R175): the hold is charged to the token's account. -/
def chargeSlack (s : State) (f heldCycles : Nat) : State :=
  let c := (fieldOf s f).charge + heldCycles
  slackFigures (modField s f (fun x => { x with charge := c })) f c

/-- R174, R175: the charges of a hold in progress run on, and reach a figure when they come to it. -/
def chargeHolds (s : State) : State :=
  (s.fields.filter (fun e => e.2.run == .held && !e.2.atStart && e.2.lostCause.isNone && decide (e.2.seam < (fieldSeams s e.1).length))).foldl
    (fun s e => slackFigures s e.1 (e.2.charge + heldSoFar s e.1)) s

/-- TOKEN_END (R172, R175, R401). -/
def endToken (s : State) (f : Nat) : State :=
  let x := fieldOf s f
  let r := tokenReserve s f
  let late := decide (r < x.charge)
  let s : State := if late then emitPart s evTokenLate (partNo s f) [f, x.token, x.charge - r] else s
  let s : State := countField s f (fun c => { c with
    late := if late then sat16 (c.late + 1) else c.late,
    disturbed := if x.disturbed then sat32 (c.disturbed + 1) else c.disturbed })
  modField s f (fun x => { x with
    token := x.token + 1, charge := 0, shed := false, disturbed := false,
    tokenStart := ((fieldSeams s f)[x.seam]?.map (·.pos)).getD x.tokenStart })

/-- R401: what the hold did to a token's timing in OPMODE 2. -/
def noteDisturbed (s : State) (f heldCycles : Nat) (moved : Bool) : State :=
  let cross := match seamAt s f with | some m => m.cross | none => false
  let hit := replayedHere s f || moved || (fieldOf s f).droop || decide (0 < dutyOf s f) ||
    decide (seamPad s f + (if cross then 8 else 0) < heldCycles)
  if fieldOpmode s f = 2 && hit then modField s f (fun x => { x with disturbed := true }) else s

/-! ### Order 3: rows, links, claims -/

/-- R235: the links at this field that were due are switched, but for those of tiles that replayed at the seam (R99). -/
def settleBorder (s : State) (f : Nat) (busy : List Nat) : State :=
  ((borderLinks s f).filter (fun e => !(decide (e.1 = f) && decide (e.2.2.2 = 0) && busy.contains e.2.1))).foldl (fun s e =>
    failLink (modField s e.1 (fun x => { x with linksDue := x.linksDue.filter (· != e.2) })) e.1 e.2.1 e.2.2.1 e.2.2.2) s

/-- An accepted claim: source, position, old owner, new owner. -/
structure Accepted where
  source : Nat
  pos : Nat
  old : Nat
  new : Nat
  claim : Claim
deriving DecidableEq, Repr

/-- A QUARANTINE command's claim ends with its command (R252). -/
def finishQuarantine (s : State) (c : Claim) (f st : Nat) (serving : Nat) : State :=
  if c.source9 ≠ 0 then s
  else match findCmd s c.q c.e with
    | some d => complete s d st [w32 serving, w32 (lendableCount s f)]
    | none => s

/-- R250: a QUARANTINE claim that was rejected, or that named a spare that has taken a place since, treats its tile in its new state at
the next seam. -/
def renewClaim (s : State) (f : Nat) (c : Claim) : Option Claim :=
  let x := fieldOf s f
  match servedBy x c.expected with
  | none => some { c with place := unfilled }
  | some pos => (pairFor s f c.expected (reservedSpares x)).map (fun u =>
      { c with place := pos, owner := u, gen := genOf s (domField f), copied := false, tries := 0 })

/-- A claim waits for the next seam, where its image is copied anew. -/
def keepClaim (s : State) (f : Nat) (c : Claim) : State :=
  modField s f (fun x => { x with claims := x.claims ++ [{ c with copied := false, tries := 0 }] })

/-- A claim of QUARANTINE treats its tile in its new state at the next seam, or ends with a shortfall. -/
def retryClaim (s : State) (f : Nat) (c : Claim) : State :=
  match renewClaim s f c with
  | some d => keepClaim s f d
  | none => finishQuarantine s c f stShortfall 0xFFFFFF

/-- CLAIM_PROCESS (R250): one claim; `busy` are the places whose tiles replayed at this seam (R23, R99). -/
def processClaim (s : State) (f : Nat) (busy : List Nat) (acc : List Accepted) (c : Claim) : State × List Accepted :=
  if !claimFresh s f c then
    (finishQuarantine { s with hang := { s.hang with staleGen := s.hang.staleGen + 1 } } c f stStaleGen 0xFFFFFF, acc)
  else if c.source ≠ 1 ∧ (busy.contains c.expected = true ∨ ((fieldOf s f).idleDirty = true ∧ c.place ≠ unfilled)) then (keepClaim s f c, acc)
  else if c.place = unfilled then
    if (servedBy (fieldOf s f) c.expected).isSome then (retryClaim s f c, acc)
    else (finishQuarantine (markQuarantined s f c.expected c.reason c.source9) c f stOk 0xFFFFFF, acc)
  else if claimAccepted s f c then
    if c.source = 2 ∧ c.copied = false then (keepClaim s f c, acc)
    else
      let s : State := takePlace s f c.place c.owner
      let s : State := if c.source = 2 then markQuarantined s f c.expected c.reason c.source9 else s
      (wring s f 7 [c.place, c.owner], acc ++ [{ source := c.source, pos := c.place, old := c.expected, new := c.owner, claim := c }])
  else
    let s : State := emitConflict s f c.source c.gen c.place (ownerOf (fieldOf s f) c.place) c.owner
    (if c.source = 2 then retryClaim s f c else s, acc)

/-- The claims due at the seam, in the order of Table 9.4. -/
def processClaims (s : State) (f : Nat) : State × List Accepted :=
  let cs := (fieldOf s f).claims
  let sorted := (List.range 4).flatMap (fun i => cs.filter (fun c => c.source == i + 1))
  let busy := (cs.map (·.expected)).filter (replaysHere s f)
  sorted.foldl (fun a c => processClaim a.1 f busy a.2 c) (modField s f (fun x => { x with claims := [] }), [])

/-! ### Order 4: Bench swaps -/

/-- One swap (R216, R217, R229, R250). A tile that has lost its place meanwhile is tested in place. -/
def benchSwap (s : State) (f : Nat) (acc : List Accepted) (e : Nat × BenchSlot) : State × List Accepted :=
  let b := e.2
  let x := fieldOf s f
  let put := fun (s : State) (b : BenchSlot) => modField s f (fun x => { x with bench := tset x.bench e.1 b })
  match b.subst with
  | none => (s, acc)
  | some u =>
    let gen := genOf s (domField f)
    if !b.out then
      let c : Claim := { source := 3, place := b.place, expected := b.tile, owner := u, gen := gen }
      if claimAccepted s f c then
        let s : State := takePlace (put s { b with out := true, copied := false }) f b.place u
        let s : State := modGuard s (pa f b.tile) (fun g => { g with underTest := true })
        (s, acc ++ [{ source := 3, pos := b.place, old := b.tile, new := u, claim := c }])
      else if (servedBy x b.tile).isNone then
        (modGuard (put s { b with inPlace := true, subst := none, copied := false }) (pa f b.tile) (fun g => { g with underTest := true }), acc)
      else (put (emitConflict s f 3 gen b.place (ownerOf x b.place) u) { b with copied := false }, acc)
    else if substituteKept s f b then (s, acc)
    else
      let c : Claim := { source := 4, place := b.place, expected := b.from_, owner := b.tile, gen := gen, back := true }
      if claimAccepted s f c then
        (takePlace s f b.place b.tile, acc ++ [{ source := 4, pos := b.place, old := c.expected, new := b.tile, claim := c }])
      else (emitConflict s f 4 gen b.place (ownerOf x b.place) b.tile, acc)

/-- The tests whose swap-back this seam made, whose substitute is kept, or whose swap-back was rejected, so that the tested tile is an
unassigned spare (R217, R250). -/
def benchConclude (s : State) (f : Nat) (e : Nat × BenchSlot) : State :=
  let b := e.2
  if !(b.out && b.done) then s
  else
    let back := decide (ownerOf (fieldOf s f) b.place = b.tile)
    let s : State := match b.subst with
      | some u => if !back && substituteKept s f b then keepSubstitute s f b.place b.tile u else s
      | none => s
    if b.result = 7 then finishAborted s f e.1 (bit01 !back) true else reportTest s f e.1 (bit01 !back)

/-! ### Orders 5 and 6 -/

/-- R250: a coordinate that the new version would give the owner of an accepted claim keeps only that claim's; the other entry is
cleared before the switch. -/
def clearDuplicates (s : State) (f : Nat) (acc : List Accepted) : State :=
  let twice := (fieldOf s f).idleMap.filter (fun m => acc.any (fun a => a.new == m.2 && a.pos != m.1))
  twice.foldl (fun s m => emitConflict s f 5 (genOf s (domField f)) m.1 (ownerOf (fieldOf s f) m.1) m.2) s

/-- EPOCH_SWITCH (R248 to R250, R259): one switch for all accepted claims, forward entries at the old owners, the records of the claims
that change an owner beyond the seam, and the commands that waited for them. -/
def epochSwitch (s : State) (f : Nat) (acc : List Accepted) : State :=
  if acc.isEmpty then s
  else
    let s : State := modField (clearDuplicates s f acc) f (fun x => { x with
      epoch := !x.epoch, idleDirty := true, switched := true, fwd := acc.map (fun a => (a.old, a.new)), idleMap := [] })
    let s : State := wring s f 8 [bit01 (fieldOf s f).epoch]
    acc.foldl (fun s a =>
      if a.source = 1 then emitRemap s f 0 (fieldOf s f).epoch a.pos a.old a.new
      else if a.source = 2 then
        finishQuarantine (emitRemap s f 1 (fieldOf s f).epoch a.pos a.old a.new) a.claim f stOk (pa f a.new)
      else s) s

/-- R140: a spot check of the step just ended, of a tile remapped at this seam, is superseded, and the tile is sampled again. -/
def supersedeSpots (s : State) (f : Nat) (acc : List Accepted) : State :=
  acc.foldl (fun s a =>
    let x := fieldOf s f
    let l := placeOfPos x a.pos
    match x.spots.find? (fun c => c.phys == a.old && decide (c.seamNo = x.seam)) with
    | none => s
    | some c =>
      let s : State := setField s f { x with spots := x.spots.filter (fun d => d != c), spotOwed := x.spotOwed ++ [l] }
      returnLent (countField s f (fun n => { n with superseded := sat32 (n.superseded + 1) })) f c.spare) s

/-- The clock switches (R357). -/
def switchClock (s : State) (f new cause : Nat) (c : Option FreqChange) : State :=
  let old := (fieldOf s f).clock
  let s : State := emitClockChange s f cause new old
  let s : State := wring s f 9 [old, new]
  modField s f (fun x => { x with clock := new, power := { x.power with change := c } })

/-- Order 6 (R24, R356, R357, R367): no switch takes the field above the lowest recorded Fmax of its mapped set. -/
def clockOrder (s : State) (f : Nat) : State :=
  let x := fieldOf s f
  let top := lowestMapped s f
  let settle := railSettle s (3 * f) * 1000
  if fieldOpmode s f = 0 ∧ top < x.clock then
    let c : FreqChange := { from_ := x.clock, dest := top, stage := 1, switchedAt := s.now }
    queueVcore (switchClock s f top 0 (some c)) f (setpointAt s f top)
  else
    match x.power.change with
    | some c =>
      let back := min c.from_ top
      let dest := min c.dest top
      if c.abort then
        if c.stage = 1 then
          let s : State := switchClock s f back 3 none
          if back < c.dest then queueVcore s f (setpointAt s f back) else s
        else if c.wrote && decide (c.wroteAt + settle ≤ s.now) then switchClock s f back 3 none
        else s
      else if c.stage ≠ 0 then s
      else if c.dest < x.clock then
        queueVcore (switchClock s f c.dest c.cause (some { c with stage := 1, switchedAt := s.now })) f (setpointAt s f c.dest)
      else if c.wrote && decide (c.wroteAt + settle ≤ s.now) then
        switchClock s f dest c.cause (some { c with dest := dest, stage := 1, switchedAt := s.now })
      else s
    | none => startChange s f

/-! ### Order 7 -/

/-- R198, R199: a token's payload enters the chain of its sequence. -/
def chainMax : Nat := 8388608
def chainToken (s : State) (log : Nat) (payload : List Word) : State :=
  let hit := fun c : Context => c.kind == 1 && c.first == log && c.ready && decide (c.tokens < chainMax)
  let full := s.side.contexts.filter (fun c => hit c && decide (c.tokens + 1 = chainMax))
  let s : State := { s with side := { s.side with contexts := s.side.contexts.map (fun c : Context =>
    if hit c then { c with
      digest := (c.digest * weightKey + digestOf weightKey (payload.take (c.length / 4))) % digMod, tokens := c.tokens + 1 }
    else c) } }
  full.foldl (fun s c =>
    match findContext s c.tenant c.num with
    | some k => emitDigest s evChainFull k 0 (digestWord k 0 k.agree k.disagree (!k.remotes.isEmpty))
    | none => s) s

/-- The logical tile whose export a guard's port holds: the tile's own, or that of the tile whose step the spare replayed. -/
def portOwner (s : State) (t : Nat) : Option Nat :=
  match logOf s t with
  | some l => some l
  | none => (s.groups.findSome? (fun g => g.spares.find? (fun e => g.state == .done && e.2 == t))).map (·.1)

/-- The guards of a field that hold exports at ports, with their logical tiles before the remaps of the seam. -/
def heldPorts (s : State) (f : Nat) : List (Nat × Option Nat) :=
  (s.guards.filter (fun e => taField e.1 == f && !e.2.ports.isEmpty)).map (fun e => (e.1, portOwner s e.1))

/-- PORT_EXPORT_RELEASE (R160, R198): what ports held leaves the wafer. -/
def releasePorts (s : State) (f : Nat) (held : List (Nat × Option Nat)) (token : Bool) : State :=
  held.foldl (fun s e =>
    let g := guardOf s e.1
    let s : State := g.ports.foldl (fun s p => drive s (.released e.1 p.1 p.2 (fieldOf s f).epoch)) s
    match e.2 with
    | some l => if token && g.ports.any (fun p => p.2 == .hostPort) then chainToken s l g.tokenWords else s
    | none => s) s

/-- The tile goes on with what it does across the release: a spot re-execution, a snapshot's end, a Bench test. -/
def runsOn (x : Field) (t : Nat) (g : Guard) : Bool := g.underTest || x.spots.any (fun c => c.spare == taPlace t)

/-- The guards at the release: the hold buffer is cleared for the step that begins, with its seam checkpoint (R152); a pin stays until it
is acknowledged (R26); the ring has its entry with the PASS of the next execution (R427). -/
def releaseGuards (s : State) (f : Nat) : State :=
  let x := fieldOf s f
  let sm := (x.seam + 1) % 2 ^ 24
  { s with guards := s.guards.map (fun e =>
    if taField e.1 = f ∧ runsOn x e.1 e.2 = false then
      (e.1, { clearGuard e.2 with
        pin := e.2.pin, syndrome := if e.2.pin then e.2.syndrome else 0, cls := if e.2.pin then e.2.cls else 0,
        instrAddr := if e.2.pin then e.2.instrAddr else 0, more := if e.2.pin then e.2.more else 0, checkpoint := sm,
        engines := e.2.enginesNext, enginesNext := e.2.enginesNext,
        ring := ({ typ := 2, seam := sm, cycle := 0, arg := if isShadow s e.1 then 3 else 0, detail := 0 } :: e.2.ring).take 32 })
    else e) }

/-- The groups that ended at this seam leave the field. -/
def leaveGroups (s : State) (f : Nat) : State :=
  { s with groups := (s.groups.map (fun g =>
      if g.state = .done then { g with fields := g.fields.filter (· != f) } else g)).filter (fun g => !g.fields.isEmpty) }

/-- What a seam's swaps and claims have copied counts at that seam alone (R216). -/
def forgetCopies (s : State) (f : Nat) : State :=
  modField s f (fun x => { x with bench := x.bench.map (fun e => (e.1, { e.2 with copied := false, tries := 0 })) })

/-- The next step begins. -/
def startStep (s : State) (f heldCycles : Nat) (held : List (Nat × Option Nat)) : State :=
  let window := match seamAt s f with | some m => m.window | none => false
  let last := decide ((fieldOf s f).seam + 1 = (fieldSeams s f).length)
  let token := endsToken s f
  let s : State := releasePorts s f held token
  let s : State := noteReleased (if token then endToken s f else s) f
  let s : State := forgetCopies (releaseGuards (leaveGroups s f) f) f
  let s : State := wring s f 2 [heldCycles]
  let s : State := modField s f (fun x => { x with
    startTs := if (x.compute.map (·.startSeam)) = some x.seam then s.now else x.startTs,
    run := if last then .held else .running, seam := x.seam + 1, arrived := 0, cut := 0, failed := [], taints := [], crossSent := [], droop := false,
    reserved := [], releaseTs := s.now, switched := false })
  let s : State := applySettings s f
  let s : State := if last then s else drawSpots s f
  if window then openWindow s f else s

/-- R99: commands that retire or release a row or a link of a tile that replayed at this seam wait for the seam after it. -/
def deferBusy (s : State) (f : Nat) (busy : List Nat) : State :=
  { s with fe := { s.fe with flight := s.fe.flight.map (fun c : Cmd =>
      let a := c.f 3 0 24
      if c.phase = .applying ∧ (c.opcode = opQuarantine ∨ c.opcode = opRelease) ∧ (c.f 4 0 4 = 1 ∨ c.f 4 0 4 = 2) ∧ taField a = f ∧
          busy.contains (taPlace a) = true then
        { c with waits := c.waits.map (fun w => if w = f then 84 + f else w) }
      else c) } }

/-- The places named by rows and links due at the seam whose tiles replayed at it. -/
def busyPlaces (s : State) (f : Nat) : List Nat :=
  let x := fieldOf s f
  ((x.rowsDue ++ x.linksDue).map (·.1) ++ x.backDue.map (fun e => e.2.1)).eraseDups.filter (replaysHere s f)

/-- R12, R31, R174: a nanosecond of the block timestamp passes; the charges of holds in progress run on. -/
def passTime (s : State) : State := if clocked s then chargeHolds { s with now := s.now + 1 } else s

/-- What the actions of orders 3 to 6 come to. -/
def seamActions (s : State) (f heldCycles : Nat) (swaps : List (Nat × BenchSlot)) : State :=
  let busy := busyPlaces s f
  let rows := !(fieldOf s f).rowsDue.isEmpty || !(borderLinks s f).isEmpty
  let s : State := settleDueBut (settleBorder (deferBusy s f busy) f busy) f busy
  if (fieldOf s f).lostCause.isSome then s
  else
    let a := processClaims s f
    let b := swaps.foldl (fun a e => benchSwap a.1 f a.2 e) a
    let s : State := supersedeSpots (epochSwitch b.1 f b.2) f b.2
    let s : State := swaps.foldl (fun s e => benchConclude s f e) s
    let s : State := if b.2.isEmpty then s else settleLevel s f false
    clockOrder (noteDisturbed s f heldCycles (rows || !b.2.isEmpty)) f

/-- FIELD_RELEASE (R16, R22 to R24, R36, R81, R99, R135, R138, R140, R152, R160, R164, R172 to R175, R216, R217, R247 to R250, R356,
R357, R362, R364, R400, R401): `heldCycles` runs from arrival to release. A partition that is being unloaded stops here. -/
def execFieldRelease (f heldCycles : Nat) (s : State) : Result :=
  if 84 ≤ f then .fault (.malformed "FIELD_RELEASE")
  else
    whenOk s (mayRelease s f heldCycles) "something still holds the field"
      (let swaps := swapsDue s f
       let held := heldPorts s f
       let s : State := applyExcess s f
       if (fieldOf s f).lostCause.isSome then s
       else
         let idle := idleCycles s f
         let s : State := chargeSlack s f heldCycles
         let left := heldCycles - (fieldOf s f).cut
         let s : State := countField s f (fun c => { c with hold := wrap48 (c.hold + left), idleHold := wrap48 (c.idleHold + min idle left) })
         let s : State := seamActions s f heldCycles swaps
         if (fieldOf s f).lostCause.isSome then retirementsApplied s f
         else
           match fieldPart s f with
           | some (p, y) => if y.unloading.isSome then stopField (leaveGroups s f) p f else startStep s f heldCycles held
           | none => s)

end Sys2Proof.Machine
end

