-- ==== Sys2Proof/Machine/ResetHang.lean ====
section
/-! DEFINITION. RESET, the reset sequencer (R285 to R296, R317), crash dumps (R312 to R316), hang sources (R297 to R303), the hub
watchdog (R304 to R306), quiesce and host loss (R309, R310). -/

namespace Sys2Proof.Machine

/-! ### RESET -/

/-- Word 4 of RESET by level. -/
def resetMask (level : Nat) : Nat := if level = 0 then 7 else if level = 1 then 0x7F else 0

/-- R451: tenant 0 with PRIV repeats the stages of an excluded field from the one that failed. -/
def repeatStages (s : State) (c : Cmd) (f : Nat) : State :=
  let x := fieldOf s f
  if c.tenant = 0 ∧ c.priv = true ∧ x.excluded = true then
    if x.exclStage ≤ 3 then
      let s : State := modField s f (fun y => { y with
        excluded := false, exclCause := 0, stage := y.exclStage, starts := 0,
        warden := if y.exclStage = 2 then .starting else y.warden })
      { s with boot := { s.boot with redo := s.boot.redo ++ [(f, x.exclStage)] } }
    else if s.boot.joining.contains f then s
    else { s with boot := { s.boot with joining := s.boot.joining ++ [f] } }
  else s

/-- RESET (R96, R292, R451): the reset is asked for; a CYCLE is accepted. -/
def execReset (q e : Nat) (s : State) : Result :=
  whenSome s (runCmd s q e opReset) "no running RESET" fun c =>
    let level := c.f 3 0 3
    let f := c.f 4 0 7
    if !reservedOk c [(3, 7), (4, resetMask level)] || decide (4 < level) || (decide (level = 1) && decide (84 ≤ f)) ||
        (decide (level = 2) && (partOf s c.part).isNone) then .next (complete s c stBadParam [])
    else if level = 4 then .next (if noNotification s c then complete s c stBadOpcode [] else wantCycle (accept s c []) 1)
    else
      let s : State := requestReset (background s c) level c.dom 0 false (some (q, e))
      .next (if level = 1 then repeatStages s c f else s)

/-! ### The sequencer -/

/-- A request that no running reset covers. -/
def nextReset (s : State) : Option ResetRun := s.hang.requests.find? (fun r => !domInReset s r.dom)

/-- RESET_START (R286, R288, R293, R295): the oldest request that no running reset covers. -/
def execResetStart (s : State) : Result :=
  whenSome s (nextReset s) "no reset is asked for" fun r =>
    whenOk s (clocked s) "no hub feed" (startReset s r (s.hang.requests.erase r))

/-- A field that leaves a reset: idle, unless its zone or its heat keeps it gated. -/
def leaveReset (x : Field) : Field :=
  { x with run := if x.zoneDown || x.tripped || x.therm.shut.isSome then .gated else .idle, quiet := false, stopped := false }

/-- R294: an UNMAP that a FIELD reset finds under way ends with it, for the program is gone. -/
def endUnload (s : State) (r : ResetRun) : State :=
  if r.level ≠ 1 then s
  else
    match fieldPart s (r.dom - 144) with
    | some (p, x) => if x.unloading.isSome then finishUnload s p else s
    | none => s

/-- EV_RESET (R317) about the reset's domain. -/
def emitReset (s : State) (r : ResetRun) (word : Dword) : State :=
  let body : Body := .fields [word.toNat]
  if r.level = 0 then emitBody s evReset (r.dom / 8) none body
  else if r.level = 1 then emitBody s evReset 0 (partNo s (r.dom - 144)) body
  else if r.level = 2 then emitBody s evReset 0 (some (r.dom - 128)) body
  else emitBody s evReset 0 none body

/-- Table 14.3: source codes of the trips. -/
def tripCode : TripSource → Nat
  | .zone z => 0x80 + z
  | .hub => 0x88

/-- EV_THERM_TRIP and EV_THERM_RESTART of a restart (R387). -/
def emitTrip (s : State) (k : Trip) (seconds broken : Nat) : State :=
  let s : State := emitWords s evThermTrip none ([w32 (tripCode k.source)] ++ w64 (k.opTime % 2 ^ 40) ++ [w32 k.parts])
  emitWords s evThermRestart none [w32 (tripCode k.source), w32 seconds, w32 broken, 0]

/-- R387: the records of a hub trip follow the WAFER reset of its restart. -/
def sendTrips (s : State) : State :=
  s.arb.tripDue.foldl (fun s k => emitTrip s k.1 k.2.1 k.2.2) { s with arb := { s.arb with tripDue := [] } }

/-- RESET_COMPLETE (R96, R100, R295 step 6, R317): the wardens acknowledge, `micros` after the start. -/
def execResetComplete (domain : Nat) (micros : Nat) (s : State) : Result :=
  whenSome s (s.hang.running.find? (fun r => r.dom == domain)) "no reset of the domain runs" fun r =>
    whenOk s (clocked s) "no hub feed"
      (let s : State := { s with hang := { s.hang with running := s.hang.running.filter (fun k => k.dom != domain) } }
       let s : State := modFields s (resetFields s r.level r.dom) leaveReset
       let ps := if r.level = 2 then [r.dom - 128] else if r.level = 3 then s.parts.map (·.1) else []
       let s : State := ps.foldl (fun s p => modPart s p (fun y => { y with heldAll := false })) s
       let s : State := endUnload s r
       let gen := (genOf s r.dom).toNat
       let word := resetWord r.level r.cause (resetTarget r.level r.dom) gen r.escalated r.dump r.aborted micros
       let seqNo := nextSeqNo s
       let s : State := if r.dump then { s with drawer := { s.drawer with
           staging := s.drawer.staging.map (fun d => { d with resetWord := word, eventSeq := seqNo }) } } else s
       let s : State := emitReset s r word
       let s : State := if r.level = 3 then sendTrips s else s
       match r.cmd.bind (fun a => findCmd s a.1 a.2) with
       | some c => complete s c stOk [w32 gen, w32 (sat16 r.aborted)]
       | none => s)

/-- Table 11.2: the time within which a reset of a level completes, in ns. -/
def resetLimitNs (level : Nat) : Nat := [10, 5, 20, 500].getD level 0 * 1000000

/-- RESET_ESCALATE (R292): a reset not complete within its limit is raised; a CTX reset never is. -/
def execResetEscalate (domain : Nat) (s : State) : Result :=
  whenSome s (s.hang.running.find? (fun r => r.dom == domain && r.level != 0 && decide (r.started + resetLimitNs r.level < s.now)))
      "no reset that may be raised runs in the domain" fun r =>
    whenOk s (clocked s) "no hub feed"
      (if r.level = 3 then wantCycle s 2
       else
         match if r.level = 1 then partNo s (r.dom - 144) else none with
         | some p => requestReset s 2 (domPart p) 6 true none
         | none => requestReset s 3 domWafer 6 true none)

/-- STALE_MESSAGE_DROP (R287, R289): a message with another generation than its domain's is dropped and counted. -/
def execStaleMessageDrop (domain : Nat) (gen : BitVec 6) (s : State) : Result :=
  if 229 ≤ domain then .fault (.malformed "STALE_MESSAGE_DROP")
  else
    whenOk s (clocked s && decide (gen ≠ genOf s domain)) "the generation is current"
      (let x := tget s.hang.stale (0, gen, s.now) domain
       { s with hang := { s.hang with stale := tset s.hang.stale domain (x.1 + 1, if x.1 = 0 then gen else x.2.1, x.2.2) } })

/-- STALE_RECORD_TIMER (R289): EV_STALE with the domain, the stale generation and the count. -/
def execStaleRecordTimer (domain : Nat) (s : State) : Result :=
  whenSome s (tfind s.hang.stale domain) "nothing was dropped" fun x =>
    whenOk s (clocked s) "no hub feed"
      (emit { s with hang := { s.hang with stale := tdel s.hang.stale domain } } evStale [domain, x.2.1.toNat, x.1])

/-- DUMP_WRITE_DONE (R237, R314, R315): the staged dump has been encrypted and written to its slot, once its reset or its watchdog recovery
has ended. -/
def execDumpWriteDone (bad : Option Nat) (s : State) : Result :=
  whenOk s (clocked s && stagedDue s && (!s.cab.failed || ((s.drawer.staging.bind (fun d => dumpKey s d.tenant)).isNone)))
    "no complete dump is staged, or the NOR is failed" (writeStaged s bad)

/-! ### Hang sources -/

/-- R299: a hang in a field with a program is handled as a lost step, without EV_STEP_LOST. -/
def hangLoss (s : State) (f cause : Nat) : State :=
  resetForLoss (countField s f (fun c => { c with lost := sat16 (c.lost + 1) })) f cause

/-- SEAM_OVERRUN (R298, R299): the running count passes the next seam's position, margin and grace without an arrival. -/
def execSeamOverrun (f : Nat) (count : Nat) (s : State) : Result :=
  if 84 ≤ f then .fault (.malformed "SEAM_OVERRUN")
  else
    let x := fieldOf s f
    whenSome s (seamAt s f) "no program is loaded, or its last seam is past" fun m =>
      whenOk s (clocked s && x.warden == .up && x.run == .running && decide (x.count ≤ count) &&
          decide (m.pos + m.margin + s.hang.grace * x.clock < count)) "the seam is not overrun"
        (let s : State := latchLevel s f 10 (fieldAddr f) 0xB 7 0 0
         hangLoss (modField s f (fun x => { x with count := count })) f 1)

/-- DEADLOCK (R297, R299). -/
def execDeadlock (f : Nat) (s : State) : Result :=
  if 84 ≤ f then .fault (.malformed "DEADLOCK")
  else
    whenOk s (clocked s && (fieldOf s f).warden == .up) "the warden is not up"
      (let s : State := latchLevel s f 9 (fieldAddr f) 0xA 0xA 0 0
       if fieldLoaded s f then hangLoss s f 2 else autoReset s 1 (domField f) 2)

/-- R300: the wait on the barrier tree began when the field came to its seam, or was loaded; its limit in ns is that of the partition's
last BARRIER_ARM, or 50 ms. -/
def waitStart (x : Field) : Nat := if x.atStart then x.releaseTs else x.arriveTs
def waitLimitNs (y : Part) : Nat := y.waitLimit.getD 50000 * 1000

/-- BARRIER_WAIT_LIMIT (R300): a field's wait on the barrier tree passes its limit. -/
def execBarrierWaitLimit (f : Nat) (s : State) : Result :=
  if 84 ≤ f then .fault (.malformed "BARRIER_WAIT_LIMIT")
  else
    let x := fieldOf s f
    whenSome s (fieldPart s f) "the field belongs to no partition" fun e =>
      whenOk s (clocked s && x.warden == .up && x.run == .held && (x.waitBarrier || crossWaits s f) &&
          decide (waitStart x + waitLimitNs e.2 < s.now)) "the field's wait on the barrier tree has not passed its limit"
        (autoReset s 2 (domPart e.1) 5)

/-- R235: the resends attributed to a path within the last second of operating time. -/
def resendsNow (s : State) (f k : Nat) : List (Nat × Nat) := (tget (fieldOf s f).resends [] k).filter (fun e => decide (s.cab.opTime < e.1 + 16))

/-- R236: every link of a tile has been switched to its redundant link, or is dead: resends that persist are its router's (DEDUCED, log
entry 165). -/
def allSwitched (s : State) (f p : Nat) : Bool :=
  (List.range 4).all (fun e => (facing f p e).isNone || linkUsed s f p e || linkDead s f p e)

/-- LINK_RESEND_THRESHOLD (R25, R235, R236): the warden's counters attribute `resends` more resends to the link at an edge of a tile. With
more than 32 in 1 s of operating time it is switched at the next seam, at once where no program runs; where its redundant link is in use it
is dead, or the tile's router is faulty. -/
def execLinkResendThreshold (tile edge resends : Nat) (s : State) : Result :=
  let f := taField tile
  let p := taPlace tile
  if !(physicalOk tile && decide (edge < 4) && (facing f p edge).isSome) then .fault (.malformed "LINK_RESEND_THRESHOLD")
  else
    whenOk s (clocked s && (fieldOf s f).warden == .up && !linkDead s f p edge) "the warden is not up, or the link is dead"
      (let k := 4 * p + edge
       let seen := resendsNow s f k ++ [(s.cab.opTime, resends)]
       if (seen.map (·.2)).sum ≤ 32 then modField s f (fun x => { x with resends := tset x.resends k seen })
       else
         let s : State := latchLevel (modField s f (fun x => { x with resends := tdel x.resends k })) f 7 tile 3 3 (w32 edge) 0
         if !linkUsed s f p edge then failLinkSoon s f p edge 3
         else if allSwitched s f p then
           routerFault s f { cls := 7, tile := tile, master := 3, access := 3, loc := w32 edge, detail := 0 }
         else killLink s f p edge 3)

/-- R238: the operation of a retired slot is issued anew into the slot that takes its place. -/
def reissue (s : State) (f slot : Nat) : State :=
  match (((usedSlots s f).zip (wardenOps s f)).find? (fun e => e.1 == slot)).map (·.2) with
  | some c => wring s f 10 [c.opcode, c.layer + c.opId * 2 ^ 16]
  | none => s

/-- WARDEN_SLOT_PARITY (R238): the slot is retired; its operation is reissued. -/
def execWardenSlotParity (f slot : Nat) (s : State) : Result :=
  if 84 ≤ f ∨ 40 ≤ slot then .fault (.malformed "WARDEN_SLOT_PARITY")
  else
    whenOk s (clocked s && (fieldOf s f).warden == .up && !s.hutch.img.badSlots.contains (f, slot)) "the slot is not in use"
      (retireSlot (reissue (latchLevel s f 11 (fieldAddr f) 8 0xA 0 0) f slot) f slot 3)

/-! ### Wardens (R301 to R303) -/

/-- WARDEN_HEARTBEAT (R270, R301). -/
def execWardenHeartbeat (f : Nat) (s : State) : Result :=
  if 84 ≤ f then .fault (.malformed "WARDEN_HEARTBEAT")
  else
    whenOk s (clocked s && (fieldOf s f).warden == .up) "the warden is not up" (modField s f (fun x => { x with wardenTs := s.now, beats := 0 }))

/-- The wardens that a reset of a field's warden takes: an even one takes its odd partner with it (R32, R302). -/
def wardenPair (f : Nat) : List Nat := if f % 2 = 0 then [f, f + 1] else [f]

/-- R302: the hub resets a warden: its domain goes off and comes back, and a replay that it ran is lost. -/
def resetWarden (s : State) (f : Nat) : State :=
  emit (stopWardens s (wardenPair f)) evWardenReset (wardenPair f ++ [0])

/-- WARDEN_HEARTBEAT_MISS (R302): the fourth in a row resets the warden, while hub firmware runs. -/
def execWardenHeartbeatMiss (f : Nat) (s : State) : Result :=
  if 84 ≤ f then .fault (.malformed "WARDEN_HEARTBEAT_MISS")
  else
    whenOk s (clocked s && s.hang.fwUp && (fieldOf s f).warden == .up) "the warden or the hub is not up"
      (if (fieldOf s f).beats < 3 then modField s f (fun x => { x with beats := x.beats + 1 }) else resetWarden s f)

/-- WARDEN_RESTART_DONE (R32, R268, R302): an odd warden only once its partner has power again. -/
def execWardenRestartDone (f : Nat) (s : State) : Result :=
  if 84 ≤ f then .fault (.malformed "WARDEN_RESTART_DONE")
  else
    whenOk s (clocked s && s.hang.fwUp && (fieldOf s f).warden == .inReset && partnerOn s f)
      "the warden is not restarting"
      (modField s f (fun x => { x with
        warden := .up, beats := 0, starts := 0, wardenTs := s.now, lateLatch := !x.guardPins.isEmpty || !x.routerPins.isEmpty }))

/-- WARDEN_RESTART_TIMEOUT (R303): the warden is reset again; the third failed restart in a row asks for CYCLE with reason 0x04. -/
def execWardenRestartTimeout (f : Nat) (s : State) : Result :=
  if 84 ≤ f then .fault (.malformed "WARDEN_RESTART_TIMEOUT")
  else
    whenOk s (clocked s && s.hang.fwUp && (fieldOf s f).warden == .inReset) "the warden is not restarting"
      (let s : State := modField s f (fun x => { x with starts := min 3 (x.starts + 1) })
       if (fieldOf s f).starts = 3 then wantCycle s 4 else resetWarden s f)

/-! ### The hub watchdog (R304 to R306) -/

/-- HUB_WATCHDOG_FIRE (R304, R306, R312): with the reference lost it fires once and holds the hub; else fire 2 resets the wafer and fire 3
asks for CYCLE. -/
def execHubWatchdogFire (s : State) : Result :=
  if !(s.feed && s.boot.s1 && !s.arb.hubOff && !(!s.hang.refOk && s.hang.heldRef)) then idle s "the watchdog does not count"
  else
    let s : State := raiseBit s tsHang
    let s : State := (captureDump s 0 7 7 allFields).1
    if !s.hang.refOk then .next (firmwareDown { s with hang := { s.hang with heldRef := true } })
    else
      let n := s.hang.fires + 1
      let s : State := firmwareDown { s with hang := { s.hang with fires := min 255 n, windowOpen := true, restarted := false } }
      .next (if n = 2 then autoReset s 3 domWafer 7 else if n = 3 then wantCycle s 3 else s)

/-- A WAFER reset of the watchdog is asked for or runs. -/
def dogResets (s : State) : Bool :=
  let dog := fun r : ResetRun => r.level == 3 && r.cause == 7
  s.hang.requests.any dog || s.hang.running.any dog

/-- R304 to R306: the sequencer may start the hub restart. -/
def mayRestart (s : State) : Bool :=
  s.feed && s.boot.s1 && s.hang.refOk && !s.arb.hubOff && (if s.hang.windowOpen then !s.hang.restarted && !dogResets s else !s.hang.fwUp)

/-- R386: the field's zone is tripped, or was and restarted while firmware was down. -/
def trippedSince (s : State) (f : Nat) : Bool :=
  (fieldOf s f).tripped || s.arb.tripDue.any (fun k => k.1.source == .zone (zoneOf f))

/-- R386, R387: partitions with a field in a zone that tripped while firmware was down lose their step once it runs, and the records of
zones that have restarted since follow. -/
def lateTrips (s : State) : State :=
  let hit := (s.parts.filter (fun e => e.2.prog.isSome && !e.2.heldAll)).filterMap (fun e => (partFields e.2).find? (trippedSince s))
  let zones := s.arb.tripDue.filter (fun k => k.1.source != .hub)
  let s : State := hit.foldl (fun s f => lostStep s f 0 3 false 0 0xFFFFFF 0 0 4) s
  zones.foldl (fun s k => emitTrip s k.1 k.2.1 k.2.2)
    { s with arb := { s.arb with tripDue := s.arb.tripDue.filter (fun k => k.1.source == .hub) } }

/-- HUB_RESTART (R92, R286, R305): HUB_CORE restarts; every generation advances; firmware-path commands and operations in flight end with
ST_STALE_GEN; claims that the block made itself are renewed. -/
def execHubRestart (s : State) : Result :=
  whenOk s (mayRestart s) "no restart is due"
    (let s : State := bumpGens s (List.range 229)
     let s : State := (s.fe.flight.filter (fun c => opFw c.opcode)).foldl abortCmd s
     let s : State := endOps s (s.fe.ops.filter (fun o => o.final.isNone))
     let s : State := { s with fields := s.fields.map (fun e => (e.1, { e.2 with
       claims := e.2.claims.map (fun c => { c with gen := genOf s (domField e.1) }) })) }
     let s : State := { s with hang := { s.hang with fwUp := true, restarted := true, heldRef := false } }
     lateTrips (repeatStage s))

/-- HUB_HEARTBEAT_TOGGLE (R304): a toggle after the restart, inside the window, closes it, and EV_WDOG gives the fire count. -/
def execHubHeartbeatToggle (s : State) : Result :=
  whenOk s (clocked s && s.hang.fwUp && s.hang.refOk) "hub firmware is not up"
    (let s : State := { s with hang := { s.hang with hbCount := (s.hang.hbCount + 1) % 65536, hbAt := some s.now } }
     if s.hang.windowOpen && s.hang.restarted then
       let seqNo := nextSeqNo s
       let s : State := { s with
         hang := { s.hang with windowOpen := false, restarted := false },
         drawer := { s.drawer with staging := s.drawer.staging.map (fun d => if d.level = 7 then { d with eventSeq := seqNo } else d) } }
       emit s evWdog [s.hang.fires]
     else s)

/-- WATCHDOG_COUNT_CLEAR (R304): 60 s without a miss. -/
def execWatchdogCountClear (s : State) : Result :=
  whenOk s (clocked s && s.hang.fwUp && !s.hang.windowOpen) "the heartbeat does not run" { s with hang := { s.hang with fires := 0 } }

/-- REF_CLOCK_LOSS (R49, R66, R306): REFLOSS is set over a path that needs no reference; SMBus and hub firmware stand still. -/
def execRefClockLoss (s : State) : Result :=
  whenOk s (s.feed && s.hang.refOk) "the reference is lost already"
    (let s : State := firmwareDown s
     raiseBit { s with tray := { s.tray with smbDead := true }, hang := { s.hang with refOk := false } } tsRefloss)

/-- REF_CLOCK_RESTORE (R66, R306): valid again for 1 ms; the hub restart follows and the watchdog counts afresh. REFLOSS is W1C. -/
def execRefClockRestore (s : State) : Result :=
  whenOk s (s.feed && !s.hang.refOk) "the reference is not lost"
    { s with tray := { s.tray with smbDead := false },
             hang := { s.hang with refOk := true, heldRef := false, windowOpen := false, restarted := false } }

/-! ### Quiesce and host loss (R309, R310) -/

/-- HEARTBEAT_CFG (R298, R310, R492). The timeout is checked only with detection on. DEDUCED. -/
def execHeartbeatCfg (q e : Nat) (s : State) : Result :=
  whenSome s (runCmd s q e opHeartbeatCfg) "no running HEARTBEAT_CFG" fun c =>
    let on := c.b 3 0
    let t := c.f 3 16 16
    if !reservedOk c [(3, 0xFFFF0001), (4, 7), (5, 0xFF)] || decide (1 < c.f 4 0 3) ||
        (on && (decide (t < 100) || decide (60000 < t))) then .next (complete s c stBadParam [])
    else
      let old := s.hang.hbCfg
      let s : State := { s with hang := { s.hang with
        lossOn := on, lossTimeout := t, lossAction := c.f 4 0 3, grace := c.f 5 0 8, hbCfg := c.words.getD 3 0 } }
      .next (complete s c stOk [old])

/-- HOST_LOSS (R310): once per loss. -/
def execHostLoss (s : State) : Result :=
  whenOk s (clocked s && s.hang.fwUp && s.hang.lossOn && !s.hang.hostLost) "no loss is detected"
    (let s : State := emit { s with hang := { s.hang with hostLost := true } } evHostLoss [s.hang.lossTimeout, s.hang.lossAction]
     if s.hang.lossAction = 1 then startQuiesce s else s)

/-- R309: the field stands held for the quiesce, or runs no program. -/
def quietField (s : State) (f : Nat) : Bool :=
  let x := fieldOf s f
  !fieldLoaded s f || (x.run != .running &&
    (x.quiet || (match fieldPart s f with | some (_, p) => p.heldAll | none => false) || decide ((fieldSeams s f).length ≤ x.seam) || x.run == .gated))

/-- R309: no command of tenants 1-15 is in flight any more. -/
def tenantsDone (s : State) : Bool := s.fe.flight.all (fun c => c.tenant == 0)

/-- QUIESCE_COMPLETE (R309): the tenants' commands have completed, every partition is held and every record is committed. -/
def execQuiesceComplete (s : State) : Result :=
  whenOk s (clocked s && s.hang.fwUp && decide (s.hang.quiesce = 1) && tenantsDone s && allFields.all (quietField s))
    "no quiesce is in progress, a field still runs, or a command is in flight"
    (let s : State := commitAll s
     emit (raiseBit { s with hang := { s.hang with quiesce := 2 } } tsQuiesced) evQuiesce [s.hang.quiesceAt])

end Sys2Proof.Machine
end

