-- ==== Sys2Proof/Machine/Thermal.lean ====
section
/-! DEFINITION. The thermal model, diodes, throttling, shutdown and hardware trips (R372 to R392). Field 84 stands for the hub. -/

namespace Sys2Proof.Machine

/-! ### One home for the model of a field and of the hub -/

def hubField : Nat := 84
def thermOf (s : State) (f : Nat) : Thermal := if f = hubField then s.arb.hubTherm else (fieldOf s f).therm
def setTherm (s : State) (f : Nat) (t : Thermal) : State :=
  if f = hubField then { s with arb := { s.arb with hubTherm := t } } else modField s f (fun x => { x with therm := t })
/-- The part that keeps the model runs: the field's warden, or the hub. -/
def thermUp (s : State) (f : Nat) : Bool :=
  clocked s && (if f = hubField then !s.arb.hubOff else decide (f < 84) && (fieldOf s f).warden == .up)

/-- Table 14.1. -/
def riseLimit (s : State) : Int :=
  let b := boardByte s 0x800
  if b < 5 ∨ 50 < b then 15 else ((b : Nat) : Int)
def trefMax (s : State) : Int :=
  let b := boardByte s 0x801
  if b = 0 then 45 * 16 else ((b * 16 : Nat) : Int)
/-- R376: T_ref is held within 10 degrees and TREF_MAX. -/
def clampTref (s : State) (t : Int) : Int := max 160 (min (trefMax s) t)

/-- R373: signed 16 bits in 1/16 degree. -/
def roundBy (up : Rat → Bool) (r : Rat) : Int := if ((r.floor : Int) : Rat) = r then r.floor else if up r then r.floor + 1 else r.floor
def nodeTemp (r : Rat) : Int := max (-32768) (min 32767 (roundBy Config.thermalRoundsUp r))
/-- The 16 bits of a temperature. -/
def temp16 (t : Int) : Nat := (t % 65536).toNat

/-! ### Bands (R379, Table 14.2) -/

def bandBounds : List Int := [800, 1120, 1360, 1520]
/-- Lower bound of band `b + 1`. -/
def bandBound (b : Nat) : Int := bandBounds.getD b 0
/-- The band that node 0 gives without history. -/
def bandOf (t : Int) : Nat := (bandBounds.filter (fun b => decide (b ≤ t))).length
/-- R379: a band is left downward only 2 degrees below its bound. -/
def bandNext (old : Nat) (t : Int) : Nat :=
  (((List.range 4).reverse.find? (fun b => decide (bandBound b ≤ t) || (decide (b < old) && decide (bandBound b - 32 < t)))).map (· + 1)).getD 0
/-- R377, R388: a sensor hold keeps T4, a first power-up T3 or above. -/
def bandWith (x : Thermal) (b : Nat) : Nat := if x.hold then 4 else if x.firstHold then max 3 b else b

/-- THERM_WARN (Table 2.6): at least one field in band T4. -/
def setThermWarn (s : State) : State := setBitTo s tsThermWarn (s.fields.any (fun e => e.2.therm.band == 4))

/-- EV_THERM_BAND (R391): at most once per field per second. -/
def emitThermBand (s : State) (f old new : Nat) (rate : Bool) : State :=
  let x := thermOf s f
  let sec := s.cab.opTime / 16 + 1
  if x.bandSecond = sec then setTherm s f { x with bandSkipped := sat 0xFFFFFFFF (x.bandSkipped + 1) }
  else
    let s : State := setTherm s f { x with bandSecond := sec, bandSkipped := 0 }
    wardenSends s f evThermBand (partNo s f)
      [w32 (f + old * 2 ^ 8 + new * 2 ^ 11 + bit01 x.hold * 2 ^ 14 + bit01 rate * 2 ^ 15 + temp16 x.node0 * 2 ^ 16),
       w32 x.bandSkipped, 0, 0]

/-- The in-service diodes (R377). -/
def goodDiodes (x : Thermal) : List Nat := (List.range 4).filter (fun d => !x.excluded.contains d)

/-- A field's band is set (R379): its settings wait for the next seam, at once where no program makes seams; on a rise to T3 or T4
the warden reads every in-service diode (R375). `reads` is false where an adjudication reads them. -/
def setBand (s : State) (f new : Nat) (reads : Bool) : State :=
  let x := thermOf s f
  let old := x.band
  if f = hubField then setTherm s f { x with band := new }
  else if new = old then s
  else
    let s : State := setTherm s f { x with
      band := new, bandSet := if fieldLoaded s f then x.bandSet else new,
      pending := if reads && decide (old < new) && decide (3 ≤ new) then goodDiodes x else x.pending }
    setThermWarn (emitThermBand s f old new false)

/-! ### The model (R372) -/

/-- Entries of the last millisecond, and the newest older one. -/
def trimHist (now : Nat) (h : List (Nat × Int)) : List (Nat × Int) :=
  h.filter (fun e => decide (now < e.1 + 1000000)) ++ (h.filter (fun e => decide (e.1 + 1000000 ≤ now))).take 1
/-- Node 0 one millisecond ago, none where the model has not run so long. -/
def nodeThen (now : Nat) (h : List (Nat × Int)) : Option Int := (h.find? (fun e => decide (e.1 + 1000000 ≤ now))).map (·.2)

/-- R372: the fields that share an edge with a field. -/
def neighbours (f : Nat) : List Nat :=
  (if 0 < fieldCol f then [f - 1] else []) ++ (if fieldCol f < 11 then [f + 1] else []) ++
    (if 0 < fieldRow f then [f - 12] else []) ++ (if fieldRow f < 6 then [f + 12] else [])

/-- Mean calibrated power over the last 10 us. -/
def recentWatts (s : State) (f : Nat) : Rat :=
  if f = hubField then Config.hubWatts s.now
  else ratMean ((recentOf s 10000 (fieldOf s f).power.watts).map (fun e => ratSum e.2))

def ratOf (t : Int) : Rat := (t : Rat)
/-- A temperature difference in degrees. -/
def degrees (a b : Int) : Rat := ratOf (a - b) / 16

/-- R372: one step of the three nodes. Coefficients are 1/R1, 1/R12, 1/R2R, 1/RLAT, DT/C0, DT/C1, DT/C2. -/
def modelStep (s : State) (f : Nat) (x : Thermal) : Thermal :=
  let k := Config.thermalCoeff s.mfg.stepping
  let q01 := degrees x.node0 x.node1 * k 0
  let q12 := degrees x.node1 x.node2 * k 1
  let q2r := degrees x.node2 x.tref * k 2
  let ns := if f = hubField then [] else neighbours f
  let qlat := ratSum (ns.map (fun n => degrees x.node1 (thermOf s n).node1 * k 3))
  let moved := fun (t : Int) (d : Rat) => nodeTemp (ratOf t + 16 * d)
  { x with
    node0 := moved x.node0 (k 4 * (recentWatts s f - q01)),
    node1 := moved x.node1 (k 5 * (q01 - q12 - qlat)),
    node2 := moved x.node2 (k 6 * (q12 - q2r)),
    hist := (s.now, x.node0) :: trimHist s.now x.hist }

/-- R381: a field whose node 0 rises too fast is treated as in T4, until its rise falls below half the limit. -/
def noteRise (s : State) (f : Nat) : State :=
  let x := thermOf s f
  match nodeThen s.now x.hist with
  | none => s
  | some t =>
    let rise := x.node0 - t
    if x.rising then
      if rise * 20 < riseLimit s * 16 then setTherm s f { x with rising := false } else s
    else if riseLimit s * 16 < rise * 10 then emitThermBand (setTherm s f { x with rising := true }) f x.band x.band true
    else s

/-- R384: node 0 and every good diode read stand below 85 degrees. -/
def coolNow (x : Thermal) : Bool :=
  decide (x.node0 < 1360) &&
    (goodDiodes x).all (fun d => match x.diodes.getD d none with | some t => decide (t < 1360) | none => true)
/-- R384, R391: the count towards the return of a shut-down field; a rise to 85 degrees breaks it. -/
def noteCool (s : State) (f : Nat) : State :=
  let x := thermOf s f
  if !x.shutDone then s
  else
    match x.coolFrom with
    | none => if coolNow x then setTherm s f { x with coolFrom := some s.now } else s
    | some _ => if coolNow x then s else setTherm s f { x with coolFrom := none, coolBreaks := sat 0xFFFFFFFF (x.coolBreaks + 1) }

/-- THERMAL_MODEL_UPDATE (R372, R379, R381, R384). -/
def execThermalModelUpdate (f : Nat) (s : State) : Result :=
  if hubField < f then .fault (.malformed "THERMAL_MODEL_UPDATE")
  else
    whenOk s (thermUp s f) "the model does not run"
      (let x := modelStep s f (thermOf s f)
       let s : State := setTherm s f x
       let s : State := setBand s f (bandWith x (bandNext x.band x.node0)) true
       noteCool (if f = hubField then s else noteRise s f) f)

/-! ### Diodes (R375 to R378) -/

/-- DIODE_ROTATION (R375, R383): the next in-service diode, or all four of a shut-down field. -/
def execDiodeRotation (f : Nat) (s : State) : Result :=
  if hubField < f then .fault (.malformed "DIODE_ROTATION")
  else
    whenOk s (thermUp s f) "the warden does not run"
      (let x := thermOf s f
       let ds := if x.shut.isSome then goodDiodes x
         else (((List.range 4).map (fun i => (x.next + i) % 4)).find? (fun d => (goodDiodes x).contains d)).toList
       setTherm s f { x with
         pending := x.pending ++ ds.filter (fun d => !x.pending.contains d),
         next := match ds.getLast? with | some d => (d + 1) % 4 | none => x.next })

/-- R376. -/
def readFails (r : Option Int) : Bool :=
  match r with
  | none => true
  | some t => decide (t < -640) || decide (2400 < t)
def readDisagrees (x : Thermal) (r : Option Int) : Bool :=
  match r with
  | none => false
  | some t => decide (240 < t - x.node0) || decide (240 < x.node0 - t)
def readGood (x : Thermal) (r : Option Int) : Bool := !readFails r && !readDisagrees x r

/-- The last reading of a diode, none where it failed. -/
def storeReading (x : Thermal) (d : Nat) (r : Option Int) : Thermal :=
  { x with diodes := (x.diodes ++ List.replicate 4 none).take 4 |>.set d (if readFails r then none else r),
           pending := x.pending.filter (· != d) }

def meanTemp (l : List Int) : Int :=
  roundBy Config.meanRoundsUp (ratSum (l.map ratOf) / (((max 1 l.length : Nat)) : Rat))

/-- R376: a good read moves T_ref by a quarter of its difference from node 0. -/
def calibrateTref (s : State) (x : Thermal) (r : Option Int) : Thermal :=
  match r with
  | some t => if readGood x r then
      { x with tref := clampTref s (x.tref + roundBy Config.meanRoundsUp (ratOf (t - x.node0) / 4)) } else x
  | none => x

/-- Median of readings in 1/16 degree, as twice its value. -/
def median2 (l : List Int) : Int :=
  let v := sortBy (fun a b => decide (a ≤ b)) l
  let n := v.length
  if n % 2 = 1 then 2 * v.getD (n / 2) 0 else v.getD (n / 2 - 1) 0 + v.getD (n / 2) 0

/-- R377: the adjudication of a set of readings: the model after it, and whether it was reseeded. -/
def adjudicateDiodes (s : State) (x : Thermal) (rs : List (Nat × Option Int)) : Thermal × Bool :=
  let valid : List (Nat × Int) := rs.filterMap (fun e => if readFails e.2 then none else e.2.map (fun t => (e.1, t)))
  let m2 := median2 (valid.map (·.2))
  let near := valid.filter (fun e => decide (2 * e.2 - m2 ≤ 96) && decide (m2 - 2 * e.2 ≤ 96))
  if near.length < 2 then (x, false)
  else
    let outs := (rs.map (·.1)).filter (fun d => !(near.map (·.1)).contains d)
    let x : Thermal := { x with
      hold := false, excluded := x.excluded ++ outs,
      diodes := x.diodes.zipIdx.map (fun e => if outs.contains e.2 then none else e.1) }
    if 480 < m2 - 2 * x.node0 ∨ 480 < 2 * x.node0 - m2 then
      let d := meanTemp (near.map (·.2)) - x.node0
      ({ x with
         node0 := x.node0 + d, node1 := x.node1 + d, node2 := x.node2 + d, tref := clampTref s (x.tref + d),
         hist := x.hist.map (fun e => (e.1, e.2 + d)) }, true)
    else (x, false)

/-- EV_SENSOR_FAULT (Table 14.3). -/
def emitSensorFault (s : State) (f d : Nat) (r : Option Int) (before : Int) (x : Thermal) (reseeded : Bool) : State :=
  let cause := if x.excluded.contains d then 2 else if readFails r then 0 else 1
  let shown := if readFails r then 0x8000 else temp16 (r.getD 0)
  let send := fun ws : List Word => if f = hubField then emitWords s evSensorFault none ws else wardenSends s f evSensorFault (partNo s f) ws
  send
    [w32 ((if f = hubField then 0x7F else f) + d * 2 ^ 8 + cause * 2 ^ 11 + shown * 2 ^ 16),
     w32 (temp16 before + (goodDiodes x).length * 2 ^ 16), w32 (bit01 reseeded + bit01 x.hold * 2), 0]

/-- One read completes (R376 to R378); `others` are the readings that an adjudication takes of the other in-service diodes. -/
def readDiode (s : State) (f d : Nat) (r : Option Int) (others : List (Nat × Option Int)) : State :=
  let x0 := thermOf s f
  let x := storeReading x0 d r
  if readGood x0 r then
    let x : Thermal := calibrateTref s x r
    if x.hold then
      let x : Thermal := { x with hold := false }
      setBand (setTherm s f x) f (bandWith x (bandOf x.node0)) true
    else setTherm s f x
  else
    let hub := decide (f = hubField)
    let s : State := setTherm s f (if hub then x else { x with hold := true })
    let s : State := if hub then s else latchLevel (setBand s f 4 false) f 12 (fieldAddr f) 8 0xA 0 0
    let x : Thermal := others.foldl (fun x e => calibrateTref s (storeReading x e.1 e.2) e.2) (thermOf s f)
    let a := adjudicateDiodes s x ((d, r) :: others)
    let s : State := setTherm s f a.1
    let s : State := if hub || a.1.hold then s else setBand s f (bandWith a.1 (bandOf a.1.node0)) false
    emitSensorFault s f d r x0.node0 (thermOf s f) a.2

/-- DIODE_READ_DONE (R375 to R378). -/
def execDiodeReadDone (f diode : Nat) (reading : Option Int) (others : List (Nat × Option Int)) (s : State) : Result :=
  if hubField < f ∨ 4 ≤ diode then .fault (.malformed "DIODE_READ_DONE")
  else
    let x := thermOf s f
    if !readGood x reading && others.map (·.1) != (goodDiodes x).filter (· != diode) then .fault (.malformed "DIODE_READ_DONE")
    else
      whenOk s (thermUp s f && x.pending.contains diode) "the diode is not being read" (noteCool (readDiode s f diode reading others) f)

/-- R389: the four diodes are read for a command; the first bad reading adjudicates with the rest. -/
def readAll (s : State) (f : Nat) (readings : List (Option Int)) : State :=
  let x := thermOf s f
  let rs := (goodDiodes x).map (fun d => (d, readings.getD d none))
  match rs.find? (fun e => !readGood x e.2) with
  | some e => readDiode s f e.1 e.2 (rs.filter (fun a => a.1 != e.1))
  | none => rs.foldl (fun s e => readDiode s f e.1 e.2 []) s

/-- R389: what THERMAL_READ returns. -/
def thermalResults (s : State) (f : Nat) : List Word :=
  let x := thermOf s f
  let v := fun d : Nat => match x.diodes.getD d none with | some t => temp16 t | none => 0x8000
  [w32 (temp16 x.node0 + temp16 x.node1 * 2 ^ 16), w32 (temp16 x.node2),
   w32 (if f = hubField then bandOf x.node0 else x.band), w32 (v 0 + v 1 * 2 ^ 16), w32 (v 2 + v 3 * 2 ^ 16)]

/-- THERMAL_READ (R375, R389). -/
def execThermalRead (q e : Nat) (readings : List (Option Int)) (s : State) : Result :=
  whenSome s (runCmd s q e opThermalRead) "no running THERMAL_READ" fun c =>
    let n := c.f 3 0 7
    let f := if n = 0x7F then hubField else n
    if !reservedOk c [(3, 0x17F), (11, 0xFFFFFFFF), (12, 0xFFFFFFFF), (13, 0xFFFFFFFF)] || (decide (84 ≤ n) && decide (n ≠ 0x7F)) ||
        (s.regs.legacy && !outDescOk c) then .next (complete s c stBadParam [])
    else if c.b 3 8 && thermUp s f then
      if readings.length ≠ 4 then .fault (.malformed "THERMAL_READ")
      else
        let t : State := noteCool (readAll s f readings) f
        .next (completeRes t c stOk (thermalResults t f))
    else .next (completeRes s c stOk (thermalResults s f))

/-! ### Throttling (R380 to R382) -/

def fieldHot (x : Field) : Bool := x.therm.band == 4 || x.therm.rising
/-- Node 0 has fallen over the last millisecond. -/
def fieldCools (s : State) (x : Field) : Bool :=
  match nodeThen s.now x.therm.hist with
  | some t => decide (x.therm.node0 < t)
  | none => false

/-- R380: one tightening of a partition. -/
def tighten (s : State) (x : Part) : Part :=
  let fs := partFields x
  let locked := fs.any (fun f => (fieldOf s f).power.lockout)
  if x.opmodeRun ≠ 0 ∨ locked then { x with thermDuty := min 12 (x.thermDuty + 1) }
  else
    let run := fs.foldl (fun m f => max m (fieldOf s f).clock) 600
    let cur := if x.thermCeil = 0 then run else min run x.thermCeil
    match (rungsUpTo (cur - 1)).head? with
    | some r => { x with thermCeil := r }
    | none => { x with thermCeil := 600, thermDuty := min 12 (x.thermDuty + 1) }

/-- R380: relaxing once no field is in T4: the duty first, then the ceiling, one rung at most once per millisecond (R361). -/
def relaxThermal (s : State) (x : Part) : Part :=
  if x.thermDuty ≠ 0 then { x with thermDuty := x.thermDuty - 1 }
  else if x.thermCeil = 0 ∨ s.now < x.lastRaise + 1000000 then x
  else
    let top := (partFields x).foldl (fun m f => max m (mapClock s f)) 600
    { x with thermCeil := if top ≤ x.thermCeil + 25 then 0 else x.thermCeil + 25, lastRaise := s.now }

/-- R380: the replan of one partition. -/
def replanThermal (s : State) (x : Part) : Part :=
  let fs := partFields x
  if fs.any (fun f => fieldHot (fieldOf s f)) then
    if x.thermDone then x
    else if fs.all (fun f => fieldCools s (fieldOf s f)) then { x with thermDone := true }
    else tighten s x
  else relaxThermal s { x with thermDone := false }

/-- THERMAL_THROTTLE_REPLAN (R380, R382). -/
def execThermalThrottleReplan (s : State) : Result :=
  whenOk s (clocked s && !s.arb.hubOff) "the arbiter is off"
    (let s' : State := (loadedParts s).foldl (fun t e => modPart t e.1 (replanThermal s)) s
     ((loadedParts s').flatMap (fun e => partFields e.2)).foldl startChange s')

/-! ### Shutdown (R383, R384) -/

/-- Partitions of fields, a bit per partition. -/
def partMask (s : State) (fs : List Nat) : Nat :=
  (s.parts.map (fun e => if (partFields e.2).any (fun f => fs.contains f) then 2 ^ e.1 else 0)).sum

def hotDiodes (x : Thermal) : List Int := (goodDiodes x).filterMap (fun d =>
  match x.diodes.getD d none with
  | some t => if 1680 ≤ t then some t else none
  | none => none)

/-- FIELD_SHUTDOWN (R383): the decision, the hold and its record. -/
def execFieldShutdown (f : Nat) (s : State) : Result :=
  if 84 ≤ f then .fault (.malformed "FIELD_SHUTDOWN")
  else
    let x := thermOf s f
    let byModel := decide (1680 ≤ x.node0)
    whenOk s (thermUp s f && s.hang.fwUp && x.shut.isNone && !fieldInReset s f && (byModel || decide (2 ≤ (hotDiodes x).length)) &&
        decide (queueBytes s + 40 ≤ queueCap)) "no shutdown is due"
      (let s : State := if fieldLoaded s f then holdPartition s f else s
       let s : State := setTherm s f { x with
         shut := some (nextSeqNo s), shutDone := false, shutAt := s.now, coolFrom := none, coolBreaks := 0 }
       let t := if byModel then x.node0 else (hotDiodes x).foldl max 1680
       emitWords s evThermShutdown (partNo s f)
         ([w32 (f + bit01 (!byModel) * 2 ^ 8 + temp16 t * 2 ^ 16), w32 (partMask s [f])] ++ w64 s.now))

/-- The record is committed, in the ring or in the fallback store. -/
def recordCommitted (s : State) (seqNo : Nat) : Bool :=
  s.nor.ring.any (fun r => r.seqNo == seqNo) || s.cab.store.any (fun r => r.seqNo == seqNo)

/-- SHUTDOWN_PROCEED (R383 steps 3 and 4). -/
def execShutdownProceed (f : Nat) (s : State) : Result :=
  if 84 ≤ f then .fault (.malformed "SHUTDOWN_PROCEED")
  else
    whenSome s (thermOf s f).shut "no shutdown is decided" fun n =>
      whenOk s (clocked s && s.hang.fwUp && !(thermOf s f).shutDone && recordCommitted s n) "the record is not committed"
        (let s : State := modField s f (fun x => { x with run := .gated, therm := { x.therm with shutDone := true } })
         let s : State := noteCool (queueVcore s f 620) f
         if fieldLoaded s f then lostStep s f 0 3 false 0 0xFFFFFF 0 0 4 else s)

/-- R384: a shut-down field has stayed below 85 degrees for 60 s. -/
def coolEnough (s : State) (f : Nat) : Bool :=
  match (thermOf s f).coolFrom with
  | some t => decide (t + 60000000000 ≤ s.now)
  | none => false

/-- THERMAL_RESTART (R384): after 60 s below 85 degrees. -/
def execThermalRestart (f : Nat) (s : State) : Result :=
  if 84 ≤ f then .fault (.malformed "THERMAL_RESTART")
  else
    let x := thermOf s f
    whenOk s (clocked s && s.hang.fwUp && x.shut.isSome && x.shutDone && coolNow x && coolEnough s f && !fieldInReset s f) "the field does not restart"
      (let s : State := modField s f (fun y => { y with
         run := if y.zoneDown || y.tripped then .gated else .idle, therm := { y.therm with shut := none, shutDone := false, coolFrom := none } })
       let s : State := queueVcore s f (setpointAt s f (fieldOf s f).clock)
       emitWords s evThermRestart none [w32 f, w32 ((s.now - x.shutAt) / 1000000000), w32 x.coolBreaks, 0])

/-! ### Hardware trips (R385 to R387) -/

def tripped (s : State) (t : TripSource) : Bool := s.arb.trips.any (fun k => k.source == t)

/-- HUB_AON latches the source and the operating time, drives THERMTRIP_N low and sets THERMTRIP (R386). -/
def latchTrip (s : State) (t : TripSource) (parts : Nat) : State :=
  raiseBit { s with arb := { s.arb with trips := s.arb.trips ++ [{ source := t, opTime := s.cab.opTime, parts := parts }] } } tsThermtrip

/-- The hardware stop of fields (R295 step 2, R386). -/
def stopHard (s : State) (fs : List Nat) : State := modFields s fs (fun x => { x with run := .gated })

/-- R450, Table 17.7: fields of the zone in S4 or S5 of a wave leave it and repeat that stage. -/
def leaveWave (s : State) (fs : List Nat) : State :=
  let out := s.boot.inWave.filter (fun f => fs.contains f && ((fieldOf s f).stage == 4 || (fieldOf s f).stage == 5))
  { s with boot := { s.boot with
    inWave := s.boot.inWave.filter (fun f => !out.contains f),
    redo := s.boot.redo ++ out.map (fun f => (f, (fieldOf s f).stage)) } }

/-- ZONE_TRIP (R386). -/
def execZoneTrip (z : Nat) (s : State) : Result :=
  if 8 ≤ z then .fault (.malformed "ZONE_TRIP")
  else
    whenOk s (s.feed && !tripped s (.zone z)) "the zone has tripped already"
      (let fs := zoneFields z
       let s : State := modFields (stopHard s fs) fs (fun x => { x with tripped := true })
       let s : State := leaveWave (latchTrip s (.zone z) (partMask s fs)) fs
       if s.hang.fwUp then
         let hit := (loadedParts s).filterMap (fun e => (partFields e.2).find? (fun f => fs.contains f))
         hit.foldl (fun s f => lostStep s f 0 3 false 0 0xFFFFFF 0 0 4) s
       else s)

/-- The Hutch's content as persisted: base image and complete journal entries (R260, R323), or the fallback store's. -/
def savedImage (s : State) : HutchImage :=
  match (if s.cab.failed then s.cab.storeCfg.getLast? else none) with
  | some i => i
  | none => match s.nor.journal.getLast? with
    | some e => e.2
    | none => s.nor.base

/-- What is lost when HUB_CORE, HUB_FE, HUB_KEY and HUB_CTL lose power (R386, R483): the aperture and its queues, operations,
what the Armoire held unsealed, the Sideboard's contexts, the service session, waiting tests, the arbiter's waiting writes. The
Cabinet, the NOR, the panel, the lanes, the wardens and HUB_AON stay. -/
def loseHub (s : State) : State :=
  { s with
    fe := { nextSeqNo := s.fe.nextSeqNo, nextHandle := s.fe.nextHandle },
    regs := {},
    cab := { s.cab with cursors := [] },
    tray := { s.tray with capCeil := 0 },
    svc := { s.svc with vbus := false, role := none, challenge := none, wrongTime := none, request := none },
    arm := { s.arm with unsealed := false, fails := 0 },
    side := {},
    sched := {},
    sig := { s.sig with queue := [] },
    hutch := { img := savedImage s, journalNo := s.hutch.journalNo },
    hang := { s.hang with
      requests := s.hang.requests.filter (fun r => r.cmd.isNone), running := s.hang.running.map (fun r => { r with cmd := none }),
      lossOn := false, hostLost := false },
    arb := { s.arb with cap := 0, hubOff := true, writes := [], segStatus := [], segFault := [] } }

/-- HUB_TRIP (R386, R483). -/
def execHubTrip (s : State) : Result :=
  whenOk s (s.feed && !tripped s .hub) "the hub has tripped already"
    (let s : State := latchTrip (stopHard s allFields) .hub (partMask s allFields)
     let fs := (s.parts.filter (fun e => e.2.barrier.isSome || e.2.aligning.isSome || e.2.freeze.isSome || e.2.unloading.isSome)).map (·.1)
     let s : State := fs.foldl (fun s p => modPart s p (fun x => { x with barrier := none, aligning := none, freeze := none, unloading := none })) s
     let s : State := { s with fields := s.fields.map (fun e => (e.1, { e.2 with
       latchWait := [], latchOut := none, releaseDue := [], waitTests := [], claims := [] })) }
     loseHub (firmwareDown s))

/-- The latched trip ends; THERMTRIP_N rises with the last (R50, R387). THERMTRIP stays until STATUS_CLR clears it (Table 2.6). -/
def releaseTrip (s : State) (t : TripSource) : State :=
  { s with arb := { s.arb with trips := s.arb.trips.filter (fun k => k.source != t) } }

/-- Zone restart (R387, R450): its fields return to service with their layouts; those of a wave repeat the stage. A field whose program
is lost stays gated until its reset. -/
def restartZone (s : State) (z : Nat) : State :=
  (zoneFields z).foldl (fun s f =>
    let lost := fieldLoaded s f
    modField s f (fun x => { x with
      tripped := false, run := if x.run = .gated && !x.zoneDown && x.therm.shut.isNone && !lost then .idle else x.run })) s

/-- Hub restart (R387): the switched-off domains power up, S1 is repeated with its report (its duration is a free value), all generations advance and a WAFER reset with cause
0x0B unloads every program. -/
def restartHub (s : State) : State :=
  let s : State := { s with
    arb := { s.arb with hubOff := false },
    arm := { s.arm with unsealed := true, digestKey := drawKey s },
    hang := { s.hang with fwUp := s.hang.refOk, fires := 0, windowOpen := false, restarted := false } }
  let s : State := bumpGens (advFree (drainLinks s)) (List.range 229)
  let s : State := advFree (emitStage s 1 false 0xFF 0 (Config.freeNat s.free % 2 ^ 32) allFields [] (contentS1 s))
  requestReset s 3 domWafer 0x0B false none

/-- R387, R391: whole seconds of operating time since a trip. -/
def tripSeconds (s : State) (k : Trip) : Nat := (s.cab.opTime + 2 ^ 40 - k.opTime) % 2 ^ 40 / 16

/-- TRIP_RESTART (R50, R387): the sensor has read below 85 degrees for 60 s. HUB_AON restarts a zone without firmware, whose records follow
once it runs. -/
def execTripRestart (source : TripSource) (broken : Nat) (s : State) : Result :=
  whenSome s (s.arb.trips.find? (fun k => k.source == source && decide (60 ≤ tripSeconds s k))) "the part has not tripped, or not for 60 s" fun k =>
    let seconds := tripSeconds s k
    match source with
    | .zone z =>
      whenOk s s.feed "no hub feed"
        (let s : State := releaseTrip (restartZone s z) source
         if s.hang.fwUp then emitTrip s k seconds broken
         else { s with arb := { s.arb with tripDue := s.arb.tripDue ++ [(k, seconds, broken)] } })
    | .hub =>
      whenOk s s.feed "no hub feed"
        (let s : State := releaseTrip (restartHub s) source
         { s with arb := { s.arb with tripDue := s.arb.tripDue ++ [(k, seconds, broken)] } })

end Sys2Proof.Machine
end

