-- ==== Sys2Proof/Machine/BringUp.lean ====
section
/-! DEFINITION. Power-on, bring-up stages and waves, power loss (R431 to R452, R328, R339, R344). -/

namespace Sys2Proof.Machine

/-! ### Power loss and power-on -/

/-- HUB_FEED_LOSS (R37, R328, R344). -/
def execHubFeedLoss (s : State) : Result := whenOk s s.feed "the hub feed is absent" (loseFeed s)

/-- R328: the next sequence number after recovery. -/
def recoveredSeq (n : Nor) : Nat :=
  let found := n.ring.map (·.seqNo) ++ n.torn
  let snap := match n.snap with | some x => x.nextSeq | none => 1
  if found.isEmpty then snap else max snap (found.foldl max 0 + 1639)

/-- R323: the Hutch's state: base image and complete journal entries. -/
def norImage (n : Nor) : HutchImage :=
  match n.journal.getLast? with
  | some e => e.2
  | none => n.base

/-- Cause of an EV_RESET at level CYCLE, by the reason read back (Tables 11.7, 11.10). -/
def cycleCause (reason : Nat) : Nat :=
  if reason = 1 then 0 else if reason = 2 then 6 else if reason = 3 then 7 else if reason = 4 then 8 else 9

def goodReadings (rs : List (Option Int)) : List Int := rs.filterMap (fun r => if readFails r then none else r)

/-- R388, R375: a model is seeded from the mean of its diode reads; a read that fails or disagrees then has the consequences of
R377. -/
def seedTherm (s : State) (f : Nat) (rs : List (Option Int)) (cold : Bool) : State :=
  let x := thermOf s f
  let good := goodReadings rs
  let m := if good.isEmpty then x.node0 else meanTemp good
  let x : Thermal := { x with
    node0 := m, node1 := m, node2 := m, tref := clampTref s m, hist := [], firstHold := cold && decide (f ≠ hubField),
    diodes := (List.range 4).map (fun d => if readFails (rs.getD d none) then none else rs.getD d none) }
  let s : State := setTherm s f x
  let s : State := setBand s f (bandWith x (bandOf m)) false
  match (List.range 4).find? (fun d => !readGood x (rs.getD d none)) with
  | some d => readDiode s f d (rs.getD d none) (((List.range 4).filter (· != d)).map (fun e => (e, rs.getD e none)))
  | none => s

/-- What the block knows when the hub feed has risen and the NOR is recovered (R308, R321, R323, R328, R339). -/
def recovered (s : State) (norOk : Bool) : State :=
  let n := s.nor
  let snap := if norOk then n.snap else none
  let img := if norOk then norImage n else {}
  let s : State := { s with
    nor := { n with board := (n.boardNext.getD n.board), boardNext := none },
    boot := { s.boot with first := snap.isNone },
    hutch := { s.hutch with img := img, journalNo := match n.journal.getLast? with | some e => e.1 | none => 0 },
    fields := img.maps.map (fun e => (e.1, ({ map := e.2, clock := e.2.clock } : Field))) }
  match snap with
  | none => { s with cab := { nextSeq := if norOk then recoveredSeq n else 1 } }
  | some x => { s with
      tray := { s.tray with cycleReason := x.reason },
      cab := {
        nextSeq := recoveredSeq n, opTime := x.opTime, cycles := min 0xFFFFFF (x.cycles + 1), meters := x.meters, aCounter := x.aCounter,
        marks := x.marks } }

/-- POWER_ON (R28, R44, R53, R59, R64, R308, R328, R339, R431, R461): S0 begins. -/
def execPowerOn (found : PowerOnFound) (s : State) : Result :=
  whenOk s (!s.feed && (found.pgood.getD 1 true || found.pgood.getD 2 true)) "the hub feed is present, or has no supply"
    (let norOk := decide (found.norFails < 3)
     let s : State := bringNorUp (recovered { s with feed := true, now := 0 } norOk) found.norFails
     let s : State := { s with
       nor := { s.nor with big := found.norBig },
       tray := { s.tray with smbAddrHigh := found.smbAddrHigh },
       panel := { s.panel with lidOpen := found.lidOpen, ignored := found.buttonLow },
       arb := { s.arb with pgood := (found.pgood ++ List.replicate 8 true).take 8, mfrOk := found.mfr } }
     let s : State := if norOk then s else declareNorFailed s 0 0
     let zones := (List.range 8).filter (fun z => !(s.arb.pgood.getD z true))
     let s : State := modFields s (zones.flatMap zoneFields) (fun x => { x with zoneDown := true, run := .gated })
     let s : State := if norOk then
         (let s : State := emitWords s evLogRecovery none [w32 s.nor.torn.length, w32 (goodSectors s).length,
           w32 ((s.nor.ring.map (·.seqNo)).headD 0), w32 (bit01 s.nor.spare)]
          { s with nor := { s.nor with torn := [], spare := false } }) else s
     let r := s.tray.cycleReason
     let s : State := if r = 0 then s
       else emit s evReset [(resetWord 4 (cycleCause r) 0 0 (decide (r = 2)) false 0 0).toNat]
     let s : State := writeSnapshot s
     let s : State := if s.arm.locked ≠ 0 then raiseBit s tsAlarm else s
     let s : State := if found.lidOpen then raiseAlarm s 0 else s
     let s : State := ((List.range 8).filter (fun z => found.pmbus.getD z true)).foldl (fun s z => drive s (.pmbus z 0 0x20 0)) s
     let s : State := ((List.range 8).filter (fun z => !(found.pmbus.getD z true))).foldl failSegment s
     seedTherm s hubField found.hubDiodes s.boot.first)

/-! ### Stage reports (Table 17.4) -/

def zrmId (s : State) : Nat := s.mfg.stepping + 3 * 2 ^ 8 + 0x5A03 * 2 ^ 16
def bitsOfZones (l : List Nat) : Nat := ((List.range 8).map (fun z => if l.contains z then 2 ^ z else 0)).sum
/-- 64 bits of a list of numbers. -/
def mask64 (l : List Nat) : List Word := w64 (((List.range 64).map (fun i => if l.contains i then 2 ^ i else 0)).sum)

def contentS0 (s : State) : List Word :=
  let up := bitsOfZones ((List.range 8).filter (fun z => !s.arb.segDown.contains z))
  let mfr := bitsOfZones ((List.range 8).filter (fun z => s.arb.mfrOk.getD z false))
  let pg := bitsOfZones ((List.range 8).filter (fun z => s.arb.pgood.getD z true))
  [w32 (s.mfg.stepping + s.mfg.romVersion * 2 ^ 8), w32 (zrmId s), w32 (up + mfr * 2 ^ 8 + pg * 2 ^ 16 + s.tray.cycleReason * 2 ^ 24),
   w32 s.cab.cycles] ++ w64 s.cab.opTime ++ [w32 s.nor.journal.length, w32 (bit01 (!s.cab.failed))]

/-! ### S0 and S1 -/

/-- Table 17.3, cause 0x02: the board descriptor of 4 KiB is there, and its last 4 bytes are the CRC-32C of the others. -/
def boardGood (s : State) : Bool :=
  decide (s.nor.board.length = 4096) && decide (crc32c (s.nor.board.take 4092) = boardWord s 4092)

/-- R433, R465: a wafer failure; the hub ROM serves the console for any cause but 0x01. -/
def waferFails (s : State) (cause ms : Nat) : State :=
  let s : State := { s with boot := { s.boot with failed := true }, svc := { s.svc with romOnly := decide (cause ≠ 1) } }
  commitAll (emitStage s s.boot.stage true 0xFF cause ms [] [] (if s.boot.stage = 0 then contentS0 s else contentS1 s))

/-- Fields that S2 starts: not excluded, their zone with power-good. -/
def startFields (s : State) : List Nat := allFields.filter (fun f => !(fieldOf s f).excluded && !(fieldOf s f).zoneDown)

/-- R436, R131: S1's work is done: keys unsealed, firmware up, digest key drawn. -/
def authenticate (s : State) (unsealed : Bool) : State :=
  advFree { s with
    arm := { s.arm with unsealed := unsealed, digestKey := drawKey s }, hang := { s.hang with fwUp := true } }

/-- The next wafer-wide stage starts. -/
def enterStage (s : State) (n : Nat) : State := { s with boot := { s.boot with stage := n, started := s.now, limitFrom := s.now } }

/-- S0 or S1 ends well; S2 starts the wardens (R437). -/
def endWaferStage (s : State) (found : StageFound) : State :=
  if s.boot.stage = 0 then
    let s : State := if s.cab.failed then s else bringNorUp s 0
    enterStage (commitAll (emitStage s 0 false 0xFF found.cause found.durationMs allFields [] (contentS0 s))) 1
  else
    let s : State := authenticate { s with boot := { s.boot with image := found.image } } found.unsealed
    let s : State := commitAll (emitStage s 1 false 0xFF found.cause found.durationMs allFields [] (contentS1 s))
    let s : State := enterStage { s with boot := { s.boot with s1 := true } } 2
    let s : State := (startFields s).foldl startWarden s
    modFields s (allFields.filter (fun f => (fieldOf s f).zoneDown)) (fun x => { x with stage := 2 })

/-! ### S2 and S3 -/

/-- R347, R348: a zone entry that is invalid. -/
def zoneInvalid (s : State) (z : Nat) : Bool :=
  let top := (zoneFields z).foldl (fun m f => [0, 1, 2].foldl (fun m k => max m (railFirst s (3 * f + k) + railPhases s (3 * f + k))) m) 0
  decide (zonePhases s z < zoneMinPhases s z) || decide (zonePhases s z < top)
/-- Table 17.3, cause 0x07: the field's pages are refused, or its segment has failed. -/
def pagesRefused (s : State) (f : Nat) : Bool :=
  [0, 1, 2].any (fun k => railImax s (3 * f + k) == 0) || zoneInvalid s (zoneOf f) || s.arb.segDown.contains (zoneOf f)

/-- A warden has come up in S2 (R437, R388). -/
def wardenUp (s : State) (f : Nat) (diodes : List (Option Int)) : State :=
  let s : State := modField s f (fun x => { x with warden := .up, beats := 0, starts := 0, wardenTs := s.now })
  seedTherm s f diodes s.boot.first

/-- S2 ends for some fields: those with a fault of Table 17.3 are excluded, the others' wardens are up and S3 begins for them. -/
def endS2 (s : State) (found : StageFound) (fs : List Nat) : State :=
  let down := fs.filter (fun f => (fieldOf s f).zoneDown || !partnerOn s f)
  let refused := fs.filter (fun f => !down.contains f && pagesRefused s f)
  let bad := fs.filter (fun f => found.excluded.contains f && !down.contains f && !refused.contains f)
  let s : State := excludeFields s down 2 9
  let s : State := excludeFields s refused 2 7
  let s : State := excludeFields s bad 2 found.cause
  let excl := down ++ refused ++ bad
  let cause := if found.cause ≠ 0 then found.cause else if !refused.isEmpty then 7 else if !down.isEmpty then 9 else 0
  let good := fs.filter (fun f => !excl.contains f)
  let s : State := good.foldl (fun s f =>
    wardenUp s f (((found.diodes.find? (fun e => e.1 == f)).map (·.2)).getD [none, none, none, none])) s
  let gone := (good.map (fun f => (thermOf s f).excluded.length)).sum
  let s : State := commitAll (emitStage s 2 false 0xFF cause found.durationMs good excl
    [w32 found.repeats, w32 gone, w32 s.hutch.img.badSlots.length])
  modFields s good (fun x => { x with stage := 3 })

/-- S3: the lanes transmit, the links found failing run on their redundant links, switched at a seam where a program runs, faulty routers are marked and their tiles quarantined (R235, R236,
R438), lanes are in sync. -/
def trainLinks (s : State) (found : StageFound) : State :=
  let s : State := { s with tray := { s.tray with pads := { s.tray.pads with laneTx := true } } }
  let s : State := found.links.foldl (fun s l => failLinkSoon s (taField l.1) (taPlace l.1) l.2 2) s
  let s : State := found.routers.foldl (fun s t =>
    markQuarantined (modTileRec s t (fun r => { r with routerFault := true })) (taField t) (taPlace t) 5 2) s
  found.lanes.foldl (fun s l => modLane s l (fun x => { x with sync := true })) s

/-- R438, R445: a field whose checker injections failed as expected offers reduced service, where a layout without the tiles that failed the
quick test has no missing pair. -/
def offerReduced (failed : List Nat) (s : State) (f : Nat) : State :=
  let bad := (failed.filter (fun t => taField t == f)).map taPlace
  let t : State := layOut (modField s f (fun x => { x with quickFailed := bad, reduced := true, run := .idle })) f 0
  if (fieldOf t f).map.missing.isEmpty then queueVcore t f (setpointAt t f 700) else s

/-- R439: the order in which fields take their waves. -/
def waveOrder (fs : List Nat) : List Nat := sortBy (fun a b => decide (a % 7 * 100 + a ≤ b % 7 * 100 + b)) fs

/-- S3 ends for some fields. -/
def endS3 (s : State) (found : StageFound) (fs : List Nat) : State :=
  let before := s.hutch.img.deadLinks.length
  let s : State := trainLinks s found
  let excl := fs.filter (fun f => found.excluded.contains f)
  let s : State := excludeFields s excl 3 found.cause
  let good := fs.filter (fun f => !excl.contains f)
  let s : State := (good.filter (fun f => found.quickPass.contains f)).foldl (offerReduced found.quickFail) s
  let red := good.filter (fun f => (fieldOf s f).reduced)
  let s : State := commitAll (emitStage s 3 false 0xFF found.cause found.durationMs good excl
    ([w32 found.links.length, w32 (s.hutch.img.deadLinks.length - before), w32 found.routers.length] ++ mask64 found.ports ++
      mask64 found.lanes ++ fieldMask red))
  setReducedBit { s with boot := { s.boot with pendingFields := s.boot.pendingFields ++ waveOrder good } }

/-! ### Waves -/

/-- S4 ends for the wave (R234, R441): failing rows are retired, tiles beyond repair quarantined. -/
def endS4 (s : State) (found : StageFound) (fs : List Nat) : State :=
  let step := fun (a : State × Nat × Nat) (r : Nat × Nat) =>
    let f := taField r.1
    match retireRow a.1 f (taPlace r.1) r.2 2 with
    | some t => (t, a.2.1 + 1, a.2.2)
    | none => (markQuarantined a.1 f (taPlace r.1) 3 2, a.2.1, if (tileRec a.1 r.1).quar then a.2.2 else a.2.2 + 1)
  let a := found.rows.foldl step (s, 0, 0)
  let bad := found.badTiles.filter (fun t => !(tileRec a.1 t).quar)
  let s : State := bad.foldl (fun s t => markQuarantined s (taField t) (taPlace t) 6 2) a.1
  let excl := fs.filter (fun f => found.excluded.contains f)
  let good := fs.filter (fun f => !excl.contains f)
  let s : State := excludeFields s excl 4 found.cause
  let s : State := modFields s good (fun x => { x with stage := 5, therm := { x.therm with firstHold := false } })
  let s : State := good.foldl (fun s f => let x := thermOf s f; setBand (queueVsram s f vsramMv) f (bandWith x (bandOf x.node0)) true) s
  commitAll (emitStage s 4 false (s.boot.wave - 1) found.cause found.durationMs good excl
    ([w32 (fs.length + s.boot.waveW * 2 ^ 8 + s.boot.waveP * 2 ^ 16), w32 a.2.1, w32 bad.length, w32 a.2.2,
      w32 (found.hotLow % 65536 + found.cutShort * 2 ^ 16)] ++ fieldMask s.boot.waveDeferred))

/-- R355, R442: the rungs of a field that S5 left available, lowest first. -/
def availableRungs (s : State) (f : Nat) : List Nat :=
  ((rungsUpTo 1250).reverse).takeWhile (fun r => r = 600 || (match vcharOf s f r with
    | some v => decide (v ≤ 790) && decide (roundUp5 (v + 60) ≤ 850)
    | none => false))
def topRung (s : State) (f : Nat) : Nat := (availableRungs s f).foldl max 0

/-- R442: a tile's recorded Fmax falls to what it passes; below 0.800 GHz it is quarantined. -/
def lowerTile (s : State) (t mhz : Nat) : State :=
  if mhz < 800 then markQuarantined s (taField t) (taPlace t) 7 2
  else modTileRec s t (fun r => { r with fmaxSteps := max r.fmaxSteps (min (fmaxStepCap s t) ((fusedFmax s t - mhz + 24) / 25)) })

/-- R240, R443: an outlier loses one step, never below 0.800 GHz. -/
def markOutlier (s : State) (t : Nat) : State :=
  markSuspect (modTileRec s t (fun r => { r with fmaxSteps := max r.fmaxSteps (min (fmaxStepCap s t) (r.fmaxSteps + 1)) })) (taField t) (taPlace t)

/-- S5 ends for the wave (R225, R442, R443). -/
def endS5 (s : State) (found : StageFound) (fs : List Nat) : State :=
  let before := fun t : Nat => (tileRec s t).fmaxSteps
  let quar := found.passes.filter (fun e => decide (e.2 < 800) && !(tileRec s e.1).quar)
  let s : State := found.passes.foldl (fun s e => lowerTile s e.1 e.2) s
  let s : State := found.outliers.foldl markOutlier s
  let lowered := (found.passes.map (·.1) ++ found.outliers).eraseDups.filter (fun t => decide (before t < (tileRec s t).fmaxSteps))
  let s : State := modImg s (fun i => { i with
    vchar := i.vchar.filter (fun e => !fs.contains e.1) ++ found.vchar.filter (fun e => fs.contains e.1),
    trim := fs.foldl (fun t f => tdel t f) i.trim })
  let s : State := modFields s fs (fun x => { x with power := { x.power with lowered := [], trimLimit := false } })
  let slow := fs.filter (fun f => decide (topRung s f < 800))
  let bad := fs.filter (fun f => found.excluded.contains f && !slow.contains f)
  let s : State := excludeFields s slow 5 8
  let s : State := excludeFields s bad 5 found.cause
  let excl := slow ++ bad
  let good := fs.filter (fun f => !excl.contains f)
  let tops := good.map (topRung s)
  let s : State := modFields s good (fun x => { x with stage := 6 })
  let cause := if found.cause ≠ 0 then found.cause else if slow.isEmpty then 0 else 8
  commitAll (emitStage s 5 false (s.boot.wave - 1) cause found.durationMs good excl
    [w32 lowered.length, w32 quar.length, w32 found.outliers.length,
     w32 (tops.foldl min (tops.headD 0) + tops.foldl max 0 * 2 ^ 16)])

/-- S6 ends for the wave (R444): layouts are built and its fields enter full service. -/
def endS6 (s : State) (found : StageFound) (fs : List Nat) : State :=
  let excl := fs.filter (fun f => found.excluded.contains f)
  let good := fs.filter (fun f => !excl.contains f)
  let s : State := excludeFields s excl 6 found.cause
  let s : State := good.foldl (fun s f =>
    let s : State := layOut s f (fieldOpmode s f)
    let s : State := queueVcore s f (setpointAt s f (fieldOf s f).clock)
    modField s f (fun x => { x with stage := 7, run := if x.zoneDown || x.tripped || x.therm.shut.isSome then .gated else .idle })) s
  let missing := (good.map (fun f => (fieldOf s f).map.missing.length)).sum
  let placed := (good.map (fun f => (fieldPlaces (fieldOf s f)).length)).sum - missing
  let atLevel := fun l : Nat => (good.filter (fun f => (fieldOf s f).level == l)).length
  let s : State := { s with boot := { s.boot with inWave := [], waveStage := 4 } }
  commitAll (emitStage s 6 false (s.boot.wave - 1) found.cause found.durationMs good excl
    [w32 placed, w32 missing, w32 (atLevel 0 + atLevel 1 * 2 ^ 8 + atLevel 2 * 2 ^ 16 + atLevel 3 * 2 ^ 24), w32 (atLevel 4)])

/-- A wave goes on to its next stage; one without fields left is over. -/
def nextWaveStage (s : State) : State :=
  if s.boot.inWave.isEmpty then { s with boot := { s.boot with waveStage := 4 } }
  else { s with boot := { s.boot with waveStage := s.boot.waveStage + 1, started := s.now, limitFrom := s.now } }

/-- A stage of the wave ends. -/
def endWaveStage (s : State) (found : StageFound) : State :=
  let fs := s.boot.inWave
  if s.boot.waveStage = 4 then nextWaveStage (endS4 s found fs)
  else if s.boot.waveStage = 5 then nextWaveStage (endS5 s found fs)
  else endS6 s found fs

/-- Fields that repeat S2 or S3 out of turn (R369, R451), with the stage. -/
def redoFields (s : State) (n : Nat) : List Nat := (s.boot.redo.filter (fun e => e.2 == n)).map (·.1)

/-- The repeated stage of those fields ends. -/
def endRedo (s : State) (found : StageFound) : State :=
  let two := redoFields s 2
  if !two.isEmpty then
    let s : State := { s with boot := { s.boot with redo := s.boot.redo.filter (fun e => e.2 != 2) } }
    let s : State := endS2 s found two
    let on := two.filter (fun f => !(fieldOf s f).excluded)
    { s with boot := { s.boot with redo := s.boot.redo ++ on.map (fun f => (f, 3)) } }
  else
    let three := redoFields s 3
    endS3 { s with boot := { s.boot with redo := s.boot.redo.filter (fun e => e.2 != 3) } } found three

/-- STAGE_COMPLETE (R431 to R448). -/
def execStageComplete (found : StageFound) (s : State) : Result :=
  if !(clocked s && !s.boot.failed && !s.arb.hubOff) then idle s "no stage is in progress"
  else if found.redo then
    if (redoFields s 2).isEmpty && (redoFields s 3).isEmpty then idle s "no field repeats a stage"
    else .next (settleBoot (endRedo s found))
  else if stageOverdue s then idle s "the limit of the stage has passed"
  else if s.boot.stage ≤ 1 then
    .next (if found.waferFail then waferFails s found.cause found.durationMs
      else if s.boot.stage = 0 && !boardGood s then waferFails s 2 found.durationMs else endWaferStage s found)
  else if !s.hang.fwUp then idle s "hub firmware is down"
  else if s.boot.stage = 2 then
    let fs := allFields.filter (fun f => (fieldOf s f).stage == 2 && !(fieldOf s f).excluded && !(redoFields s 2).contains f)
    .next (settleBoot (enterStage (endS2 s found fs) 3))
  else if s.boot.stage = 3 then
    let fs := allFields.filter (fun f => (fieldOf s f).stage == 3 && !(fieldOf s f).excluded && !(redoFields s 3).contains f)
    .next (settleBoot (enterStage (endS3 s found fs) 4))
  else if s.boot.inWave.isEmpty then idle s "no wave runs"
  else .next (settleBoot (endWaveStage s found))

/-- STAGE_TIMEOUT (R431, R433): the stage in progress fails with cause 0x0A: the wafer in S0 and S1, its fields after. -/
def execStageTimeout (s : State) : Result :=
  let b := s.boot
  if !(clocked s && !b.failed && !s.arb.hubOff && !b.reported && stageOverdue s) then idle s "no stage in progress has passed its limit"
  else if b.stage ≤ 1 then .next (waferFails s 0x0A (stageMs s))
  else if b.stage ≤ 3 then
    let fs := allFields.filter (fun f => (fieldOf s f).stage == b.stage && !(fieldOf s f).excluded)
    let s : State := excludeFields s fs b.stage 0x0A
    .next (settleBoot (enterStage (commitAll (emitStage s b.stage false 0xFF 0x0A (stageMs s) [] fs [])) (b.stage + 1)))
  else if b.inWave.isEmpty then idle s "no wave runs"
  else
    let s : State := excludeFields s b.inWave b.waveStage 0x0A
    .next (settleBoot (nextWaveStage (commitAll (emitStage s b.waveStage false (b.wave - 1) 0x0A (stageMs s) [] b.inWave []))))

/-- R437: a start step of a warden fails; the third failure excludes the field, and its partner with an even one (cause 0x04).
Neither warden loses its power (R29). -/
def execWardenStartFail (f : Nat) (s : State) : Result :=
  if 84 ≤ f then .fault (.malformed "WARDEN_START_FAIL")
  else
    whenOk s (clocked s && (fieldOf s f).warden == .starting && !(fieldOf s f).excluded) "the warden is not starting"
      (let s : State := modField s f (fun x => { x with starts := min 3 (x.starts + 1) })
       if (fieldOf s f).starts < 3 then s
       else
         let fs := if f % 2 = 0 then [f, f + 1] else [f]
         let s : State := excludeFields s (fs.filter (fun g => !(fieldOf s g).excluded)) 2 4
         settleBoot (commitAll (emitStage s 2 false 0xFF 4 (stageMs s) [] fs [])))

/-! ### WAVE_START (R439, R440, R447) -/

/-- P_test in W: 14 kW, or a lower tray ceiling. -/
def testPower (s : State) : Rat := if s.tray.capCeil = 0 then 14000 else min 14000 ((s.tray.capCeil * 100 : Nat) : Rat)
/-- W with the draw of the fields outside the first twelve candidates. -/
def waveLimit (s : State) (cands : List Nat) : Nat :=
  let rest := ratSum ((allFields.filter (fun f => !(cands.take 12).contains f)).map (fun f => fieldWatts (fieldOf s f)))
  (min 12 ((testPower s - rest) / 900).floor).toNat

/-- Fields that repeat from S4 or S5 on after a zone trip and whose zone is back; they go first, S5 before S4. -/
def redoWave (s : State) : List Nat × Nat :=
  let at_ := fun n : Nat => (redoFields s n).filter (fun f => !(fieldOf s f).tripped && !(fieldOf s f).zoneDown)
  if !(at_ 5).isEmpty then (at_ 5, 5) else (at_ 4, 4)

/-- R440, Table 17.5: S4 holds a field's clock at 1.000 GHz and its VCORE at that setpoint, or at 0.80 V without characterisation; VSRAM
goes through the cold corners, the hot corners and the soak. -/
def startTestRails (s : State) (f : Nat) : State :=
  let mv := if (vcharOf s f 1000).isSome then setpointAt s f 1000 else 800
  let s : State := queueVcore (modField s f (fun x => { x with clock := 1000 })) f mv
  [750, 825, 900, 750, 825, 900, 750].foldl (fun s v => queueVsram s f v) s

/-- The fields of a wave leave service and start it. -/
def startWave (s : State) (fs deferred : List Nat) (stage w : Nat) : State :=
  let s : State := modFields s fs (fun x => { x with
    reduced := false, quickFailed := [], excluded := false, exclCause := 0, stage := stage, run := .idle })
  let s : State := if stage = 4 then fs.foldl startTestRails s else s
  let s : State := fs.foldl (fun s f => modField s f (fun x => { x with redund := (match fieldPart s f with | some (_, p) => p.redund | none => false) })) s
  let s : State := { s with boot := { s.boot with
    stage := 4, inWave := fs, waveStage := stage, wave := s.boot.wave + 1, waveDeferred := deferred, waveW := w,
    waveP := tenWatts (testPower s), started := s.now, limitFrom := s.now, waveFrom := s.now, waveFirst := stage,
    pendingFields := s.boot.pendingFields.filter (fun f => !fs.contains f && !deferred.contains f),
    joining := s.boot.joining.filter (fun f => !fs.contains f),
    redo := s.boot.redo.filter (fun e => !fs.contains e.1) } }
  setReducedBit s

/-- R447, R451: fields without a program that join a wave with room. -/
def joiners (s : State) : List Nat := s.boot.joining.filter (fun f => !fieldLoaded s f)

/-- WAVE_START (R439, R447, R451): a wave of up to W fields; those with a program loaded are deferred, and fields that join fill the room
they leave. -/
def execWaveStart (s : State) : Result :=
  let again := redoWave s
  let fromRedo := !again.1.isEmpty
  let base := if fromRedo then again.1 else s.boot.pendingFields
  let join := if fromRedo then [] else joiners s
  let cands := base ++ join
  let w := waveLimit s cands
  if !(clocked s && s.hang.fwUp && !s.boot.failed && decide (4 ≤ s.boot.stage) && s.boot.inWave.isEmpty && !cands.isEmpty && decide (1 ≤ w)) then
    idle s "no wave may start"
  else
    let taken := base.take w
    let late := taken.filter (fieldLoaded s)
    let own := taken.filter (fun f => !late.contains f)
    let fs := own ++ join.take (w - own.length)
    let s : State := modFields s late (fun x => { x with deferred := true })
    if fs.isEmpty then
      .next (settleBoot { s with boot := { s.boot with pendingFields := s.boot.pendingFields.filter (fun f => !late.contains f) } })
    else .next (startWave s fs late (if fromRedo then again.2 else 4) w)

end Sys2Proof.Machine
end

