-- ==== Sys2Proof/Machine/Cabinet.lean ====
section
/-! DEFINITION. The Cabinet (R318 to R345) and its opcodes LOG_OPEN, LOG_CLEAR and DUMP_FETCH. -/

namespace Sys2Proof.Machine

/-- NOR_FAIL (R59, R343). -/
def execNorFail (cause : Nat) (addr : Nat) (s : State) : Result :=
  whenOk s (clocked s && !s.cab.failed && decide (cause < 4)) "the NOR is failed already" (declareNorFailed s cause addr)

/-- NOR_RETRY (R59, R344): every 60 s the device is brought up anew, with so many failed attempts in a row; on success the state is folded in, the fallback records are copied to the ring and a staged dump is written. -/
def execNorRetry (fails : Nat) (s : State) : Result :=
  if !(clocked s && s.cab.failed) then idle s "the NOR is not failed"
  else if 3 ≤ fails then .next (bringNorUp s fails)
  else
    let copied := s.cab.store
    let replayed := s.cab.storeCfg.length
    let lost := s.cab.storeLost
    let secs := (s.cab.opTime - s.cab.failTime) / 16
    let s : State := { s with
      cab := { s.cab with failed := false, store := [], storeLost := 0, storeCfg := [] },
      nor := { s.nor with base := s.hutch.img, journal := [] },
      hutch := { s.hutch with dirty := false } }
    let s : State := writeSnapshot (bringNorUp s fails)
    let s : State := copied.foldl ringAppend s
    let s : State := writeStaged s none
    let s : State := emitWords s evNorRestored none [w32 copied.length, w32 lost, w32 secs, w32 replayed]
    .next (clearBit s tsDegraded)

/-- RECORD_ARRIVAL (R327, R329, R331, R489): a record from a source that no other row of the table holds. -/
def execRecordArrival (r : RecIn) (s : State) : Result :=
  if !(evDefined r.typ && decide (4 ≤ r.words.length) && decide (r.words.length ≤ 1024) && decide (r.tenant < 16)) then
    .fault (.malformed "RECORD_ARRIVAL")
  else whenOk s (clocked s) "no hub feed" (emitBody s r.typ r.tenant r.part (.words r.words))

/-- RECORD_COMMIT (R327): the third program of the record at the front is verified; a failing sector is retired (R237) and the
record waits for the next one. -/
def execRecordCommit (verified : Bool) (s : State) : Result :=
  whenOk s (clocked s && !s.cab.queue.isEmpty) "no record waits"
    (if verified || s.cab.failed then commitFront s
     else
       let k := s.nor.sector
       let s : State := (sectorUnits s.nor k).foldl (fun s u => retireUnit s u 3) s
       if s.cab.failed then s else moveSector s)

/-- R338: the oldest ring sector, where all its records are cleared and it is not kept for writing. -/
def reclaimable (s : State) : Option Nat :=
  match s.nor.ring with
  | [] => none
  | r :: _ =>
    if r.sector ≠ s.nor.sector ∧ (s.nor.ring.filter (fun x => x.sector == r.sector)).all (·.cleared) then some r.sector
    else none

/-- SECTOR_RECLAIM (R338): a background erase completes; reclaim ends at a sector that holds an uncleared record. -/
def execSectorReclaim (s : State) : Result :=
  if !(clocked s && s.cab.reclaim && !s.cab.failed) then idle s "no reclaim runs"
  else
    whenSome s (reclaimable s) "no sector to erase" fun k =>
      let s : State := eraseRingSector s k
      .next { s with cab := { s.cab with reclaim := (reclaimable s).isSome } }

/-- SNAPSHOT_TIMER (R321): every 16 s of operating time. -/
def execSnapshotTimer (s : State) : Result := whenOk s (clocked s) "no hub feed" (writeSnapshot s)

/-- R342: what one tick of operating time adds to a tenant's accumulators. -/
def meterTick (s : State) (t : Nat) : Nat × Nat :=
  let ps := (s.parts.map (·.2)).filter (fun x => x.tenant == t)
  let n := fun l : List Part => (l.map (fun x => (partFields x).length)).sum
  let old := tget s.cab.meters (0, 0) t
  (old.1 + n ps, old.2 + n (ps.filter (·.prog.isSome)))

/-- OPERATING_TIME_TICK (R339, R342): operating time advances by 1/16 s; at the end of a meter interval the accumulators start again. -/
def execOperatingTimeTick (s : State) : Result :=
  let m := (List.range 16).map (fun t => (t, meterTick s t))
  let counts := m.filter (fun e => e.2 != (0, 0))
  let t := (s.cab.opTime + 1) % 2 ^ 40
  whenOk s (clocked s) "no hub feed"
    { s with cab := { s.cab with
        opTime := t, meters := if t % 57600 = 0 then [] else counts,
        meterDue := if t % 57600 = 0 then some ((t + 2 ^ 40 - 1) % 2 ^ 40 / 57600, counts) else s.cab.meterDue } }

/-- Table 12.8: the body of EV_METER. -/
def meterBody (n : Nat) (counts : Table (Nat × Nat)) : List Word :=
  w64 n ++ (List.range 16).flatMap (fun t =>
    let v := tget counts (0, 0) t
    w64 v.1 ++ w64 v.2)

/-- METER_INTERVAL_END (R342): EV_METER with the interval's number and every tenant's counts. -/
def execMeterIntervalEnd (s : State) : Result :=
  whenSome s s.cab.meterDue "no interval has ended" fun e =>
    whenOk s (clocked s) "no hub feed" (emitWords { s with cab := { s.cab with meterDue := none } } evMeter none (meterBody e.1 e.2))

/-- JOURNAL_ENTRY_WRITE (R237, R323, R260, R343): all changes of one seam as one entry; kept in the fallback store while the NOR is
failed, as far as its 32 KiB hold eight entries. A failing sector of the journal is replaced. -/
def execJournalEntryWrite (bad : Option Nat) (s : State) : Result :=
  whenOk s (clocked s && s.hang.fwUp && s.hutch.dirty) "no map change waits for the journal"
    (let s : State := if s.cab.failed then s else reportUnit s bad
     let n := s.hutch.journalNo + 1
     let s : State := { s with hutch := { s.hutch with dirty := false, journalNo := n } }
     if s.cab.failed then { s with cab := { s.cab with storeCfg := (s.cab.storeCfg ++ [s.hutch.img]).take 8 } }
     else { s with nor := { s.nor with journal := s.nor.journal ++ [(n, s.hutch.img)] } })

/-- Units of the Hutch base image and of its journal (Tables 12.1, 12.2). -/
def foldUnits : List Nat := (List.range 88).map (· + 1960)

/-- R323: the fewest entries, of at most 4 KiB each, that fill three quarters of the journal. -/
def foldEntries : Nat := 48

/-- JOURNAL_FOLD (R237, R320, R323): once the journal is three-quarters full, the entries are folded into the base image and the journal is erased. -/
def execJournalFold (bad : Option Nat) (s : State) : Result :=
  match s.nor.journal.getLast? with
  | none => idle s "the journal is empty"
  | some e =>
    whenOk s (clocked s && !s.cab.failed && decide (foldEntries ≤ s.nor.journal.length)) "the NOR is failed, or the journal has room"
      (let s : State := { s with nor := { s.nor with base := e.2, journal := [] } }
       eraseUnits (reportUnit s bad) foldUnits)

/-- DEFERRED_RECORDS_RESUME (R489): the queue is below 6 KiB and the deferred records are queued. -/
def execDeferredRecordsResume (s : State) : Result :=
  whenOk s (clocked s && !s.cab.deferred.isEmpty && decide (queueBytes s < 6144)) "nothing is deferred, or the queue is too long"
    (s.cab.deferred.foldl arrive { s with cab := { s.cab with deferred := [] } })

/-- LOG_OPEN (R334): the issuing tenant's cursor is replaced. -/
def execLogOpen (q e : Nat) (s : State) : Result :=
  whenSome s (runCmd s q e opLogOpen) "no running LOG_OPEN" fun c =>
    let start := c.f 3 0 2
    if !reservedOk c [(3, 0x103), (4, 0xFFFFFFFF), (5, 0xFFFFFFFF)] || decide (start = 3) then .next (complete s c stBadParam [])
    else
      let t := c.tenant
      let wanted := c.w 4 + c.w 5 * 2 ^ 32
      let vis := visibleRecs s t
      let hit := if start = 0 then vis.head? else if start = 1 then vis.getLast? else vis.find? (fun r => decide (wanted ≤ r.seqNo))
      let past := match (committed s).getLast? with
        | some r => r.seqNo + 1
        | none => 1
      let place := match hit with
        | some r => r.seqNo
        | none => if start = 2 then max wanted past else past
      let shown := match hit with
        | some r => r.seqNo
        | none => s.cab.nextSeq
      let oldest := match vis.head? with
        | some r => r.seqNo
        | none => s.cab.nextSeq
      let count := if hit.isNone then 0 else ((committed s).filter (fun r => decide (place ≤ r.seqNo))).length
      let cur : Cursor := { opened := true, atEnd := hit.isNone, follow := c.b 3 8, seqNo := place }
      let s : State := modCursor s t (fun _ => cur)
      .next (complete s c (if s.cab.failed then stDegraded else stOk) (w64 shown ++ [w32 oldest, w32 count]))

/-- R337: every committed record at or below `n` is cleared. -/
def clearThrough (s : State) (n : Nat) : State :=
  let clr := fun l : List Rec => l.map (fun r => if r.seqNo ≤ n then { r with cleared := true } else r)
  let gone := (committed s).filter (fun r => decide (r.seqNo ≤ n))
  let s : State := if s.cab.failed then { s with cab := { s.cab with store := clr s.cab.store } }
    else { s with nor := { s.nor with ring := clr s.nor.ring } }
  cursorsPast s gone

/-- LOG_CLEAR (R337, R338). -/
def execLogClear (q e : Nat) (s : State) : Result :=
  whenSome s (runCmd s q e opLogClear) "no running LOG_CLEAR" fun c =>
    if !reservedOk c [(3, 0xFFFFFFFF), (4, 0xFFFFFFFF)] then .next (complete s c stBadParam [])
    else if s.cab.reclaim then .next (complete s c stBusy [])
    else
      let newest := match (committed s).getLast? with
        | some r => r.seqNo
        | none => 0
      let n := min (c.w 3 + c.w 4 * 2 ^ 32) newest
      let count := ((committed s).filter (fun r => decide (r.seqNo ≤ n))).length
      let s : State := clearThrough s n
      let s : State := { s with cab := { s.cab with reclaim := !s.cab.failed && (reclaimable s).isSome } }
      let s : State := emitWords s evLogClear none (w64 n ++ [w32 count, w32 (c.w 13)])
      .next (complete s c stOk [w32 count])

/-- DUMP_FETCH (R315, R316, R76): a tenant reads its own dumps, tenant 0 with PRIV every dump. -/
def execDumpFetch (q e : Nat) (s : State) : Result :=
  whenSome s (runCmd s q e opDumpFetch) "no running DUMP_FETCH" fun c =>
    let slot := c.f 3 0 2
    if !reservedOk c [(3, 3), (4, 0xFFFFFFFF), (11, 0xFFFFFFFF), (12, 0xFFFFFFFF), (13, 0xFFFFFFFF)] || !outDescOk c then
      .next (complete s c stBadParam [])
    else
      match tfind s.nor.dumps slot with
      | none => .next (complete s c stBadParam [])
      | some d =>
        let all := dumpStream slot d
        let size := 4 * all.length
        if (d.tenant ≠ c.tenant ∧ !(c.tenant = 0 ∧ c.priv)) ∨ size < c.w 4 ∨ s.cab.failed then .next (complete s c stBadParam [])
        else
          let bulk := wordsOfBytes ((bytesOf all).drop (c.w 4))
          let sent := min (size - c.w 4) (outLen c)
          let s : State := if size ≤ c.w 4 + sent then
              { s with nor := { s.nor with dumps := tset s.nor.dumps slot { d with readEnd := true } } } else s
          .next (completeBulk s c stOk [w32 sent, w32 size, w32 d.tenant] bulk)

end Sys2Proof.Machine
end

