-- ==== Sys2Proof/Machine/HostRegs.lean ====
section
/-! DEFINITION. Writes and side-effecting reads of the register aperture (R471 to R484). A write that reaches an aperture that
is not served changes nothing (R483). -/

namespace Sys2Proof.Machine

/-- An access by tenant `t` (0-15) has its effect only while the aperture is served. -/
def served (row : String) (t : Nat) (s u : State) : Result :=
  if 16 ≤ t then .fault (.malformed row) else .next (if apServed s then u else s)

/-- A doorbell value that is ignored and counted (R71, R481). -/
def badDoorbell (s : State) (q : Nat) : State :=
  modSlot s q (fun x => { x with dbBad := true, badCount := min 255 (x.badCount + 1) })

/-- R71, R478, R481: submission doorbell. -/
def ringSq (s : State) (t qn value : Nat) : State :=
  match doorbellSlot s t qn with
  | none => s
  | some q =>
    let x := slotOf s q
    let v := bitsOf value 0 12
    if x.draining ∨ sqDepth x ≤ v then badDoorbell s q else setSlot s q { x with sqTail := v }

/-- R72, R73, R478, R481: completion doorbell. -/
def ringCq (s : State) (t qn value : Nat) : State :=
  match doorbellSlot s t qn with
  | none => s
  | some q =>
    let x := slotOf s q
    let v := bitsOf value 0 14
    if x.draining ∨ cqDepth x ≤ v then badDoorbell s q else setSlot s q { x with cqHead := v }

/-- Table 19.8: W1C of DB_BAD. -/
def clearDbBad (s : State) (t qn value : Nat) : State :=
  match doorbellSlot s t qn with
  | none => s
  | some q => if bitAt value 2 then modSlot s q (fun x => { x with dbBad := false, badCount := 0 }) else s

/-- R101, R475: LEGACY_FMT changes only while no slot is enabled or draining. -/
def writeLegacy (s : State) (t value : Nat) : State :=
  if t = 0 ∧ !(s.fe.slots.any (fun e => e.2.enable || e.2.draining)) then
    { s with regs := { s.regs with legacy := bitAt value 0 } }
  else s

/-- R475: STATUS_IRQ. -/
def writeStatusIrq (s : State) (t value : Nat) : State :=
  if t = 0 then { s with regs := { s.regs with statusIrq := bitAt value 1 } } else s

/-- Table 19.3, R475: a write of ZRM_CFG carries both bits. -/
def writeCfg (s : State) (t value : Nat) : State := writeStatusIrq (writeLegacy s t value) t value

def writeWallLow (s : State) (t : Nat) (value : Word) : State :=
  if t = 0 then { s with regs := { s.regs with wallLow := some value } } else s

/-- R340, R341, R479: the high word commits the correlation. -/
def writeWallHigh (s : State) (t : Nat) (value : Word) : State :=
  if t ≠ 0 then s
  else
    match s.regs.wallLow with
    | none => s
    | some low =>
      let wall := low.toNat + value.toNat * 2 ^ 32
      let pred := match s.regs.lastCorr with
        | some (w, ts) => (w + (s.now - ts)) % 2 ^ 64
        | none => 0
      let no := nextSeqNo s
      let s : State := { s with regs := { s.regs with wallLow := none, lastCorr := some (wall, s.now) } }
      let s : State := emitWords s evTimeCorr none (w64 wall ++ w64 s.now ++ w64 pred ++ [0, 0])
      let diff : Int := (wall : Int) - pred
      if pred ≠ 0 ∧ 1000000000 < diff.natAbs then emitWords s evTimeStep none (w64 (twos 64 diff) ++ w64 no) else s

/-- R310: host heartbeat. -/
def writeHostHb (s : State) (t : Nat) : State :=
  if t = 0 ∧ s.hang.lossOn then
    { s with hang := { s.hang with hostBeats := s.hang.hostBeats + 1, hostLost := false } }
  else s

/-- R333: ZRM_LOG_ADV. -/
def writeLogAdv (s : State) (t value : Nat) : State := if bitAt value 0 then advanceCursor s t else s

/-- Table 12.7: W1C of LOST. -/
def writeLogStat (s : State) (t value : Nat) : State :=
  if bitAt value 3 then modCursor s t (fun c => { c with lost := false }) else s

/-- Table 19.9, word +0: the configuration fields of a written value. -/
def slotFields (x : QSlot) (v : Nat) : QSlot :=
  { x with sqLog2 := bitsOf v 4 4, cqLog2 := bitsOf v 8 4, owner := bitsOf v 16 4, qnum := bitsOf v 20 3, irqEn := bitAt v 23 }

/-- R480: a slot's configuration allows enabling. -/
def slotOk (s : State) (n : Nat) (x : QSlot) : Bool :=
  decide (4 ≤ x.sqLog2) && decide (x.sqLog2 ≤ 12) &&
    (if s.regs.legacy then decide (6 ≤ x.cqLog2) && decide (x.cqLog2 ≤ 14) else decide (5 ≤ x.cqLog2) && decide (x.cqLog2 ≤ 13)) &&
    decide (x.sqLog2 + 1 ≤ x.cqLog2) && decide (x.sqBase.toNat % 4096 = 0) && decide (x.cqBase.toNat % 4096 = 0) &&
    !(s.fe.slots.any (fun e => e.1 != n && (e.2.enable || e.2.draining) && e.2.owner == x.owner && e.2.qnum == x.qnum))

/-- R480, R481: a write of word +0 of slot `n`. -/
def writeSlot0 (s : State) (t n v : Nat) : State :=
  let x := slotOf s n
  if t ≠ 0 then s
  else if bitAt v 0 then
    if x.enable then s
    else if x.draining then setSlot s n { x with cfgErr := true }
    else
      let y := slotFields x v
      if slotOk s n y then
        setSlot s n { y with
          enable := true, cfgErr := false, sqHead := 0, sqTail := 0, cqHead := 0, cqTail := 0, pass := true,
          dbBad := false, badCount := 0, reserved := 0, lastFence := s.fe.nextSeqNo - 1, failed := [], fwBlocked := false, ringBlocked := false }
      else setSlot s n { y with cfgErr := true }
  else if x.enable then setSlot s n { x with enable := false, draining := decide (0 < inFlight s n) }
  else if x.draining then s
  else setSlot s n (slotFields x v)

/-- One half of a 64-bit base. -/
def setHalf (b : BitVec 64) (high : Bool) (v : Nat) : BitVec 64 :=
  if high then BitVec.ofNat 64 (b.toNat % 2 ^ 32 + (v % 2 ^ 32) * 2 ^ 32)
  else BitVec.ofNat 64 (b.toNat / 2 ^ 32 * 2 ^ 32 + v % 2 ^ 32)

/-- R480: words +4 to +20 of a slot, ignored while it is enabled or draining. -/
def writeSlotN (s : State) (t n word v : Nat) : State :=
  let x := slotOf s n
  if t ≠ 0 ∨ x.enable ∨ x.draining then s
  else if word = 1 then setSlot s n { x with vector := bitsOf v 0 11 }
  else if word = 2 then setSlot s n { x with sqBase := setHalf x.sqBase false v }
  else if word = 3 then setSlot s n { x with sqBase := setHalf x.sqBase true v }
  else if word = 4 then setSlot s n { x with cqBase := setHalf x.cqBase false v }
  else if word = 5 then setSlot s n { x with cqBase := setHalf x.cqBase true v }
  else s

/-- R472, Table 19.1: a naturally aligned 32-bit write at an offset; every other access, a read-only register and a reserved
offset are ignored. -/
def writeAperture (s : State) (t off size : Nat) (value : Word) : State :=
  let v := value.toNat
  if size ≠ 4 ∨ off % 4 ≠ 0 then s
  else if off = 0x0004 then writeCfg s t v
  else if off = 0x0108 then writeWallLow s t value
  else if off = 0x010C then writeWallHigh s t value
  else if off = 0x0110 then writeHostHb s t
  else if off = 0x0300 then writeLogStat s t v
  else if off = 0x030C then writeLogAdv s t v
  else if 0x1000 ≤ off ∧ off < 0x1080 then
    let qn := (off - 0x1000) / 16
    if off % 16 = 0 then ringSq s t qn v
    else if off % 16 = 4 then ringCq s t qn v
    else if off % 16 = 8 then clearDbBad s t qn v
    else s
  else if 0x2000 ≤ off ∧ off < 0x4000 then
    let n := (off - 0x2000) / 64
    let word := (off % 64) / 4
    if word = 0 then writeSlot0 s t n v else writeSlotN s t n word v
  else s

/-! ### Meanings -/

def execSqDoorbell (t qnum : Nat) (value : Word) (s : State) : Result := served "SQ_DOORBELL" t s (ringSq s t qnum value.toNat)
def execCqDoorbell (t qnum : Nat) (value : Word) (s : State) : Result := served "CQ_DOORBELL" t s (ringCq s t qnum value.toNat)
def execLegacyFmtWrite (t : Nat) (value : Word) (s : State) : Result := served "LEGACY_FMT_WRITE" t s (writeCfg s t value.toNat)
def execStatusIrqWrite (t : Nat) (value : Word) (s : State) : Result := served "STATUS_IRQ_WRITE" t s (writeCfg s t value.toNat)
def execWallclockLoWrite (t : Nat) (value : Word) (s : State) : Result := served "WALLCLOCK_LO_WRITE" t s (writeWallLow s t value)
def execWallclockHiWrite (t : Nat) (value : Word) (s : State) : Result := served "WALLCLOCK_HI_WRITE" t s (writeWallHigh s t value)
def execHostHbWrite (t : Nat) (_value : Word) (s : State) : Result := served "HOST_HB_WRITE" t s (writeHostHb s t)
def execLogAdvWrite (t : Nat) (value : Word) (s : State) : Result := served "LOG_ADV_WRITE" t s (writeLogAdv s t value.toNat)
def execLogLostClear (t : Nat) (value : Word) (s : State) : Result := served "LOG_LOST_CLEAR" t s (writeLogStat s t value.toNat)
def execDbBadClear (t qnum : Nat) (value : Word) (s : State) : Result := served "DB_BAD_CLEAR" t s (clearDbBad s t qnum value.toNat)

/-- LOG_WINDOW_READY (R333, R334): the copy of the next visible record is in place and READY rises. -/
def execLogWindowReady (t : Nat) (s : State) : Result :=
  let c := cursorOf s t
  if apServed s && c.opened && !c.ready && (!c.atEnd || c.follow) then
    whenSome s (visibleFrom s t c.seqNo) "no visible record at the cursor" fun r =>
      .next (modCursor s t (fun c => { c with
        ready := true, atEnd := false, seqNo := r.seqNo, copy := windowWords s.regs.legacy t r }))
  else idle s "the window awaits no copy"

/-- COUNTER_LOW_READ (R473): the high word is latched into the tenant's shadow. -/
def execCounterLowRead (t : Nat) (offset : Nat) (s : State) : Result :=
  let latch := fun v : Nat => { s with regs := { s.regs with shadow := tset s.regs.shadow t (w32 v) } }
  served "COUNTER_LOW_READ" t s
    (if offset = 0x0100 then latch (s.now / 2 ^ 32)
     else if offset = 0x0114 ∧ t = 0 then latch (s.cab.opTime / 2 ^ 32 + s.cab.cycles * 2 ^ 8)
     else s)

/-- QUEUE_ENABLE (R70, R480): a write of word +0 that sets ENABLE. -/
def execQueueEnable (t n : Nat) (value : Word) (s : State) : Result :=
  if 128 ≤ n ∨ !bitAt value.toNat 0 then .fault (.malformed "QUEUE_ENABLE") else served "QUEUE_ENABLE" t s (writeSlot0 s t n value.toNat)

/-- QUEUE_DISABLE (R481): a write of word +0 that clears ENABLE. -/
def execQueueDisable (t n : Nat) (value : Word) (s : State) : Result :=
  if 128 ≤ n ∨ bitAt value.toNat 0 then .fault (.malformed "QUEUE_DISABLE") else served "QUEUE_DISABLE" t s (writeSlot0 s t n value.toNat)

/-- REGISTER_WRITE (R471, R472): any other write. -/
def execRegisterWrite (t : Nat) (offset size : Nat) (value : Word) (s : State) : Result :=
  served "REGISTER_WRITE" t s (writeAperture s t offset size value)

/-- QUEUE_FAULT (Table 11.2): a failed submission fetch or completion write starts an automatic CTX reset, cause 0x0A. -/
def execQueueFault (q : Nat) (s : State) : Result :=
  let x := slotOf s q
  whenOk s (apServed s && (x.enable || x.draining)) "the slot is neither enabled nor draining"
    (autoReset s 0 (domQueue x.owner x.qnum) 0x0A)

end Sys2Proof.Machine
end

