-- ==== Sys2Proof/Machine/HutchCmd.lean ====
section
/-! DEFINITION. QUARANTINE, RELEASE, SPARE_STATUS and SIG_EXPORT (R233 to R239, R251 to R253, R258, R283, R349). -/

namespace Sys2Proof.Machine

/-! ### What a command names (Table 3.10) -/

/-- The resource of QUARANTINE and RELEASE exists: kind, address and index are in range. -/
def resourceOk (s : State) (kind a idx : Nat) : Bool :=
  if kind = 0 then physicalOk a
  else if kind = 1 then physicalOk a && decide (idx < 1024)
  else if kind = 2 then physicalOk a && decide (idx < 4) && (facing (taField a) (taPlace a) idx).isSome
  else if kind = 3 then decide (idx < 2048)
  else if kind = 4 then physicalOk a && decide (idx < 40)
  else if kind = 5 then decide (idx / 2 ^ 8 < zonePhases s (idx % 8))
  else false

/-- Bits of word 5 that a kind uses. -/
def indexMask (kind : Nat) : Nat := if kind = 0 then 0 else if kind = 5 then 0x3F07 else 0xFFFFFFFF

/-- The field's part of a seam-bound retirement: the fields whose seams it waits for. -/
def seamFields (s : State) (fs : List Nat) : List Nat := fs.filter (fun f => fieldLoaded s f)

/-- R252: result word 3 of a row or link: the tile while it serves a coordinate. -/
def servingAddr (s : State) (a : Nat) : Nat := if (servedBy (fieldOf s (taField a)) (taPlace a)).isSome then a else 0xFFFFFF

/-! ### QUARANTINE -/

/-- R252, a tile in service with no program loaded: the nearest lendable spare takes the place through the idle version at once;
with none, the coordinate falls vacant and the command ends with a shortfall. -/
def quarantineIdle (s : State) (c : Cmd) (f p pos reason : Nat) : State :=
  match nearest p (lendables s f) with
  | some u =>
    let s : State := markQuarantined (takePlace s f pos u) f p reason 0
    let s : State := modField s f (fun x => { x with epoch := !x.epoch, idleDirty := true, switched := true, fwd := [(p, u)], idleMap := [] })
    let s : State := emitRemap s f 1 (fieldOf s f).epoch pos p u
    let s : State := settleLevel s f false
    complete s c stOk [w32 (pa f u), w32 (lendableCount s f)]
  | none =>
    let s : State := markQuarantined s f p reason 0
    let s : State := settleLevel (fallVacant s f pos p) f false
    complete s c stShortfall [w32 0xFFFFFF, w32 (lendableCount s f)]

/-- R252, a tile in service with a program loaded: its paired spare takes the place at the next seam by a claim. -/
def quarantineRunning (s : State) (c : Cmd) (f p pos reason : Nat) : State :=
  match pairFor s f p (reservedSpares (fieldOf s f)) with
  | none => complete s c stShortfall [w32 0xFFFFFF, w32 (lendableCount s f)]
  | some u =>
    let claim : Claim :=
      { source := 2, place := pos, expected := p, owner := u, gen := genOf s (domField f), q := c.q, e := c.e, reason := reason }
    background (modField s f (fun x => { x with claims := x.claims ++ [claim] })) c

/-- QUARANTINE of a tile (R99, R251, R252, Table 8.6); a spare in which a replay runs, or which is reserved for one, is treated at the seam. -/
def quarantineTile (s : State) (c : Cmd) (f p reason : Nat) : State :=
  let a := pa f p
  let done := fun t : State => complete t c stOk [w32 0xFFFFFF, w32 (lendableCount t f)]
  if (tileRec s a).quar then done s
  else if isLent (fieldOf s f) p then
    done (modField s f (fun x => { x with quarReturn := if (tfind x.quarReturn p).isSome then x.quarReturn else tset x.quarReturn p reason }))
  else
    let s : State :=
      match (fieldOf s f).bench.find? (fun e => e.2.tile == p) with
      | some (k, _) => abortTest s f k true
      | none => s
    let x := fieldOf s f
    match servedBy x p with
    | none =>
      if replaysHere s f p then
        let claim : Claim := { source := 2, place := unfilled, expected := p, owner := p, gen := genOf s (domField f), q := c.q, e := c.e, reason := reason }
        background (modField s f (fun x => { x with claims := x.claims ++ [claim] })) c
      else done (settleLevel (markQuarantined s f p reason 0) f false)
    | some pos => if fieldLoaded s f then quarantineRunning s c f p pos reason else quarantineIdle s c f p pos reason

/-- QUARANTINE of a row (R234, R252). -/
def quarantineRow (s : State) (c : Cmd) (f p row : Nat) : State :=
  let a := pa f p
  let r := tileRec s a
  if s.hutch.img.rowList.contains (a, row) || (fieldOf s f).rowsDue.any (fun e => e.1 == p && e.2.1 == row) then
    complete s c stOk [w32 (servingAddr s a), w32 (8 - r.rows)]
  else if 8 ≤ r.rows ∨ 65536 ≤ s.hutch.img.rowList.length then quarantineTile s c f p 3
  else
    let s : State := modField s f (fun x => { x with rowsDue := x.rowsDue ++ [(p, row, 0)] })
    let waits := seamFields s [f]
    let res := [w32 (servingAddr s a), w32 (7 - r.rows)]
    if waits.isEmpty then complete (settleDue s f) c stOk res else applyAt s c waits stOk res

/-- QUARANTINE of a link (R235, R236, R252): to the redundant link, or dead where that is in use. -/
def quarantineLink (s : State) (c : Cmd) (f p edge : Nat) : State :=
  let a := pa f p
  let res := [w32 (servingAddr s a), 0]
  if linkDead s f p edge then complete s c stOk res
  else
    let fs := seamFields s ((linkEnds f p edge).map (·.1)).eraseDups
    let s : State := modField s f (fun x => { x with linksDue := x.linksDue ++ [(p, edge, 0)] })
    if fs.isEmpty then complete (settleDue s f) c stOk res else applyAt s c fs stOk res

/-- QUARANTINE of a command slot (R238, R252). -/
def quarantineSlot (s : State) (c : Cmd) (f k : Nat) : State :=
  if s.hutch.img.badSlots.contains (f, k) then complete s c stOk [w32 0xFFFFFF, w32 (slotsSpare s f)]
  else
    let s : State := modField s f (fun x => { x with slotsDue := x.slotsDue ++ [k] })
    let waits := seamFields s [f]
    let res := [w32 0xFFFFFF, w32 (slotsSpare s f - 1)]
    if waits.isEmpty then complete (settleDue s f) c stOk res else applyAt s c waits stOk res

def badPhasesOf (s : State) (z : Nat) : Nat := (s.hutch.img.badPhases.filter (fun e => e.1 == z)).length
/-- Phases above the zone minimum that are in service. -/
def phasesLeft (s : State) (z : Nat) : Nat := zonePhases s z - badPhasesOf s z - zoneMinPhases s z

/-- The rails that a phase of a zone feeds. -/
def phaseRails (s : State) (z ph : Nat) : List Nat :=
  (zoneFields z).flatMap (fun f => [3 * f, 3 * f + 1, 3 * f + 2]) |>.filter (fun r =>
    decide (railFirst s r ≤ ph) && decide (ph < railFirst s r + railPhases s r))

/-- QUARANTINE of a regulator phase (R56, R239, R349): refused where fewer than the minimum would be left, or where the regulator
takes no MFR_SPECIFIC_00. -/
def quarantinePhase (s : State) (c : Cmd) (z ph : Nat) : State :=
  if s.hutch.img.badPhases.contains (z, ph) then complete s c stOk [w32 0xFFFFFF, w32 (phasesLeft s z)]
  else if phasesLeft s z = 0 ∨ s.arb.mfrOk.getD z true = false then complete s c stShortfall [w32 0xFFFFFF, w32 (phasesLeft s z)]
  else
    let s : State := modImg s (fun i => { i with badPhases := i.badPhases ++ [(z, ph)] })
    let s : State := queueWrite s z 0 0xD0 (ph + 0x80)
    let s : State := emitQuarantine s 5 0 0x7F 0 0 (z + ph * 2 ^ 8) (phasesLeft s z)
    let s : State := (phaseRails s z ph).foldl (fun s r => emitCapChange s 3 r (railLimitA s r)) s
    complete s c stOk [w32 0xFFFFFF, w32 (phasesLeft s z)]

/-- QUARANTINE (R252). -/
def execQuarantine (q e : Nat) (s : State) : Result :=
  whenSome s (runCmd s q e opQuarantine) "no running QUARANTINE" fun c =>
    let a := c.f 3 0 24
    let kind := c.f 4 0 4
    let idx := c.w 5
    let f := taField a
    let p := taPlace a
    if !reservedOk c [(3, 0xFFFFFF), (4, 0xF), (5, indexMask kind)] || !resourceOk s kind a idx then
      .next (complete s c stBadParam [])
    else if kind = 0 then .next (quarantineTile s c f p 8)
    else if kind = 1 then .next (quarantineRow s c f p idx)
    else if kind = 2 then .next (quarantineLink s c f p idx)
    else if kind = 3 then
      let s : State := retireUnit s idx 0
      .next (complete s c stOk [w32 0xFFFFFF, w32 (goodSectors s).length])
    else if kind = 4 then .next (quarantineSlot s c f idx)
    else .next (quarantinePhase s c (idx % 8) (idx / 2 ^ 8))

/-! ### RELEASE -/

/-- RELEASE of a row, link or slot: at the field's next seam, at once with no program loaded. -/
def releaseAtSeam (s : State) (c : Cmd) (f kind p idx left : Nat) : State :=
  let s : State := modField s f (fun x => { x with backDue := x.backDue ++ [(kind, p, idx)] })
  let waits := seamFields s (if kind = 2 then ((linkEnds f p idx).map (·.1)).eraseDups else [f])
  if waits.isEmpty then complete (settleDue s f) c stOk [w32 left] else applyAt s c waits stOk [w32 left]

/-- RELEASE (R253). -/
def execRelease (q e : Nat) (s : State) : Result :=
  whenSome s (runCmd s q e opRelease) "no running RELEASE" fun c =>
    let a := c.f 3 0 24
    let kind := c.f 4 0 4
    let idx := c.w 5
    let f := taField a
    let p := taPlace a
    let bad := complete s c stBadParam []
    if !reservedOk c [(3, 0xFFFFFF), (4, 0xF), (5, indexMask kind)] || !resourceOk s kind a idx then .next bad
    else if kind = 0 then
      if !(tileRec s a).quar then .next bad
      else if inBench (fieldOf s f) p then
        .next (background (modField s f (fun x => { x with releaseDue := x.releaseDue ++ [(p, q, e)] })) c)
      else
        let s : State := settleLevel (releaseTile s f p) f false
        .next (complete s c stOk [w32 (lendableCount s f)])
    else if kind = 1 then
      if !s.hutch.img.rowList.contains (a, idx) then .next bad
      else .next (releaseAtSeam s c f 1 p idx (9 - (tileRec s a).rows))
    else if kind = 2 then
      if !(linkUsed s f p idx || linkDead s f p idx) then .next bad
      else .next (releaseAtSeam s c f 2 p idx 1)
    else if kind = 3 then
      if !s.hutch.img.badSectors.contains idx then .next bad
      else
        let s : State := modImg s (fun i => { i with
          badSectors := i.badSectors.filter (· != idx), swapped := i.swapped.filter (fun e => e.1 != idx) })
        let s : State := emitRelease s 3 0 0x7F 0 idx (goodSectors s).length
        .next (complete s c stOk [w32 (goodSectors s).length])
    else if kind = 4 then
      if !s.hutch.img.badSlots.contains (f, idx) then .next bad
      else .next (releaseAtSeam s c f 4 p idx (slotsSpare s f + 1))
    else
      let z := idx % 8
      let ph := idx / 2 ^ 8
      if !s.hutch.img.badPhases.contains (z, ph) then .next bad
      else
        let s : State := modImg s (fun i => { i with badPhases := i.badPhases.filter (· != (z, ph)) })
        let s : State := emitRelease (queueWrite s z 0 0xD0 ph) 5 0 0x7F 0 idx (phasesLeft s z)
        .next (complete s c stOk [w32 (phasesLeft s z)])

/-! ### SPARE_STATUS -/

/-- R258: what a field counts. -/
structure SpareCount where
  free : Nat := 0
  suspect : Nat := 0
  quar : Nat := 0
  rows : Nat := 0
  lent : Nat := 0
deriving DecidableEq, Repr

/-- A tile is away from the pools: lent, or an unassigned tile under test (Table 3.9, 0x4). -/
def isAway (x : Field) (p : Nat) : Bool := isLent x p || x.bench.any (fun e => e.2.tile == p)

def spareCount (s : State) (f : Nat) : SpareCount :=
  let x := fieldOf s f
  if x.excluded then {}
  else
    let recs := listedPlaces s f
    let quar := recs.filter (fun p => (tileRec s (pa f p)).quar)
    let spares := physicalPlaces.filter (fun p => (servedBy x p).isNone)
    { free := (spares.filter (fun p => !(tileRec s (pa f p)).quar && !isAway x p)).length,
      suspect := (recs.filter (fun p => (tileRec s (pa f p)).suspect && !(tileRec s (pa f p)).quar)).length,
      quar := quar.length,
      rows := 8 * (10000 - quar.length) -
        ((recs.filter (fun p => !(tileRec s (pa f p)).quar)).map (fun p => (tileRec s (pa f p)).rows)).sum,
      lent := (spares.filter (fun p => isAway x p)).length }

/-- Links of a field that run on their redundant link: each link within the field once. -/
def linksSpared (s : State) (f : Nat) : Nat :=
  ((listedPlaces s f).map (fun p =>
    let l := (tileRec s (pa f p)).links
    bit01 (bitAt l 1) + bit01 (bitAt l 2) + bit01 (bitAt l 0 && decide (p < 100)) + bit01 (bitAt l 3 && decide (p % 100 = 0)))).sum

def linksDead (s : State) (f : Nat) : Nat :=
  (s.hutch.img.deadLinks.filter (fun d => (linkEnds (taField d.1) (taPlace d.1) d.2).any (fun e => e.1 == f))).length

/-- Table 9.8: a field's record of 32 bytes. -/
def spareRecord (s : State) (f : Nat) : List Word :=
  let x := fieldOf s f
  let n := spareCount s f
  let faults := ((listedPlaces s f).filter (fun p => (tileRec s (pa f p)).routerFault)).length
  [w32 (f + x.level * 2 ^ 8 + x.map.clock * 2 ^ 16), w32 (n.free + lendableCount s f * 2 ^ 16), w32 (n.suspect + n.quar * 2 ^ 16),
   w32 (n.lent + (x.map.missing.length + (x.map.vacant.filter (fun v => !x.map.missing.contains v)).length) * 2 ^ 16), w32 n.rows,
   w32 (linksSpared s f + sat 255 (linksDead s f) * 2 ^ 16 + sat 255 faults * 2 ^ 24),
   w32 (slotsSpare s f + tget s.hutch.img.trim 0 f * 2 ^ 8 + (x.map.shadows + x.map.reserve) * 2 ^ 16), w32 (reserveHeld s f)]

/-- SPARE_STATUS (R76, R102, R258, R446): one field, or the wafer (tenant 0 with PRIV), or the fields of the tenant's own
partitions. -/
def execSpareStatus (q e : Nat) (s : State) : Result :=
  whenSome s (runCmd s q e opSpareStatus) "no running SPARE_STATUS" fun c =>
    let k := c.f 3 0 7
    let desc := [(11, 0xFFFFFFFF), (12, 0xFFFFFFFF), (13, 0xFFFFFFFF)]
    if !reservedOk c ((3, 0x7F) :: desc) || (decide (84 ≤ k) && decide (k ≠ 127)) || !outDescOk c then
      .next (complete s c stBadParam [])
    else
      let own := allFields.filter (fun f => fieldTenant s f == some c.tenant)
      let fs := if k < 84 then [k] else if c.tenant = 0 ∧ c.priv then allFields else own
      let ns := fs.map (spareCount s)
      let res := [w32 ((ns.map (·.free)).sum), w32 ((ns.map (·.suspect)).sum), w32 ((ns.map (·.quar)).sum),
        w32 ((ns.map (·.rows)).sum), w32 ((ns.map (·.lent)).sum)]
      let recs := fs.flatMap (spareRecord s)
      if s.regs.legacy then .next (completeBulk s c stOk res (legacyBlock res ++ recs))
      else if outPresent c then .next (completeBulk s c stOk res recs)
      else .next (complete s c stOk res)

/-! ### SIG_EXPORT -/

/-- Signature records that the Cabinet holds, with their numbers (bytes 96-103 of the record, Table 10.8). -/
def heldSignatures (s : State) : List (Nat × List Word) :=
  ((committed s).filter (fun r => r.typ == evSignature)).map (fun r =>
    let ws := bodyWords r.typ r.body
    (cw ws 24, ws.take 98))

/-- SIG_EXPORT (R76, R283). -/
def execSigExport (q e : Nat) (s : State) : Result :=
  whenSome s (runCmd s q e opSigExport) "no running SIG_EXPORT" fun c =>
    if !reservedOk c [(3, 0xFFFFFFFF), (4, 0xFFFFFFFF), (11, 0xFFFFFFFF), (12, 0xFFFFFFFF), (13, 0xFFFFFFFF)] ||
        !outDescOk c then .next (complete s c stBadParam [])
    else
      let held := (heldSignatures s).filter (fun g => decide (c.w 3 ≤ g.1))
      let room := outLen c / 392
      let next0 := match held with
        | g :: _ => g.1
        | [] => s.hutch.img.nextSig
      if !held.isEmpty && decide (room = 0) then
        let s : State := completeBulk s c stOk [0, 0, w32 next0, 0, 0] ((held.take 1).flatMap (·.2))
        .next s
      else
        let n := if c.w 4 = 0 then room else min room (c.w 4)
        let out := held.take n
        let next := match out.reverse with
          | g :: _ => g.1 + 1
          | [] => next0
        let res := [w32 out.length, w32 (392 * out.length), w32 next]
        .next (completeBulk s c stOk res (out.flatMap (·.2)))

end Sys2Proof.Machine
end

