-- ==== Sys2Proof/Machine/Security.lean ====
section
/-! DEFINITION. TENANT_SCRUB, KEY_LOAD and ALARM_ACK (R89, R453 to R462). -/

namespace Sys2Proof.Machine

/-- R457: the fields that a scrub covers. -/
def scrubFields (s : State) (t mask : Nat) : List Nat :=
  if mask = 0 then allFields.filter (fun f => decide (tget s.cab.marks 0 f = t) && (fieldPart s f).isNone)
  else allFields.filter (fun f => (List.range 16).any (fun p => bitAt mask p && (fieldsOfPart s p).contains f))

/-- Order 1 of Table 18.2: Bench tests end ABORTED and the tenant's stream contexts in the fields are freed. -/
def scrubWork (s : State) (t : Nat) (fs : List Nat) : State :=
  let s : State := fs.foldl (fun s f => ((fieldOf s f).bench.map (·.1)).foldl (fun s k => abortTest s f k false) s) s
  freeContexts s (fun k => k.tenant == t && fs.contains k.field)

/-- TENANT_SCRUB (R457). -/
def execTenantScrub (q e : Nat) (s : State) : Result :=
  whenSome s (runCmd s q e opTenantScrub) "no running TENANT_SCRUB" fun c =>
    let t := c.f 3 0 4
    let mask := c.f 4 0 16
    let ps := (List.range 16).filter (bitAt mask)
    let fs := scrubFields s t mask
    if !reservedOk c [(3, 0xF), (4, 0xFFFF)] || ps.any (fun p => (partOf s p).map (·.tenant) != some t) ||
        (decide (mask = 0) && fs.isEmpty) then .next (complete s c stBadParam [])
    else if ps.any (fun p => ((partOf s p).bind (·.prog)).isSome) then .next (complete s c stBusy [])
    else if noNotification s c then .next (complete s c stBadOpcode [])
    else
      let freed := (s.side.contexts.filter (fun k => k.tenant == t && fs.contains k.field)).length
      let s : State := accept s c ([t, bit01 (decide (mask = 0)), s.now, freed] ++ fs)
      .next (scrubWork s t fs)

/-- Orders 2 and 3 of Table 18.2: tile rings, activity counters, hold buffers and warden rings of the fields are zeroed. -/
def zeroTiles (s : State) (fs : List Nat) : State :=
  let s : State := clearCounters s fs
  let s : State := { s with guards := s.guards.map (fun e =>
    if fs.contains (taField e.1) then (e.1, { clearGuard e.2 with ring := [] }) else e) }
  modFields s fs (fun x => { x with ring := [], cycLive := [], cycStart := [], cycStop := [], cycLatch := [] })

/-- Table 18.3: the body of EV_SCRUB before its signature. -/
def scrubBody (t byMark start micros tiles power golden slots freed : Nat) (unsigned : Bool) (fs : List Nat) : List Word :=
  let m := (fs.map (fun f => 2 ^ f)).sum
  [w32 (t + byMark * 2 ^ 4 + bit01 unsigned * 2 ^ 5), w32 m, w32 (m / 2 ^ 32), w32 (m / 2 ^ 64), w32 tiles, w32 (power % 2 ^ 16),
   w32 (golden + slots * 2 ^ 18), w32 freed] ++ w64 start ++ [w32 micros, 0]

/-- R459: the body with its signature over header bytes 4 to 19 and the body, the signature taken as zero. -/
def signScrub (s : State) (r : Rec) (front : List Word) : List Word :=
  match if s.arm.unsealed then s.arm.identity else none with
  | none => front ++ List.replicate 16 0
  | some k =>
    let sg := Config.ecdsaSign k ((recHeader r 0x3F).drop 1 ++ front ++ List.replicate 16 0)
    front ++ words256 sg.1 ++ words256 sg.2

/-- SCRUB_COMPLETE (R456 to R459): `stuck` are the rows that stayed non-zero after three writes; their tiles were cleared by their power
header. The record is signed with the operating time of its commit and committed at once. -/
def execScrubComplete (handle : Nat) (stuck : List (Nat × Nat)) (durationMs : Nat) (s : State) : Result :=
  whenSome s (s.fe.ops.find? (fun o => o.handle == handle && o.opcode == opTenantScrub && o.final.isNone)) "no scrub of that handle runs" fun o =>
    let t := o.args.getD 0 0
    let fs := o.args.drop 4
    if !stuck.all (fun r => physicalOk r.1 && fs.contains (taField r.1) && decide (r.2 < 1160)) then .fault (.malformed "SCRUB_COMPLETE")
    else
      whenOk s (clocked s && s.hang.fwUp && !s.cab.failed) "hub firmware is down, or the NOR is failed"
        (let s : State := zeroTiles s fs
         let s : State := stuck.foldl (fun s r =>
           if 1032 ≤ r.2 then markQuarantined s (taField r.1) (taPlace r.1) 0xA 3
           else
             match retireRow s (taField r.1) (taPlace r.1) r.2 3 with
             | some u => u
             | none => markQuarantined s (taField r.1) (taPlace r.1) 3 3) s
         let golden := (s.nor.golden.filter (fun g => g.tenant == t)).length
         let owned := (s.nor.dumps.filter (fun d => d.2.tenant == t)).map (·.1)
         let slots := (owned.map (fun k => 2 ^ k)).sum
         let s : State := eraseUnits s (owned.flatMap slotUnits)
         let s : State := { s with nor := { s.nor with
           golden := s.nor.golden.filter (fun g => g.tenant != t), dumps := s.nor.dumps.filter (fun d => d.2.tenant != t) } }
         let s : State := writeSnapshot (setMarks s fs 0)
         let s : State := commitAll s
         let key := if s.arm.unsealed then s.arm.identity else none
         let front := scrubBody t (o.args.getD 1 0) (o.args.getD 2 0) durationMs (10000 * fs.length) (stuck.map (·.1)).eraseDups.length
           golden slots (o.args.getD 3 0) key.isNone fs
         let seqNo := nextSeqNo s
         let r : Rec := { seqNo := seqNo, typ := evScrub, tenant := t, body := .words (front ++ List.replicate 16 0), opTime := s.cab.opTime,
                          cycles := s.cab.cycles }
         let s : State := emitBody s evScrub t none (.words (signScrub s r front))
         finishOp (commitAll s) handle stOk (w64 seqNo))

/-- KEY_LOAD (R454): `blob` is what lies at the host address. -/
def execKeyLoad (q e : Nat) (blob : List Byte) (s : State) : Result :=
  whenSome s (runCmd s q e opKeyLoad) "no running KEY_LOAD" fun c =>
    let slot := c.f 3 0 4
    let erase := c.b 3 8
    let bad := complete s c stBadParam []
    if !reservedOk c [(3, 0x10F), (4, 0xFFFFFFFF), (5, 0xFFFFFFFF), (6, 0xFFFFFFFF)] || decide (slot = 0) then .next bad
    else if erase then
      let had := (tfind s.arm.tenantKeys slot).isSome
      let s : State := { s with arm := { s.arm with tenantKeys := tdel s.arm.tenantKeys slot } }
      .next (complete (if had then commitAll (emit s evKeyLoad [slot, 0]) else s) c stOk [0])
    else if c.w 6 ≠ 112 then .next bad
    else
      match unwrapBlob s slot blob with
      | none => .next bad
      | some k =>
        let s : State := { s with arm := { s.arm with tenantKeys := tset s.arm.tenantKeys slot k } }
        .next (complete (commitAll (emit s evKeyLoad [slot, 1])) c stOk [1])

/-- ALARM_ACK (R462). -/
def execAlarmAck (q e : Nat) (s : State) : Result :=
  whenSome s (runCmd s q e opAlarmAck) "no running ALARM_ACK" fun c =>
    if !reservedOk c [(3, 0xFF)] then .next (complete s c stBadParam [])
    else
      let s : State := ackAlarm s (c.f 3 0 8)
      .next (complete s c stOk [w32 s.arm.active])

end Sys2Proof.Machine
end

