-- ==== Sys2Proof/Machine/Service.lean ====
section
/-! DEFINITION. The alarm sources, the front panel (R63, R64, R467 to R469) and the service port and console (R60 to R62, R463
to R466). -/

namespace Sys2Proof.Machine

/-! ### Front panel and alarm -/

/-- BUTTON_PRESS (R63, R44): an accepted falling edge; the input is ignored while it is faulted. -/
def execButtonPress (s : State) : Result :=
  if !(clocked s && !s.panel.pressed && !s.panel.ignored) then idle s "the button is down already"
  else if (pinOf s .attnBtn).fault then .next s
  else .next { s with panel := { s.panel with pressed := true, hold4 := false, hold10 := false } }

/-- BUTTON_SHORT_RELEASE (R63, R467): a press shorter than 1 s toggles locate. -/
def execButtonShortRelease (s : State) : Result :=
  whenOk s (clocked s && s.panel.pressed && !s.panel.hold4) "no short press is under way"
    { s with panel := { s.panel with pressed := false, locate := !s.panel.locate } }

/-- BUTTON_LONG_RELEASE (R63, R44): a press of 1 s or more ends; a button held at power-on is watched from here on. -/
def execButtonLongRelease (s : State) : Result :=
  whenOk s (clocked s && (s.panel.pressed || s.panel.ignored)) "no press is under way"
    { s with panel := { s.panel with pressed := false, ignored := false, hold4 := false, hold10 := false } }

/-- BUTTON_HOLD_4S (R63, R309, R468): needs hub firmware. -/
def execButtonHold4s (s : State) : Result :=
  whenOk s (clocked s && s.panel.pressed && !s.panel.hold4) "no press reaches 4 s"
    (let s : State := { s with panel := { s.panel with hold4 := true } }
     if s.hang.fwUp then startQuiesce { s with panel := { s.panel with blink := true } } else s)

/-- BUTTON_HOLD_10S (R469): CYCLE with reason 0x05 where PANEL POLICY has enabled it. -/
def execButtonHold10s (s : State) : Result :=
  whenOk s (clocked s && s.panel.pressed && s.panel.hold4 && !s.panel.hold10) "no press reaches 10 s"
    (let s : State := { s with panel := { s.panel with hold10 := true } }
     if s.hang.fwUp && s.arm.hold10 then wantCycle { s with panel := { s.panel with blink := true } } 0x05 else s)

/-- HELD_ACTION_BLINK_END (R468). -/
def execHeldActionBlinkEnd (s : State) : Result :=
  whenOk s (clocked s && s.panel.blink) "LOC_LED does not blink" { s with panel := { s.panel with blink := false } }

/-- LID_CHANGE (R63, R64, R460). -/
def execLidChange (isOpen : Bool) (s : State) : Result :=
  whenOk s (clocked s && (s.panel.lidOpen != isOpen)) "the lid is at that level already"
    (let s : State := { s with panel := { s.panel with lidOpen := isOpen } }
     if isOpen then raiseAlarm s 0 else s)

/-- SUPPLY_GLITCH (Table 18.5). -/
def execSupplyGlitch (s : State) : Result :=
  whenOk s s.feed "no hub feed" (raiseAlarm { s with arm := { s.arm with feedGlitch := some s.now } } 2)

/-- CLOCK_GLITCH (Table 18.5). -/
def execClockGlitch (s : State) : Result :=
  whenOk s s.feed "no hub feed" (raiseAlarm { s with arm := { s.arm with clockGlitch := some s.now } } 3)

/-! ### Service port -/

/-- Table 2.8: EP0, EP1 IN, EP2 OUT, EP2 IN, EP3 IN (bit 7 of the address set for IN), with the maximum packet at high speed. -/
def usbEndpoints : List (Nat × Nat) := [(0x00, 64), (0x81, 16), (0x02, 512), (0x82, 512), (0x83, 512)]

/-- R60: the device that enumerates. -/
def usbDevice : Out := .usbDevice Config.usbVendor.toNat 0x5A03 usbEndpoints

/-- USB_CONNECT (R60, R61): the pull-up is connected and the device presents itself. -/
def execUsbConnect (s : State) : Result :=
  whenOk s (clocked s && consoleServed s && !s.svc.vbus && !s.arb.hubOff) "the console may not enumerate, or is connected"
    (drive { s with svc := { s.svc with vbus := true, role := none, challenge := none, wrongTime := none } } usbDevice)

def svcReason : SvcEnd → Nat
  | .vbusLost => 0 | .busReset => 1 | .idle => 2

/-- SVC_SESSION_END (R62, R466): the pull-up is disconnected, authentication is dropped, a transfer under way is abandoned. -/
def execSvcSessionEnd (why : SvcEnd) (s : State) : Result :=
  whenOk s (clocked s && s.svc.vbus) "no session"
    (emit { s with svc := { s.svc with vbus := false, role := none, challenge := none, request := none } } evSvcEnd [svcReason why])

/-- A console command is refused: nothing but the answer (R464). -/
def consoleRefuse (s : State) : State := drive s (.console [])

/-- A console command of a role: refused below the role; no session, no command (R464, R465). -/
def consoleRun (s : State) (role : Nat) (rom : Bool) (t : State) : Result :=
  if !(clocked s && s.svc.vbus) then idle s "no console session"
  else .next (if consoleMay s role rom then t else consoleRefuse s)

/-- R463: the signed text: "JZSVC", the wafer serial, the challenge and the role byte. -/
def challengeText (s : State) (ch role : Nat) : List Byte :=
  [0x4A#8, 0x5A#8, 0x53#8, 0x56#8, 0x43#8] ++ serialBytes s ++ (List.range 16).map (fun i => BitVec.ofNat 8 (ch >>> (8 * i))) ++
    [BitVec.ofNat 8 role]

/-- R463: AUTH is refused for 10 s after a wrong response. -/
def authRefused (s : State) : Bool :=
  match s.svc.wrongTime with
  | some t => decide (s.now < t + 10000000000)
  | none => false

/-- CONSOLE_AUTH (R463): without a response a challenge is issued; with one (r, s, role) it is judged. -/
def execConsoleAuth (response : Option (Nat × Nat × Nat)) (s : State) : Result :=
  if !(clocked s && s.svc.vbus) then idle s "no console session"
  else if authRefused s then .next (consoleRefuse s)
  else
    match response with
    | none =>
      let ch := freeVal s (2 ^ 128)
      let s : State := advFree { s with svc := { s.svc with challenge := some ch, challengeTime := s.now } }
      .next (drive s (.console [ch]))
    | some (r, sg, role) =>
      match s.svc.challenge with
      | none => .next (consoleRefuse s)
      | some ch =>
        let t0 := s.svc.challengeTime
        let s : State := { s with svc := { s.svc with challenge := none } }
        if t0 + 60000000000 < s.now then .next (consoleRefuse s)
        else if role < 2 && Config.ecdsaVerify s.arm.svcKey (challengeText s ch role) (r, sg) then
          .next (emit { s with svc := { s.svc with role := some role }, arm := { s.arm with fails := 0 } } evSvcStart [role])
        else
          let s : State := { s with svc := { s.svc with wrongTime := some s.now } }
          .next (authFailed (emit s evAuthFail []))

/-- CONSOLE_STATUS (Table 18.7): wafer stage, STATUS word, active alarm sources, fields in service. -/
def execConsoleStatus (s : State) : Result :=
  let fs := allFields.filter (fun f => ((fieldOf s f).stage == 7 || (fieldOf s f).reduced) && !(fieldOf s f).excluded)
  consoleRun s 0 true (drive s (.console ([waferStage s, s.tray.status.toNat, s.arm.active] ++ fs)))

/-- CONSOLE_LOG (Table 18.7, R465): records as tenant 0's window shows them, from a sequence number; the hub ROM reads the
fallback store and the ring as recovered. -/
def execConsoleLog (fromSeq : Nat) (s : State) : Result :=
  let recs := if s.svc.romOnly then s.cab.store ++ s.nor.ring.filter (fun r => !r.cleared) else committed s
  let out := (recs.filter (fun r => decide (fromSeq ≤ r.seqNo))).flatMap (fun r => (windowWords s.regs.legacy 0 r).map (·.toNat))
  consoleRun s 0 true (drive s (.console out))

/-- CONSOLE_RING (R427 to R429): the warden ring of a field index, or the tile ring of a physical tile address. -/
def execConsoleRing (tileRing : Bool) (which : Nat) (s : State) : Result :=
  let out := if tileRing then (guardOf s which).ring.flatMap (fun r => [r.typ, r.seam, r.cycle, r.arg, r.detail.toNat])
    else (fieldOf s which).ring.flatMap (fun r => [r.1, r.2.1, r.2.2.1] ++ r.2.2.2) ++
      ((fieldOf s which).link.drop 64).flatMap (fun r => [r.1] ++ r.2.2.map (·.toNat))
  consoleRun s 0 false (drive s (.console out))

/-- CONSOLE_DUMP (R464, R466): header and ciphertext on EP3; the dump does not count as read. -/
def execConsoleDump (slot : Nat) (s : State) : Result :=
  consoleRun s 0 false
    (match tfind s.nor.dumps slot with
     | some d => if s.cab.failed then consoleRefuse s else drive s (.ep3 (bytesOf (dumpStream slot d)))
     | none => consoleRefuse s)

/-- CONSOLE_ALARM_ACK (R462). -/
def execConsoleAlarmAck (mask : Byte) (s : State) : Result :=
  let t := ackAlarm s mask.toNat
  consoleRun s 1 false (drive t (.console [t.arm.active]))

/-- CONSOLE_ALARM_POLICY (Table 18.7): action 0-3 for one source. -/
def execConsoleAlarmPolicy (source action : Nat) (s : State) : Result :=
  if 4 ≤ source ∨ 4 ≤ action then .fault (.malformed "CONSOLE_ALARM_POLICY")
  else consoleRun s 1 false { s with arm := { s.arm with actions := s.arm.actions.set source action } }

/-- CONSOLE_PANEL_POLICY (R469). -/
def execConsolePanelPolicy (enable : Bool) (s : State) : Result :=
  consoleRun s 1 false { s with arm := { s.arm with hold10 := enable } }

/-- CONSOLE_ADMINKEY (Table 18.7): slot 0 from a blob of R454 with slot byte 0. -/
def execConsoleAdminkey (blob : List Byte) (s : State) : Result :=
  consoleRun s 1 false
    (match unwrapBlob s 0 blob with
     | some k => emit { s with arm := { s.arm with admin := some k } } evKeyLoad [0, 1]
     | none => consoleRefuse s)

/-- CONSOLE_IDENTITY (Table 18.7, R466): with no identity key a request for a new one is returned; the certificate received
installs it. A transfer cut short changes nothing. -/
def execConsoleIdentity (certificate : Option (List Byte)) (s : State) : Result :=
  consoleRun s 1 false
    (match certificate with
     | none =>
       if s.arm.identity.isSome then consoleRefuse s
       else
         let k := freeVal s (2 ^ 256)
         drive (advFree { s with svc := { s.svc with request := some k } }) (.ep3 (Config.pkcs10 k))
     | some cert =>
       match s.svc.request with
       | some k =>
         if s.arm.identity.isSome then consoleRefuse s
         else { s with arm := { s.arm with identity := some k }, svc := { s.svc with request := none, cert := cert } }
       | none => consoleRefuse s)

/-- CONSOLE_SVCKEY (Table 18.7): a new service authority key, signed by the current one. -/
def execConsoleSvckey (newKey : Nat × Nat) (sig : Nat × Nat) (s : State) : Result :=
  let text := (List.range 64).map (fun i => BitVec.ofNat 8 ((newKey.1 * 2 ^ 256 + newKey.2) >>> (8 * (63 - i))))
  consoleRun s 1 false
    (if Config.ecdsaVerify s.arm.svcKey text sig then { s with arm := { s.arm with svcKey := newKey } } else consoleRefuse s)

/-- CONSOLE_BOARD (Table 18.7): the board descriptor for the next power-up; refused while any partition is defined. -/
def execConsoleBoard (descriptor : List Byte) (s : State) : Result :=
  consoleRun s 1 false
    (if !s.parts.isEmpty || decide (4096 < descriptor.length) || s.cab.failed then consoleRefuse s
     else { s with nor := { s.nor with boardNext := some descriptor } })

end Sys2Proof.Machine
end

