-- ==== Sys2Proof/Machine/Sideboard.lean ====
section
/-! DEFINITION. The Sideboard: DIGEST_DEFINE, DIGEST_COMPARE and EXPEL, scrub passes, intervals, exchange records, comparisons and
re-verification (R177 to R200). -/

namespace Sys2Proof.Machine

/-! ### Definition -/

/-- R183: the definition fits its replica group. -/
def fitsGroup (s : State) (t num kind len group replica : Nat) : Bool :=
  ((groupContexts s t group).filter (fun c => c.num != num)).all (fun c =>
    c.kind == kind && c.length == len && c.replica != replica)

/-- R182, R185: there is no room for the context, or for the golden entry of its group. -/
def noRoom (s : State) (t num kind group : Nat) : Bool :=
  let new := (findContext s t num).isNone
  (new && (decide (131072 ≤ s.side.contexts.length) ||
    decide (65536 ≤ (s.side.contexts.filter (fun c => c.tenant == t)).length))) ||
  (decide (kind = 0) && (goldenOf s t group).isNone && !(groupContexts s t group).any (fun c => c.kind == 0) && goldensFull s)

/-- DIGEST_DEFINE (R177, R178, R182, R183, R185, R198, R493): `masks` are the masks that the tiles hold, from the first tile on.
A token chain is defined at once; a shard when its rows have been read. -/
def execDigestDefine (q e : Nat) (masks : List (BitVec 1024)) (s : State) : Result :=
  whenSome s (runCmd s q e opDigestDefine) "no running DIGEST_DEFINE" fun c =>
    let bad := complete s c stBadParam []
    match partOf s c.part with
    | none => .next bad
    | some y =>
      let num := c.f 3 0 17
      let kind := c.f 3 17 2
      let first := c.f 4 0 24
      let f := taField first
      let x := fieldOf s f
      let len := c.w 5
      let left := fieldTiles x - tileIndex first
      let t := y.tenant
      if !reservedOk c [(3, 0x7FFFF), (4, 0xFFFFFF), (5, 0xFFFFFFFF), (6, 0xFFFFFF)] || decide (1 < kind) || y.prog.isNone ||
          !logicalOk first || !partHas y f || decide (left = 0) then .next bad
      else
        let shard := if kind = 0 then (if len % 64 = 0 then shardMasks (masks.take left) (len / 64) else none) else some []
        let chainOk := decide (4 ≤ len) && decide (len ≤ 8192) && decide (len % 4 = 0)
        let short := decide (masks.length < left) && decide (((masks.map (fun m => (maskRows m).length)).sum) < len / 64)
        match shard with
        | none => if kind = 0 && decide (len % 64 = 0) && short then .fault (.malformed "DIGEST_DEFINE") else .next bad
        | some ms =>
          let group := c.f 6 0 16
          let replica := c.f 6 16 8
          if (decide (kind = 1) && !chainOk) || !fitsGroup s t num kind len group replica then .next bad
          else if noRoom s t num kind group then .next (complete s c stBusy [])
          else
            let peer := (groupContexts s t group).head?
            let old := ((findContext s t num).map waitingCmds).getD []
            let k : Context := {
              kind := kind, tenant := t, num := num, part := c.part, field := f, first := first, length := len, masks := ms,
              group := group, replica := replica, ready := decide (kind = 1), seams := seamsReached s f, nowCmd := old,
              known := (peer.map (·.known)).getD [], remotes := (peer.map (·.remotes)).getD [], gone := (peer.map (·.gone)).getD [] }
            let s : State := putContext s k
            .next (if kind = 1 then complete s c stOk (w64 0) else background s c)

/-- DIGEST_DEFINE_READ_DONE (R180, R184, R187): the covered rows have been read, tile by tile, 16 words to a row. A context whose group
is being re-verified joins it (R195). -/
def execDigestDefineReadDone (q e : Nat) (tiles : List (List Word)) (s : State) : Result :=
  whenSome s ((findCmd s q e).filter (fun c => c.phase == .background && c.opcode == opDigestDefine))
    "no definition is being read" fun c =>
   if !(clocked s && executes s opDigestDefine) then idle s "the hub does not execute it" else
    whenSome s ((partOf s c.part).bind (fun y => findContext s y.tenant (c.f 3 0 17)))
      "the context is gone" fun k =>
      if tiles.map (·.length) ≠ k.masks.map (fun m => 16 * (maskRows m).length) then .fault (.malformed "DIGEST_DEFINE_READ_DONE")
      else
        let parts := tileParts weightKey 0 tiles
        let d := sumParts parts
        let off := match goldenOf s k.tenant k.group with | some g => g.digest != d | none => false
        let again := (groupContexts s k.tenant k.group).find? (·.reverify)
        let s : State := putContext s { k with
          ready := true, defined := d, parts := parts, digest := d, changed := off, reverify := again.isSome,
          reverifyNo := (again.map (·.reverifyNo)).getD 0 }
        .next (complete s c stOk (w64 d))

/-! ### Commands -/

/-- DIGEST_COMPARE (R190, R199). -/
def execDigestCompare (q e : Nat) (s : State) : Result :=
  whenSome s (runCmd s q e opDigestCompare) "no running DIGEST_COMPARE" fun c =>
    let bad := complete s c stBadParam []
    match partOf s c.part with
    | none => .next bad
    | some y =>
      match findContext s y.tenant (c.f 3 0 17) with
      | none => .next bad
      | some k =>
        if !reservedOk c [(3, 0x1FFFF), (4, 0x8000FFFF)] || !k.ready || decide (k.part ≠ c.part) then .next bad
        else
          let n := if c.f 4 0 16 = 0 then 64 else c.f 4 0 16
          let k : Context := { k with interval := n }
          let s : State := putContext s k
          if (groupContexts s k.tenant k.group).any (·.reverify) then .next (complete s c stDegraded (compareResults k))
          else if c.b 4 31 && !k.expelled then
            let s : State := putContext s { k with nowCmd := k.nowCmd ++ [(q, e)], nowAt := seamsReached s k.field + 1 }
            .next (background s c)
          else .next (complete s c stOk (compareResults k))

/-- Replicas of a group in this wafer's view: the local ones that are not expelled and the remote ones known (R192, R196). -/
def viewOf (s : State) (t group : Nat) : List Nat :=
  let cs := (groupContexts s t group).filter (fun c => !c.expelled)
  (cs.map (·.replica) ++ cs.flatMap (fun c => c.remotes.filter (fun r => (tfind c.known r).isSome))).eraseDups

/-- EXPEL (R196, R197). The spec gives the OUTCOME of the record of an explicit expulsion no code: it is a free value. -/
def execExpel (q e : Nat) (s : State) : Result :=
  whenSome s (runCmd s q e opExpel) "no running EXPEL" fun c =>
    match partOf s c.part with
    | none => .next (complete s c stBadParam [])
    | some y =>
      let group := c.f 3 0 16
      let replica := c.f 4 0 8
      let view := viewOf s y.tenant group
      if !reservedOk c [(3, 0xFFFF), (4, 0xFF)] || !view.contains replica then .next (complete s c stBadParam [])
      else if view.length < 3 then .next (complete s c stBusy [])
      else
        let res := [w32 (view.length - 1)]
        match (groupContexts s y.tenant group).find? (fun k => k.replica == replica && !k.expelled) with
        | some k =>
          let golden := (contextGolden s k).getD 0
          let w := digestWord k (freeVal s 8) k.agree k.disagree (!k.remotes.isEmpty)
          .next (complete (expelContext (advFree s) k golden w) c stOk res)
        | none =>
          let drop := fun k : Context =>
            if k.tenant = y.tenant ∧ k.group = group then { forgetReplica replica k with gone := k.gone ++ [replica] } else k
          .next (complete (setContexts s (s.side.contexts.map drop)) c stOk res)

/-! ### Scrub passes -/

/-- Table 14.2: the shortest scrub pass, 0.5 s. -/
def shortestPass : Nat := 500000000
/-- R189: the pass under way has not been restarted, or has had time to complete since. -/
def passMayEnd (s : State) (k : Context) : Bool :=
  match k.passFrom with
  | some t => decide (t + shortestPass ≤ s.now)
  | none => true

/-- SCRUB_PASS_DONE (R188, R189): a pass over every covered row of a context has completed; `parts` are its tiles' parts. -/
def execScrubPassDone (t ctx : Nat) (parts : List Nat) (s : State) : Result :=
  whenSome s (findContext s t ctx) "no such context" fun k =>
    if !(clocked s && k.kind == 0 && k.ready && (fieldOf s k.field).warden == .up && passMayEnd s k) then
      idle s "the context has no digest to check, or its pass was restarted"
    else if parts.length ≠ k.masks.length then .fault (.malformed "SCRUB_PASS_DONE")
    else
      let d := sumParts parts
      let k : Context := { k with passFrom := none }
      if d = k.defined ∧ k.written = false then .next (putContext s { k with digest := d })
      else
        let bad := match firstDiffer k parts with | some a => some a | none => k.badTile
        let k : Context := { k with digest := d, changed := true, badTile := bad }
        let golden := (contextGolden s k).getD 0
        .next (emitDigest (putContext s k) evDigestChanged k golden (digestWord k 6 k.agree k.disagree (!k.remotes.isEmpty)))

/-! ### Intervals -/

/-- An interval boundary, or a seam at which NOW asks for a comparison, has been reached and not reported (R190). -/
def boundaryDue (s : State) (k : Context) : Bool :=
  let n := seamsReached s k.field
  decide (0 < n) && decide (k.seams ≠ n) &&
    (decide (n % max 1 k.interval = 0) || (!k.nowCmd.isEmpty && decide (k.nowAt ≤ n)))

/-- R193: the records of a report are queued behind those that have not left; the Sideboard sends 500 million a second. -/
def queueRecords (s : State) (n : Nat) : State := { s with side := { s.side with sendUntil := max s.now s.side.sendUntil + 2 * n } }

/-- R190: how many records a report of the context makes: one to each other replica of the group on this wafer and one to each peer. -/
def reportRecords (s : State) (k : Context) : Nat := ((liveContexts s k.tenant k.group).length - 1) + (peerPorts s k.part).length

/-- R190, R192: the comparison of an interval opens with the local report. -/
def openComparison (s : State) (k : Context) (no n : Nat) : Context :=
  let due := decide (k.nowAt ≤ n)
  let cmds := (k.opens.filter (fun o => o.interval == no)).flatMap (·.cmds) ++ (if due then k.nowCmd else [])
  { k with
    seams := n, intervalNo := no, sentAt := s.side.sendUntil, nowCmd := if due then [] else k.nowCmd,
    opens := k.opens.filter (fun o => o.interval != no) ++ [{ interval := no, since := s.now, cmds := cmds }] }

/-- DIGEST_INTERVAL_BOUNDARY (R190 to R193): the maintained digest is reported; records go to the group's other replicas. A boundary
that finds the records of the context's previous report still unsent is skipped and counted. -/
def execDigestIntervalBoundary (t ctx : Nat) (s : State) : Result :=
  whenSome s (findContext s t ctx) "no such context" fun k =>
    if !(clocked s && k.ready && !k.expelled && !k.reverify && fieldLoaded s k.field && (fieldOf s k.field).warden == .up && boundaryDue s k) then
      idle s "no interval boundary of the context"
    else
      let n := seamsReached s k.field
      if s.now < k.sentAt then
        .next (putContext { s with side := { s.side with skipped := s.side.skipped + 1 } } { k with seams := n })
      else
        let s : State := queueRecords s (reportRecords s k)
        let k : Context := openComparison s k (n / max 1 k.interval) n
        let r := ownReport k
        let s : State := putContext s k
        let s : State := setContexts s (s.side.contexts.map (fun d =>
          if d.tenant = t ∧ d.group = k.group ∧ d.ready = true ∧ d.expelled = false then hear r d else d))
        .next (sendExchange s k 0 false)

/-! ### Exchange records -/

/-- EXCHANGE_RECORD_RECEIVE (R191, R192, R195): an interval report or a re-verification result from another wafer. -/
def execExchangeRecordReceive (x : Exchange) (s : State) : Result :=
  if x.words.length ≠ 8 ∨ 64 ≤ x.port then .fault (.malformed "EXCHANGE_RECORD_RECEIVE")
  else if !clocked s then idle s "no hub feed"
  else
    let w := fun i => cw x.words i
    if crc32c (bytesOf (x.words.take 6)) ≠ w 6 then
      .next { s with side := { s.side with crcBad := s.side.crcBad + 1 } }
    else
      let job := bitsOf (w 0) 0 16
      let group := bitsOf (w 0) 16 16
      let replica := bitsOf (w 1) 0 8
      let kind := bitsOf (w 1) 8 1
      let typ := bitsOf (w 1) 10 2
      let mine := fun k : Context => k.group == group && k.kind == kind && !k.expelled &&
        (match (partOf s k.part).bind (·.tree) with | some t => t.job == job | none => false)
      if !s.side.contexts.any mine || decide (1 < typ) then
        .next { s with side := { s.side with discards := s.side.discards + 1 } }
      else
        let r : Report := { replica := replica, interval := w 2, digest := w 3 + (w 4 % 2 ^ 29) * 2 ^ 32,
                            changed := bitAt (w 1) 9, tokens := bitsOf (w 5) 0 24, remote := true }
        let take := fun k : Context =>
          if !mine k then k
          else if typ = 0 then hear r k
          else if k.gone.contains replica then k
          else { k with matches_ := k.matches_.filter (fun m => m.1 != replica) ++ [(replica, w 2, bitAt (w 1) 12)] }
        .next (setContexts s (s.side.contexts.map take))

/-! ### Comparisons -/

/-- The replicas heard for the interval of a context. -/
def heardFor (k : Context) (no : Nat) : List Nat := (k.reports.filter (fun r => r.interval == no)).map (·.replica)

/-- R192: what the close of the comparison of an interval does to the known replicas: the missed count of each, and those that stop being
known. -/
def settleKnown (k : Context) (no : Nat) : Context × List Nat :=
  let heard := heardFor k no
  let l : List (Nat × Nat) := k.known.map (fun e => (e.1, if heard.contains e.1 then 0 else e.2 + 1))
  let absent := (l.filter (fun e => decide (4 ≤ e.2))).map (·.1)
  ({ k with known := l.filter (fun e => decide (e.2 < 4)), remotes := k.remotes.filter (fun r => !absent.contains r) }, absent)

/-- The comparison of an interval is over: its reports go, the counts stay for DIGEST_COMPARE. -/
def closed (k : Context) (no agree disagree : Nat) : Context :=
  { k with opens := k.opens.filter (fun o => o.interval != no), agree := agree, disagree := disagree,
           reports := k.reports.filter (fun r => r.interval != no) }

/-- R185, R186: a group without a golden: the baseline is written where every report gives one digest. -/
def baseline (s : State) (k : Context) (own : Report) (rs : List Report) (word : Nat → Dword) : State :=
  if rs.all (fun r => decide (r.digest = own.digest)) then
    if s.cab.failed || decide (131072 ≤ s.nor.golden.length) then s
    else
      let g : Golden := { tenant := k.tenant, group := k.group, length := k.length, digest := own.digest }
      let s : State := { s with nor := { s.nor with golden := s.nor.golden ++ [g] } }
      emitDigest { s with side := { s.side with agreed := s.side.agreed + 1 } } evDigestBaseline k own.digest (word 1)
  else emitDigest s evDigestDisagree k 0 (word 5)

/-- R195: a live context of the group is suspended while the group is re-verified; results heard for that interval count, older ones are
stale; the DIGEST_COMPARE commands that it held complete with ST_DEGRADED. -/
def suspend (no : Nat) (s : State) (d : Context) : State :=
  leaveComparisons s { d with reverify := true, reverifyNo := no, matches_ := d.matches_.filter (fun m => m.2.1 == no) } stDegraded

/-- Table 7.2, the last two rows: a shard's group is re-verified, and its comparisons are suspended (R195); a chain's disagreement is
recorded. -/
def noMajority (s : State) (k : Context) (word : Nat → Dword) : State :=
  if k.kind = 1 then emitDigest s evDigestDisagree k 0 (word 5)
  else (liveContexts s k.tenant k.group).foldl (suspend k.intervalNo) s

/-- Table 7.2, R196: the odd replicas of other wafers leave this wafer's view: their own wafers, which hear the same reports, expel them
(DEDUCED, log entry 171). -/
def dropOdd (s : State) (k : Context) (odd : List Report) : State :=
  setContexts s (s.side.contexts.map (fun d =>
    if d.tenant = k.tenant ∧ d.num = k.num then ((odd.filter (·.remote)).map (·.replica)).foldl (fun d r => forgetReplica r d) d else d))

/-- R194, Table 7.2: the verdict on one local replica. -/
def adjudicate (s : State) (k : Context) (own : Report) (rs : List Report) : State :=
  let golden := contextGolden s k
  let eq := fun r : Report => agrees golden own r
  let remote := rs.any (·.remote)
  let word := fun o : Nat => digestWord k o k.agree k.disagree remote
  let agreed : State := { s with side := { s.side with agreed := s.side.agreed + 1 } }
  let all := rs.all eq && (match golden with | some g => decide (own.digest = g) | none => true)
  let majority := if rs.length < 3 then none
    else rs.find? (fun a => decide (rs.length < 2 * (rs.filter (fun b => agrees golden a b)).length))
  if k.kind = 0 ∧ golden.isNone = true then baseline s k own rs word
  else if all then agreed
  else
    match majority with
    | some m => if eq m then dropOdd agreed k (rs.filter (fun r => !eq r)) else expelByRule s k 2 m.digest remote
    | none => noMajority s k word

/-- R192: the open comparison that closes: every known replica has reported for its interval, or 2 ms have passed since the local report. -/
def closing (s : State) (k : Context) : Option OpenComp :=
  k.opens.find? (fun o => k.known.all (fun e => (heardFor k o.interval).contains e.1) || decide (o.since + 2000000 ≤ s.now))

/-- COMPARISON_CLOSE (R186, R190, R192, R194, R197, R199, R277). The context is taken at the interval of the comparison. -/
def execComparisonClose (t ctx : Nat) (s : State) : Result :=
  whenSome s (findContext s t ctx) "no such context" fun c =>
    whenSome s (if clocked s then closing s c else none) "no comparison of the context closes" fun o =>
      let k : Context := { c with intervalNo := o.interval }
      let rs := comparedReports k
      let own := ownHeard k
      let agree := (rs.filter (fun r => r.digest == own.digest)).length
      let s : State := { s with side := { s.side with unaligned := s.side.unaligned + unalignedReports k } }
      let st := settleKnown k o.interval
      let k : Context := closed st.1 o.interval agree (rs.length - agree)
      let s : State := putContext s { k with intervalNo := c.intervalNo }
      let s : State := st.2.foldl (fun s r => emitPart s evDigestAbsent (some k.part)
        [k.digest, (contextGolden s k).getD 0, (digestWord k 5 k.agree k.disagree true).toNat, o.interval, r]) s
      let s : State := adjudicate s k own rs
      .next (answerCmds s k o.cmds (if ((findContext s t ctx).map (·.reverify)).getD false then stDegraded else stOk))

/-! ### Re-verification -/

/-- R195: the results heard from other wafers for the interval that the re-verification settles. -/
def resultsHeard (k : Context) : List (Nat × Bool) := (k.matches_.filter (fun m => m.2.1 == k.reverifyNo)).map (fun m => (m.1, m.2.2))

/-- R195: a context after its group's re-verification; replicas of other wafers that did not match are expelled there and leave its view. -/
def reverified (k : Context) : Context :=
  ((resultsHeard k).filter (fun m => !m.2)).foldl (fun d m => forgetReplica m.1 d) { k with reverify := false, matches_ := [] }

/-- REVERIFY_DONE (R195, R197, R277): the local replicas of a group have read their rows again; `fresh` gives each context's digest.
The results heard from other wafers by now count as reporting. -/
def execReverifyDone (t group : Nat) (fresh : List (Nat × Nat)) (s : State) : Result :=
  let ks := (groupContexts s t group).filter (fun k => k.reverify)
  match ks, goldenOf s t group with
  | k0 :: _, some g =>
    if !clocked s then idle s "no hub feed"
    else if fresh.map (·.1) ≠ ks.map (·.num) then .fault (.malformed "REVERIFY_DONE")
    else
      let res := ks.map (fun k => (k, decide (((fresh.find? (fun e => e.1 == k.num)).map (·.2)).getD 0 = g.digest)))
      let heard := (ks.flatMap resultsHeard).map (·.2) ++ res.map (·.2)
      let remote := ks.any (fun k => !(resultsHeard k).isEmpty)
      let s : State := res.foldl (fun s e => sendExchange s { e.1 with intervalNo := e.1.reverifyNo } 1 e.2) s
      let s : State := setContexts s (s.side.contexts.map (fun d => if d.tenant = t ∧ d.group = group then reverified d else d))
      if heard.all id then
        let s : State := { s with side := { s.side with transients := s.side.transients + 1 } }
        .next (emitDigest s evDigestReverify k0 g.digest (digestWord k0 3 k0.agree k0.disagree remote))
      else
        let s : State := (res.filter (fun e => !e.2)).foldl (fun s e =>
          match findContext s t e.1.num with
          | some k => expelByRule s { k with intervalNo := e.1.reverifyNo } 4 g.digest remote
          | none => s) s
        if heard.any id then .next s
        else
          let w := digestWord k0 7 k0.agree k0.disagree remote
          let s : State := emitDigest s evDigestGroupFail k0 g.digest w
          let fs := ((ks.map (fun k => (k.part, k.field))).foldl (fun (l : List (Nat × Nat)) e =>
            if l.any (fun d => d.1 == e.1) then l else l ++ [e]) []).map (·.2)
          .next (fs.foldl (fun s f => lostStep s f 0 3 false 0 0xFFFFFF 0 w 4) s)
  | _, _ => idle s "no re-verification of the group is in progress"

end Sys2Proof.Machine
end

