-- ==== Sys2Proof/Machine/Dispatch.lean ====
section
/-! DEFINITION. One arm per command of the block: each is one direct call of its meaning. -/

namespace Sys2Proof.Machine

/-- The effect of a command on everything but the queue of waiting commands. -/
def exec (i : Instr) (s : State) : Host.Outcome State Fault Refusal :=
  match i with
  | .sqDoorbell t qnum value => Sys2Proof.Machine.execSqDoorbell t qnum value s
  | .cqDoorbell t qnum value => Sys2Proof.Machine.execCqDoorbell t qnum value s
  | .commandFetch q words => Sys2Proof.Machine.execCommandFetch q words s
  | .orderedCommandStart q e => Sys2Proof.Machine.execOrderedCommandStart q e s
  | .fwCommandDispatch => Sys2Proof.Machine.execFwCommandDispatch s
  | .operationOutcome handle => Sys2Proof.Machine.execOperationOutcome handle s
  | .nop q e => Sys2Proof.Machine.execNop q e s
  | .fence q e => Sys2Proof.Machine.execFence q e s
  | .mapGridLoad q e dir => Sys2Proof.Machine.execMapGridLoad q e dir s
  | .mapGridDefine q e => Sys2Proof.Machine.execMapGridDefine q e s
  | .unmapUnload q e => Sys2Proof.Machine.execUnmapUnload q e s
  | .unmapDissolve q e => Sys2Proof.Machine.execUnmapDissolve q e s
  | .queryMap q e => Sys2Proof.Machine.execQueryMap q e s
  | .checkPolicy q e => Sys2Proof.Machine.execCheckPolicy q e s
  | .spotRate q e => Sys2Proof.Machine.execSpotRate q e s
  | .redundancy q e => Sys2Proof.Machine.execRedundancy q e s
  | .replayPolicy q e => Sys2Proof.Machine.execReplayPolicy q e s
  | .digestDefine q e masks => Sys2Proof.Machine.execDigestDefine q e masks s
  | .digestDefineReadDone q e tiles => Sys2Proof.Machine.execDigestDefineReadDone q e tiles s
  | .digestCompare q e => Sys2Proof.Machine.execDigestCompare q e s
  | .expel q e => Sys2Proof.Machine.execExpel q e s
  | .benchSchedule q e => Sys2Proof.Machine.execBenchSchedule q e s
  | .benchRun q e => Sys2Proof.Machine.execBenchRun q e s
  | .benchResult q e => Sys2Proof.Machine.execBenchResult q e s
  | .quarantine q e => Sys2Proof.Machine.execQuarantine q e s
  | .release q e => Sys2Proof.Machine.execRelease q e s
  | .spareStatus q e => Sys2Proof.Machine.execSpareStatus q e s
  | .sigExport q e => Sys2Proof.Machine.execSigExport q e s
  | .reset q e => Sys2Proof.Machine.execReset q e s
  | .heartbeatCfg q e => Sys2Proof.Machine.execHeartbeatCfg q e s
  | .logOpen q e => Sys2Proof.Machine.execLogOpen q e s
  | .logClear q e => Sys2Proof.Machine.execLogClear q e s
  | .dumpFetch q e => Sys2Proof.Machine.execDumpFetch q e s
  | .powerCap q e => Sys2Proof.Machine.execPowerCap q e s
  | .opmode q e => Sys2Proof.Machine.execOpmode q e s
  | .thermalRead q e readings => Sys2Proof.Machine.execThermalRead q e readings s
  | .counterLatch q e => Sys2Proof.Machine.execCounterLatch q e s
  | .latchOutputDone q e => Sys2Proof.Machine.execLatchOutputDone q e s
  | .counterFreeze q e => Sys2Proof.Machine.execCounterFreeze q e s
  | .freezeTrigger p cuts => Sys2Proof.Machine.execFreezeTrigger p cuts s
  | .traceCfg q e => Sys2Proof.Machine.execTraceCfg q e s
  | .timeAlign q e => Sys2Proof.Machine.execTimeAlign q e s
  | .timeAlignTreeStable p peers => Sys2Proof.Machine.execTimeAlignTreeStable p peers s
  | .barrierArm q e => Sys2Proof.Machine.execBarrierArm q e s
  | .tenantScrub q e => Sys2Proof.Machine.execTenantScrub q e s
  | .scrubComplete handle stuck durationMs => Sys2Proof.Machine.execScrubComplete handle stuck durationMs s
  | .keyLoad q e blob => Sys2Proof.Machine.execKeyLoad q e blob s
  | .alarmAck q e => Sys2Proof.Machine.execAlarmAck q e s
  | .legacyFmtWrite t value => Sys2Proof.Machine.execLegacyFmtWrite t value s
  | .statusIrqWrite t value => Sys2Proof.Machine.execStatusIrqWrite t value s
  | .wallclockLoWrite t value => Sys2Proof.Machine.execWallclockLoWrite t value s
  | .wallclockHiWrite t value => Sys2Proof.Machine.execWallclockHiWrite t value s
  | .hostHbWrite t value => Sys2Proof.Machine.execHostHbWrite t value s
  | .logAdvWrite t value => Sys2Proof.Machine.execLogAdvWrite t value s
  | .logWindowReady t => Sys2Proof.Machine.execLogWindowReady t s
  | .logLostClear t value => Sys2Proof.Machine.execLogLostClear t value s
  | .counterLowRead t offset => Sys2Proof.Machine.execCounterLowRead t offset s
  | .dbBadClear t qnum value => Sys2Proof.Machine.execDbBadClear t qnum value s
  | .queueEnable t n value => Sys2Proof.Machine.execQueueEnable t n value s
  | .queueDisable t n value => Sys2Proof.Machine.execQueueDisable t n value s
  | .registerWrite t offset size value => Sys2Proof.Machine.execRegisterWrite t offset size value s
  | .queueFault q => Sys2Proof.Machine.execQueueFault q s
  | .smbStatusClr pecOk data => Sys2Proof.Machine.execSmbStatusClr pecOk data s
  | .smbQuiesce pecOk data => Sys2Proof.Machine.execSmbQuiesce pecOk data s
  | .smbLocate pecOk data => Sys2Proof.Machine.execSmbLocate pecOk data s
  | .smbCapLimit pecOk data => Sys2Proof.Machine.execSmbCapLimit pecOk data s
  | .alertResponse wins => Sys2Proof.Machine.execAlertResponse wins s
  | .smbClockTimeout => Sys2Proof.Machine.execSmbClockTimeout s
  | .pinReadbackSample pin high => Sys2Proof.Machine.execPinReadbackSample pin high s
  | .pinRetry pin high => Sys2Proof.Machine.execPinRetry pin high s
  | .attnStuck => Sys2Proof.Machine.execAttnStuck s
  | .attnFaultRecover => Sys2Proof.Machine.execAttnFaultRecover s
  | .buttonPress => Sys2Proof.Machine.execButtonPress s
  | .buttonShortRelease => Sys2Proof.Machine.execButtonShortRelease s
  | .buttonHold4s => Sys2Proof.Machine.execButtonHold4s s
  | .buttonHold10s => Sys2Proof.Machine.execButtonHold10s s
  | .lidChange isOpen => Sys2Proof.Machine.execLidChange isOpen s
  | .supplyGlitch => Sys2Proof.Machine.execSupplyGlitch s
  | .clockGlitch => Sys2Proof.Machine.execClockGlitch s
  | .pwrcycTimeout => Sys2Proof.Machine.execPwrcycTimeout s
  | .cycleRequest => Sys2Proof.Machine.execCycleRequest s
  | .powerOn found => Sys2Proof.Machine.execPowerOn found s
  | .zonePgoodLoss z => Sys2Proof.Machine.execZonePgoodLoss z s
  | .zonePgoodReturn z => Sys2Proof.Machine.execZonePgoodReturn z s
  | .refClockLoss => Sys2Proof.Machine.execRefClockLoss s
  | .refClockRestore => Sys2Proof.Machine.execRefClockRestore s
  | .zoneTrip z => Sys2Proof.Machine.execZoneTrip z s
  | .hubTrip => Sys2Proof.Machine.execHubTrip s
  | .tripRestart source broken => Sys2Proof.Machine.execTripRestart source broken s
  | .usbConnect => Sys2Proof.Machine.execUsbConnect s
  | .svcSessionEnd why => Sys2Proof.Machine.execSvcSessionEnd why s
  | .consoleAuth response => Sys2Proof.Machine.execConsoleAuth response s
  | .consoleStatus => Sys2Proof.Machine.execConsoleStatus s
  | .consoleLog fromSeq => Sys2Proof.Machine.execConsoleLog fromSeq s
  | .consoleRing tileRing which => Sys2Proof.Machine.execConsoleRing tileRing which s
  | .consoleDump slot => Sys2Proof.Machine.execConsoleDump slot s
  | .consoleAlarmAck mask => Sys2Proof.Machine.execConsoleAlarmAck mask s
  | .consoleAlarmPolicy source action => Sys2Proof.Machine.execConsoleAlarmPolicy source action s
  | .consolePanelPolicy enable => Sys2Proof.Machine.execConsolePanelPolicy enable s
  | .consoleAdminkey blob => Sys2Proof.Machine.execConsoleAdminkey blob s
  | .consoleIdentity certificate => Sys2Proof.Machine.execConsoleIdentity certificate s
  | .consoleSvckey newKey sig => Sys2Proof.Machine.execConsoleSvckey newKey sig s
  | .consoleBoard descriptor => Sys2Proof.Machine.execConsoleBoard descriptor s
  | .pmbusSlot seg alertLow reply => Sys2Proof.Machine.execPmbusSlot seg alertLow reply s
  | .pmbusSegmentRetry seg reply => Sys2Proof.Machine.execPmbusSegmentRetry seg reply s
  | .norFail cause addr => Sys2Proof.Machine.execNorFail cause addr s
  | .norRetry fails => Sys2Proof.Machine.execNorRetry fails s
  | .recordArrival r => Sys2Proof.Machine.execRecordArrival r s
  | .recordCommit verified => Sys2Proof.Machine.execRecordCommit verified s
  | .sectorReclaim => Sys2Proof.Machine.execSectorReclaim s
  | .snapshotTimer => Sys2Proof.Machine.execSnapshotTimer s
  | .operatingTimeTick => Sys2Proof.Machine.execOperatingTimeTick s
  | .meterIntervalEnd => Sys2Proof.Machine.execMeterIntervalEnd s
  | .journalFold bad => Sys2Proof.Machine.execJournalFold bad s
  | .journalEntryWrite bad => Sys2Proof.Machine.execJournalEntryWrite bad s
  | .deferredRecordsResume => Sys2Proof.Machine.execDeferredRecordsResume s
  | .probeSend lane => Sys2Proof.Machine.execProbeSend lane s
  | .probeReceive lane seqNo payload half => Sys2Proof.Machine.execProbeReceive lane seqNo payload half s
  | .echoReceive lane seqNo payload => Sys2Proof.Machine.execEchoReceive lane seqNo payload s
  | .armReceive lane barrier => Sys2Proof.Machine.execArmReceive lane barrier s
  | .releaseReceive lane time => Sys2Proof.Machine.execReleaseReceive lane time s
  | .laneSyncLoss lane => Sys2Proof.Machine.execLaneSyncLoss lane s
  | .laneSyncRegain lane => Sys2Proof.Machine.execLaneSyncRegain lane s
  | .parentLoss p => Sys2Proof.Machine.execParentLoss p s
  | .barrierRelease p edge => Sys2Proof.Machine.execBarrierRelease p edge s
  | .barrierTimeout p => Sys2Proof.Machine.execBarrierTimeout p s
  | .contractionEnd c => Sys2Proof.Machine.execContractionEnd c s
  | .exportAttempt x => Sys2Proof.Machine.execExportAttempt x s
  | .sramOwnWrite tile row addr data full readBefore old => Sys2Proof.Machine.execSramOwnWrite tile row addr data full readBefore old s
  | .meshWriteReceive tile row readBefore => Sys2Proof.Machine.execMeshWriteReceive tile row readBefore s
  | .withheldMarkerReceive tile origin edge header => Sys2Proof.Machine.execWithheldMarkerReceive tile origin edge header s
  | .recallMarkerReceive tile origin edge => Sys2Proof.Machine.execRecallMarkerReceive tile origin edge s
  | .tileSeamReach tile cycle checkpoint openAt => Sys2Proof.Machine.execTileSeamReach tile cycle checkpoint openAt s
  | .fieldSeamArrival f cycles taps => Sys2Proof.Machine.execFieldSeamArrival f cycles taps s
  | .replayGroupStart f => Sys2Proof.Machine.execReplayGroupStart f s
  | .replayVerdict g cycles => Sys2Proof.Machine.execReplayVerdict g cycles s
  | .imageCopyDone f target sent received cycles => Sys2Proof.Machine.execImageCopyDone f target sent received cycles s
  | .spareReplayVerdict g cycles => Sys2Proof.Machine.execSpareReplayVerdict g cycles s
  | .replayAbandoned g => Sys2Proof.Machine.execReplayAbandoned g s
  | .idleVersionDrained f => Sys2Proof.Machine.execIdleVersionDrained f s
  | .fieldRelease f heldCycles => Sys2Proof.Machine.execFieldRelease f heldCycles s
  | .snapshotDone f tile => Sys2Proof.Machine.execSnapshotDone f tile s
  | .spotCheckVerdict f tile cycles => Sys2Proof.Machine.execSpotCheckVerdict f tile cycles s
  | .errorSourceLatch f src rootCount cycle => Sys2Proof.Machine.execErrorSourceLatch f src rootCount cycle s
  | .sourceAcknowledge f => Sys2Proof.Machine.execSourceAcknowledge f s
  | .eccCorrectedNotice tile row bit => Sys2Proof.Machine.execEccCorrectedNotice tile row bit s
  | .eccUncorrectable tile row byteAddr instr => Sys2Proof.Machine.execEccUncorrectable tile row byteAddr instr s
  | .scrubUncorrectable tile row => Sys2Proof.Machine.execScrubUncorrectable tile row s
  | .scrubPassDone t ctx parts => Sys2Proof.Machine.execScrubPassDone t ctx parts s
  | .episodeClose f => Sys2Proof.Machine.execEpisodeClose f s
  | .rateSummary f => Sys2Proof.Machine.execRateSummary f s
  | .stormClose f => Sys2Proof.Machine.execStormClose f s
  | .stormMergeCommit => Sys2Proof.Machine.execStormMergeCommit s
  | .signatureSigned => Sys2Proof.Machine.execSignatureSigned s
  | .droopDetect f lowestMv cycle => Sys2Proof.Machine.execDroopDetect f lowestMv cycle s
  | .seamOverrun f count => Sys2Proof.Machine.execSeamOverrun f count s
  | .deadlock f => Sys2Proof.Machine.execDeadlock f s
  | .barrierWaitLimit f => Sys2Proof.Machine.execBarrierWaitLimit f s
  | .linkResendThreshold tile edge resends => Sys2Proof.Machine.execLinkResendThreshold tile edge resends s
  | .wardenSlotParity f slot => Sys2Proof.Machine.execWardenSlotParity f slot s
  | .wardenHeartbeat f => Sys2Proof.Machine.execWardenHeartbeat f s
  | .wardenHeartbeatMiss f => Sys2Proof.Machine.execWardenHeartbeatMiss f s
  | .wardenRestartDone f => Sys2Proof.Machine.execWardenRestartDone f s
  | .wardenRestartTimeout f => Sys2Proof.Machine.execWardenRestartTimeout f s
  | .hubWatchdogFire => Sys2Proof.Machine.execHubWatchdogFire s
  | .hubRestart => Sys2Proof.Machine.execHubRestart s
  | .watchdogCountClear => Sys2Proof.Machine.execWatchdogCountClear s
  | .hostLoss => Sys2Proof.Machine.execHostLoss s
  | .quiesceComplete => Sys2Proof.Machine.execQuiesceComplete s
  | .resetStart => Sys2Proof.Machine.execResetStart s
  | .resetComplete domain micros => Sys2Proof.Machine.execResetComplete domain micros s
  | .resetEscalate domain => Sys2Proof.Machine.execResetEscalate domain s
  | .staleRecordTimer domain => Sys2Proof.Machine.execStaleRecordTimer domain s
  | .staleMessageDrop domain gen => Sys2Proof.Machine.execStaleMessageDrop domain gen s
  | .dumpWriteDone bad => Sys2Proof.Machine.execDumpWriteDone bad s
  | .estimatePeriod f act => Sys2Proof.Machine.execEstimatePeriod f act s
  | .arbiterReplan => Sys2Proof.Machine.execArbiterReplan s
  | .freqChangeEnd f => Sys2Proof.Machine.execFreqChangeEnd f s
  | .droopLockoutEnd f => Sys2Proof.Machine.execDroopLockoutEnd f s
  | .thermalModelUpdate f => Sys2Proof.Machine.execThermalModelUpdate f s
  | .thermalThrottleReplan => Sys2Proof.Machine.execThermalThrottleReplan s
  | .diodeRotation f => Sys2Proof.Machine.execDiodeRotation f s
  | .diodeReadDone f diode reading others => Sys2Proof.Machine.execDiodeReadDone f diode reading others s
  | .fieldShutdown f => Sys2Proof.Machine.execFieldShutdown f s
  | .shutdownProceed f => Sys2Proof.Machine.execShutdownProceed f s
  | .thermalRestart f => Sys2Proof.Machine.execThermalRestart f s
  | .benchSegmentEnd f slot seg => Sys2Proof.Machine.execBenchSegmentEnd f slot seg s
  | .benchSlotStart f slot => Sys2Proof.Machine.execBenchSlotStart f slot s
  | .benchIdleWindow f => Sys2Proof.Machine.execBenchIdleWindow f s
  | .benchOverdue tile => Sys2Proof.Machine.execBenchOverdue tile s
  | .benchDroopLockoutEnd f => Sys2Proof.Machine.execBenchDroopLockoutEnd f s
  | .digestIntervalBoundary t ctx => Sys2Proof.Machine.execDigestIntervalBoundary t ctx s
  | .exchangeRecordReceive x => Sys2Proof.Machine.execExchangeRecordReceive x s
  | .comparisonClose t ctx => Sys2Proof.Machine.execComparisonClose t ctx s
  | .reverifyDone t group fresh => Sys2Proof.Machine.execReverifyDone t group fresh s
  | .computeCmdBoundary f c => Sys2Proof.Machine.execComputeCmdBoundary f c s
  | .stageComplete found => Sys2Proof.Machine.execStageComplete found s
  | .stageTimeout => Sys2Proof.Machine.execStageTimeout s
  | .waveStart => Sys2Proof.Machine.execWaveStart s
  | .wardenStartFail f => Sys2Proof.Machine.execWardenStartFail f s
  | .hubHeartbeatToggle => Sys2Proof.Machine.execHubHeartbeatToggle s
  | .hubFeedLoss => Sys2Proof.Machine.execHubFeedLoss s
  | .buttonLongRelease => Sys2Proof.Machine.execButtonLongRelease s
  | .laneFrameCrcDiscard lane chars => Sys2Proof.Machine.execLaneFrameCrcDiscard lane chars s
  | .heldActionBlinkEnd => Sys2Proof.Machine.execHeldActionBlinkEnd s

end Sys2Proof.Machine
end

