-- ==== Sys2Proof/Safety.lean ====
section
/-! DEFINITION. The words in which claims about the block are stated: what a safe run is (every step answers a next state, never a fault or
a refusal), which parts of the state a command leaves alone, and the invariants that every step keeps. -/

namespace Sys2Proof

/-- The outcome is a next state. -/
def isNext (r : Host.Outcome Machine.State Machine.Fault Machine.Refusal) : Bool :=
  match r with
  | .next _ => true
  | .fault _ => false
  | .refused _ => false

/-- Every one of the next `n` steps answers a next state. -/
def safeFor : Nat → Machine.State → Prop
  | 0, _ => True
  | n + 1, s => ∃ t, Machine.step s = .next t ∧ safeFor n t

/-- A state whose waiting commands all run to a next state. -/
def Safe (s : Machine.State) : Prop := safeFor s.pending.length s

end Sys2Proof

namespace Sys2Proof.Machine

/-! ### Parts of the state -/

/-- A choice of parts of State. -/
structure Mask where
  pending : Bool := false
  free : Bool := false
  feed : Bool := false
  now : Bool := false
  mfg : Bool := false
  fe : Bool := false
  regs : Bool := false
  tray : Bool := false
  panel : Bool := false
  nor : Bool := false
  cab : Bool := false
  drawer : Bool := false
  arm : Bool := false
  svc : Bool := false
  hutch : Bool := false
  parts : Bool := false
  fields : Bool := false
  guards : Bool := false
  tiles : Bool := false
  groups : Bool := false
  side : Bool := false
  lanes : Bool := false
  hang : Bool := false
  arb : Bool := false
  boot : Bool := false
  sched : Bool := false
  sig : Bool := false
  storms : Bool := false
  out : Bool := false
  status : Bool := false
  capCeil : Bool := false
  arrivals : Bool := false
  aCounter : Bool := false
  gens : Bool := false
  cap : Bool := false
deriving DecidableEq, Repr

/-- The tray interface with the chosen parts blanked: STATUS, the ceiling of CAP_LIMIT, the rest. -/
def eraseTray (κ : Mask) (x : Tray) : Tray :=
  let y : Tray := if κ.tray then {} else x
  { y with
    status := if κ.status then 0 else x.status
    capCeil := if κ.capCeil then 0 else x.capCeil }

/-- The Cabinet with the chosen parts blanked: the commit queue and what records arrive into, the A+ counter, the rest. -/
def eraseCab (κ : Mask) (x : Cabinet) : Cabinet :=
  let y : Cabinet := if κ.cab then {} else x
  let z : Cabinet := if κ.arrivals then {} else x
  { y with
    nextSeq := z.nextSeq
    queue := z.queue
    dropped := z.dropped
    droppedFirst := z.droppedFirst
    deferred := z.deferred
    aCounter := if κ.aCounter then 0 else x.aCounter }

/-- Hang detection and resets with the chosen parts blanked: the generation counters, the rest. -/
def eraseHang (κ : Mask) (x : Hang) : Hang :=
  let y : Hang := if κ.hang then {} else x
  { y with gens := if κ.gens then [] else x.gens }

/-- The arbiter with the chosen parts blanked: the cap of POWER_CAP, the rest. -/
def eraseArb (κ : Mask) (x : Arbiter) : Arbiter :=
  let y : Arbiter := if κ.arb then {} else x
  { y with cap := if κ.cap then 0 else x.cap }

/-- The state with the chosen parts blanked: two states that agree outside the chosen parts blank to the same. -/
def erase (κ : Mask) (s : State) : State where
  pending := if κ.pending then State.reset.pending else s.pending
  free := if κ.free then State.reset.free else s.free
  feed := if κ.feed then State.reset.feed else s.feed
  now := if κ.now then State.reset.now else s.now
  mfg := if κ.mfg then State.reset.mfg else s.mfg
  fe := if κ.fe then State.reset.fe else s.fe
  regs := if κ.regs then State.reset.regs else s.regs
  tray := eraseTray κ s.tray
  panel := if κ.panel then State.reset.panel else s.panel
  nor := if κ.nor then State.reset.nor else s.nor
  cab := eraseCab κ s.cab
  drawer := if κ.drawer then State.reset.drawer else s.drawer
  arm := if κ.arm then State.reset.arm else s.arm
  svc := if κ.svc then State.reset.svc else s.svc
  hutch := if κ.hutch then State.reset.hutch else s.hutch
  parts := if κ.parts then State.reset.parts else s.parts
  fields := if κ.fields then State.reset.fields else s.fields
  guards := if κ.guards then State.reset.guards else s.guards
  tiles := if κ.tiles then State.reset.tiles else s.tiles
  groups := if κ.groups then State.reset.groups else s.groups
  side := if κ.side then State.reset.side else s.side
  lanes := if κ.lanes then State.reset.lanes else s.lanes
  hang := eraseHang κ s.hang
  arb := eraseArb κ s.arb
  boot := if κ.boot then State.reset.boot else s.boot
  sched := if κ.sched then State.reset.sched else s.sched
  sig := if κ.sig then State.reset.sig else s.sig
  storms := if κ.storms then State.reset.storms else s.storms
  out := if κ.out then State.reset.out else s.out

/-! ### Invariants -/

/-- R327, R329: the commit queue fits its 64 KiB; its records stand in the order of their sequence numbers, each below the next
number to be given. -/
def QueueOk (s : State) : Prop :=
  queueBytes s ≤ queueCap ∧ (s.cab.queue.map (·.seqNo)).Pairwise (· < ·) ∧ ∀ r ∈ s.cab.queue, r.seqNo < s.cab.nextSeq

/-- R359, R47: the wafer cap is 0 (none) or between 6 kW and 36 kW in units of 10 W; the tray ceiling is 0 or between 6 kW and
36 kW in units of 100 W. -/
def LegalCaps (s : State) : Prop :=
  (s.arb.cap = 0 ∨ (600 ≤ s.arb.cap ∧ s.arb.cap ≤ 3600)) ∧
  (s.tray.capCeil = 0 ∨ (60 ≤ s.tray.capCeil ∧ s.tray.capCeil ≤ 360))

end Sys2Proof.Machine
end

