-- ==== Sys2Proof/Laws/Commit.lean ====
section
/-! SUPPORT. The commit queue: no operation lets it outgrow its 64 KiB or break the order of its sequence numbers. One lemma per
operation. -/

set_option linter.unusedTactic false
set_option linter.unreachableTactic false
set_option linter.unusedSimpArgs false

namespace Sys2Proof.Machine

theorem queueOk_of_eq (s t : State) (h : QueueOk s) (hq : t.cab.queue = s.cab.queue) (hn : s.cab.nextSeq ≤ t.cab.nextSeq) :
    QueueOk t := by
  refine ⟨?_, ?_, ?_⟩
  · have := h.1; simpa [queueBytes, hq] using this
  · rw [hq]; exact h.2.1
  · rw [hq]; intro r hr; exact Nat.lt_of_lt_of_le (h.2.2 r hr) hn

theorem queueOk_empty (t : State) (hq : t.cab.queue = []) : QueueOk t := by
  refine ⟨?_, ?_, ?_⟩ <;> simp [queueBytes, hq]

@[simp] theorem queueOk_ite (c : Prop) [Decidable c] (a b : State) (ha : QueueOk a) (hb : QueueOk b) :
    QueueOk (if c then a else b) := by
  split <;> assumption

@[simp] theorem queueOk_foldl {α : Type} (f : State → α → State) (h : ∀ s x, QueueOk s → QueueOk (f s x)) (l : List α) (s : State)
    (hs : QueueOk s) : QueueOk (l.foldl f s) := by
  induction l generalizing s with
  | nil => exact hs
  | cons a l ih => exact ih _ (h _ _ hs)

theorem queueOk_foldl_fst {α β : Type} (f : State × β → α → State × β) (h : ∀ a x, QueueOk a.1 → QueueOk (f a x).1)
    (l : List α) (a : State × β) (hs : QueueOk a.1) : QueueOk (l.foldl f a).1 := by
  induction l generalizing a with
  | nil => exact hs
  | cons x l ih => exact ih _ (h _ _ hs)

@[simp] theorem queueOk_lit (X : State) (free : Nat) (feed : Bool) (now : Nat) (fe : FrontEnd) (regs : Regs) (tray : Tray) (panel : Panel) (nor : Nor) (cab : Cabinet) (drawer : Drawer) (arm : Armoire) (svc : Service) (hutch : HutchLive) (parts : Table Part) (fields : Table Field) (guards : Table Guard) (tiles : Table TileBanks) (groups : List Group) (side : Sideboard) (lanes : Table Lane) (hang : Hang) (arb : Arbiter) (boot : Boot) (sched : BenchSched) (sig : Signer) (storms : List (Nat × Storm)) (out : List Out)
    (h : QueueOk X) (hq : cab.queue = X.cab.queue) (hn : cab.nextSeq = X.cab.nextSeq) :
    QueueOk ⟨X.pending, free, feed, now, X.mfg, fe, regs, tray, panel, nor, cab, drawer, arm, svc, hutch, parts, fields, guards, tiles, groups, side, lanes, hang, arb, boot, sched, sig, storms, out⟩ := queueOk_of_eq X _ h hq (Nat.le_of_eq hn.symm)

@[simp] theorem queueOk_setField (s : State) (f : Nat) (x : Field) (hs : QueueOk s) :
    QueueOk (setField s f x) := by
  unfold setField
  simp +contextual (maxDischargeDepth := 200) [*]

@[simp] theorem queueOk_modField (s : State) (f : Nat) (g : Field → Field) (hs : QueueOk s) :
    QueueOk (modField s f g) := by
  unfold modField
  simp +contextual (maxDischargeDepth := 200) [*]

@[simp] theorem queueOk_modFields (s : State) (fs : List Nat) (g : Field → Field) (hs : QueueOk s) :
    QueueOk (modFields s fs g) := by
  unfold modFields
  simp +contextual (maxDischargeDepth := 200) [*]

@[simp] theorem queueOk_setPart (s : State) (p : Nat) (x : Part) (hs : QueueOk s) :
    QueueOk (setPart s p x) := by
  unfold setPart
  simp +contextual (maxDischargeDepth := 200) [*]

@[simp] theorem queueOk_modPart (s : State) (p : Nat) (g : Part → Part) (hs : QueueOk s) :
    QueueOk (modPart s p g) := by
  unfold modPart
  repeat' (first | (simp +contextual (maxDischargeDepth := 200) [*]; done) | split | (apply queueOk_foldl) | (intro _ _ _))

@[simp] theorem queueOk_setGuard (s : State) (t : Nat) (x : Guard) (hs : QueueOk s) :
    QueueOk (setGuard s t x) := by
  unfold setGuard
  simp +contextual (maxDischargeDepth := 200) [*]

@[simp] theorem queueOk_modGuard (s : State) (t : Nat) (g : Guard → Guard) (hs : QueueOk s) :
    QueueOk (modGuard s t g) := by
  unfold modGuard
  simp +contextual (maxDischargeDepth := 200) [*]

@[simp] theorem queueOk_modLive (s : State) (t : Nat) (g : TileCount → TileCount) (hs : QueueOk s) :
    QueueOk (modLive s t g) := by
  unfold modLive
  simp +contextual (maxDischargeDepth := 200) [*]

@[simp] theorem queueOk_setSlot (s : State) (q : Nat) (x : QSlot) (hs : QueueOk s) :
    QueueOk (setSlot s q x) := by
  unfold setSlot
  simp +contextual (maxDischargeDepth := 200) [*]

@[simp] theorem queueOk_modSlot (s : State) (q : Nat) (g : QSlot → QSlot) (hs : QueueOk s) :
    QueueOk (modSlot s q g) := by
  unfold modSlot
  simp +contextual (maxDischargeDepth := 200) [*]

@[simp] theorem queueOk_modLane (s : State) (l : Nat) (g : Lane → Lane) (hs : QueueOk s) :
    QueueOk (modLane s l g) := by
  unfold modLane
  simp +contextual (maxDischargeDepth := 200) [*]

@[simp] theorem queueOk_modCursor (s : State) (t : Nat) (g : Cursor → Cursor) (hs : QueueOk s) :
    QueueOk (modCursor s t g) := by
  unfold modCursor
  simp +contextual (maxDischargeDepth := 200) [*]

@[simp] theorem queueOk_setPin (s : State) (p : PinId) (x : Pin) (hs : QueueOk s) :
    QueueOk (setPin s p x) := by
  unfold setPin
  simp +contextual (maxDischargeDepth := 200) [*]

@[simp] theorem queueOk_drive (s : State) (o : Out) (hs : QueueOk s) :
    QueueOk (drive s o) := by
  unfold drive
  simp +contextual (maxDischargeDepth := 200) [*]

@[simp] theorem queueOk_advFree (s : State) (hs : QueueOk s) :
    QueueOk (advFree s) := by
  unfold advFree
  simp +contextual (maxDischargeDepth := 200) [*]

@[simp] theorem queueOk_countField (s : State) (f : Nat) (g : FieldCount → FieldCount) (hs : QueueOk s) :
    QueueOk (countField s f g) := by
  unfold countField
  simp +contextual (maxDischargeDepth := 200) [*]

@[simp] theorem queueOk_countTile (s : State) (log : Nat) (g : TileCount → TileCount) (hs : QueueOk s) :
    QueueOk (countTile s log g) := by
  unfold countTile
  simp +contextual (maxDischargeDepth := 200) [*]

@[simp] theorem queueOk_bumpGen (s : State) (d : Nat) (hs : QueueOk s) :
    QueueOk (bumpGen s d) := by
  unfold bumpGen
  simp +contextual (maxDischargeDepth := 200) [*]

@[simp] theorem queueOk_bumpGens (s : State) (ds : List Nat) (hs : QueueOk s) :
    QueueOk (bumpGens s ds) := by
  unfold bumpGens
  simp +contextual (maxDischargeDepth := 200) [*]

@[simp] theorem queueOk_raiseStatus (s : State) (mask : BitVec 16) (hs : QueueOk s) :
    QueueOk (raiseStatus s mask) := by
  unfold raiseStatus
  simp +contextual (maxDischargeDepth := 200) [*]

@[simp] theorem queueOk_clearStatus (s : State) (mask : BitVec 16) (hs : QueueOk s) :
    QueueOk (clearStatus s mask) := by
  unfold clearStatus
  simp +contextual (maxDischargeDepth := 200) [*]

@[simp] theorem queueOk_raiseBit (s : State) (b : Nat) (hs : QueueOk s) :
    QueueOk (raiseBit s b) := by
  unfold raiseBit
  simp +contextual (maxDischargeDepth := 200) [*]

@[simp] theorem queueOk_clearBit (s : State) (b : Nat) (hs : QueueOk s) :
    QueueOk (clearBit s b) := by
  unfold clearBit
  simp +contextual (maxDischargeDepth := 200) [*]

@[simp] theorem queueOk_setBitTo (s : State) (b : Nat) (v : Bool) (hs : QueueOk s) :
    QueueOk (setBitTo s b v) := by
  unfold setBitTo
  simp +contextual (maxDischargeDepth := 200) [*]

theorem arrive_fits (s : State) (r : Rec) (h : queueBytes s + recBytes r ≤ queueCap) :
    arrive s r = { s with cab := { s.cab with
      queue := s.cab.queue ++ [{ r with seqNo := s.cab.nextSeq }]
      nextSeq := s.cab.nextSeq + 1 } } := by
  simp [arrive, h]

@[simp] theorem queueOk_arrive (s : State) (r : Rec) (hs : QueueOk s) : QueueOk (arrive s r) := by
  by_cases h : queueBytes s + recBytes r ≤ queueCap
  · rw [arrive_fits s r h]
    refine ⟨?_, ?_, ?_⟩
    · simpa [queueBytes, recBytes] using h
    · simp only [List.map_append, List.map_cons, List.map_nil, List.pairwise_append]
      refine ⟨hs.2.1, by simp, ?_⟩
      simp only [List.mem_map, List.mem_singleton]
      rintro a ⟨x, hx, rfl⟩ b rfl
      exact hs.2.2 x hx
    · simp only [List.mem_append, List.mem_singleton]
      rintro x (hx | rfl)
      · exact Nat.lt_succ_of_lt (hs.2.2 x hx)
      · exact Nat.lt_succ_self _
  · exact queueOk_of_eq s _ hs (by simp [arrive, h]) (by simp [arrive, h])

@[simp] theorem queueOk_emitBody (s : State) (typ tenant : Nat) (part : Option Nat) (b : Body) (hs : QueueOk s) :
    QueueOk (emitBody s typ tenant part b) := by
  by_cases h : (evDeferrable typ && decide (12288 < queueBytes s)) = true
  · exact queueOk_of_eq s _ hs (by simp [emitBody, h]) (by simp [emitBody, h])
  · have g := queueOk_arrive s ⟨0, typ, tenant, part, false, b, 0, 0, false, 0⟩ hs
    exact queueOk_of_eq _ _ g (by simp [emitBody, h]) (by simp [emitBody, h])

@[simp] theorem queueOk_emit (s : State) (typ : Nat) (content : List Nat) (hs : QueueOk s) :
    QueueOk (emit s typ content) := by
  unfold emit
  simp +contextual (maxDischargeDepth := 200) [*]

@[simp] theorem queueOk_emitPart (s : State) (typ : Nat) (part : Option Nat) (content : List Nat) (hs : QueueOk s) :
    QueueOk (emitPart s typ part content) := by
  unfold emitPart
  simp +contextual (maxDischargeDepth := 200) [*]

@[simp] theorem queueOk_emitWords (s : State) (typ : Nat) (part : Option Nat) (ws : List Word) (hs : QueueOk s) :
    QueueOk (emitWords s typ part ws) := by
  unfold emitWords
  simp +contextual (maxDischargeDepth := 200) [*]

@[simp] theorem queueOk_modImg (s : State) (g : HutchImage → HutchImage) (hs : QueueOk s) :
    QueueOk (modImg s g) := by
  unfold modImg
  simp +contextual (maxDischargeDepth := 200) [*]

@[simp] theorem queueOk_modTileRec (s : State) (phys : Nat) (g : TileRec → TileRec) (hs : QueueOk s) :
    QueueOk (modTileRec s phys g) := by
  unfold modTileRec
  simp +contextual (maxDischargeDepth := 200) [*]

@[simp] theorem queueOk_modCmd (s : State) (q e : Nat) (g : Cmd → Cmd) (hs : QueueOk s) :
    QueueOk (modCmd s q e g) := by
  unfold modCmd
  simp +contextual (maxDischargeDepth := 200) [*]

@[simp] theorem queueOk_writeCompletion (s : State) (q e tag dom st handle : Nat) (notify notif : Bool) (res : List Word) (hs : QueueOk s) :
    QueueOk (writeCompletion s q e tag dom st handle notify notif res) := by
  unfold writeCompletion
  simp +contextual (maxDischargeDepth := 200) [*]

@[simp] theorem queueOk_dropCmd (s : State) (q e : Nat) (hs : QueueOk s) :
    QueueOk (dropCmd s q e) := by
  unfold dropCmd
  simp +contextual (maxDischargeDepth := 200) [*]

@[simp] theorem queueOk_completeWith (s : State) (c : Cmd) (st handle : Nat) (res : List Word) (hs : QueueOk s) :
    QueueOk (completeWith s c st handle res) := by
  unfold completeWith
  simp +contextual (maxDischargeDepth := 200) [*]

@[simp] theorem queueOk_complete (s : State) (c : Cmd) (st : Nat) (res : List Word) (hs : QueueOk s) :
    QueueOk (complete s c st res) := by
  unfold complete
  simp +contextual (maxDischargeDepth := 200) [*]

@[simp] theorem queueOk_applyAt (s : State) (c : Cmd) (waits : List Nat) (st : Nat) (res : List Word) (hs : QueueOk s) :
    QueueOk (applyAt s c waits st res) := by
  unfold applyAt
  simp +contextual (maxDischargeDepth := 200) [*]

@[simp] theorem queueOk_fieldApplied (s : State) (f : Nat) (hs : QueueOk s) :
    QueueOk (fieldApplied s f) := by
  unfold fieldApplied
  simp +contextual (maxDischargeDepth := 200) [*]

@[simp] theorem queueOk_retirementsApplied (s : State) (f : Nat) (hs : QueueOk s) :
    QueueOk (retirementsApplied s f) := by
  unfold retirementsApplied
  simp +contextual (maxDischargeDepth := 200) [*]

@[simp] theorem queueOk_background (s : State) (c : Cmd) (hs : QueueOk s) :
    QueueOk (background s c) := by
  unfold background
  simp +contextual (maxDischargeDepth := 200) [*]

@[simp] theorem queueOk_accept (s : State) (c : Cmd) (args : List Nat) (hs : QueueOk s) :
    QueueOk (accept s c args) := by
  unfold accept
  simp +contextual (maxDischargeDepth := 200) [*]

@[simp] theorem queueOk_finishOp (s : State) (h st : Nat) (res : List Word) (hs : QueueOk s) :
    QueueOk (finishOp s h st res) := by
  unfold finishOp
  simp +contextual (maxDischargeDepth := 200) [*]

@[simp] theorem queueOk_completeBulk (s : State) (c : Cmd) (st : Nat) (res : List Word) (bulk : List Word) (hs : QueueOk s) :
    QueueOk (completeBulk s c st res bulk) := by
  unfold completeBulk
  simp +contextual (maxDischargeDepth := 200) [*]

@[simp] theorem queueOk_requestReset (s : State) (level dom cause : Nat) (escalated : Bool) (cmd : Option (Nat × Nat)) (hs : QueueOk s) :
    QueueOk (requestReset s level dom cause escalated cmd) := by
  unfold requestReset
  simp +contextual (maxDischargeDepth := 200) [*]

@[simp] theorem queueOk_autoReset (s : State) (level dom cause : Nat) (hs : QueueOk s) :
    QueueOk (autoReset s level dom cause) := by
  unfold autoReset
  simp +contextual (maxDischargeDepth := 200) [*]

@[simp] theorem queueOk_startQuiesce (s : State) (hs : QueueOk s) :
    QueueOk (startQuiesce s) := by
  unfold startQuiesce
  simp +contextual (maxDischargeDepth := 200) [*]

@[simp] theorem queueOk_wantCycle (s : State) (reason : Nat) (hs : QueueOk s) :
    QueueOk (wantCycle s reason) := by
  unfold wantCycle
  simp +contextual (maxDischargeDepth := 200) [*]

@[simp] theorem queueOk_writeSnapshot (s : State) (hs : QueueOk s) :
    QueueOk (writeSnapshot s) := by
  unfold writeSnapshot
  simp +contextual (maxDischargeDepth := 200) [*]

@[simp] theorem queueOk_raiseAlarm (s : State) (src : Nat) (hs : QueueOk s) :
    QueueOk (raiseAlarm s src) := by
  unfold raiseAlarm
  simp +contextual (maxDischargeDepth := 200) [*]

@[simp] theorem queueOk_ackAlarm (s : State) (mask : Nat) (hs : QueueOk s) :
    QueueOk (ackAlarm s mask) := by
  unfold ackAlarm
  simp +contextual (maxDischargeDepth := 200) [*]

@[simp] theorem queueOk_authFailed (s : State) (hs : QueueOk s) :
    QueueOk (authFailed s) := by
  unfold authFailed
  simp +contextual (maxDischargeDepth := 200) [*]

@[simp] theorem queueOk_cursorsPast (s : State) (gone : List Rec) (hs : QueueOk s) :
    QueueOk (cursorsPast s gone) := by
  unfold cursorsPast
  simp +contextual (maxDischargeDepth := 200) [*]

@[simp] theorem queueOk_advanceCursor (s : State) (t : Nat) (hs : QueueOk s) :
    QueueOk (advanceCursor s t) := by
  unfold advanceCursor
  simp +contextual (maxDischargeDepth := 200) [*]

@[simp] theorem queueOk_emitQuarantine (s : State) (kind reason field source tile idx left : Nat) (hs : QueueOk s) :
    QueueOk (emitQuarantine s kind reason field source tile idx left) := by
  unfold emitQuarantine
  simp +contextual (maxDischargeDepth := 200) [*]

@[simp] theorem queueOk_emitRelease (s : State) (kind reason field tile idx left : Nat) (hs : QueueOk s) :
    QueueOk (emitRelease s kind reason field tile idx left) := by
  unfold emitRelease
  simp +contextual (maxDischargeDepth := 200) [*]

@[simp] theorem queueOk_declareNorFailed (s : State) (cause addr : Nat) (hs : QueueOk s) :
    QueueOk (declareNorFailed s cause addr) := by
  unfold declareNorFailed
  split
  · exact hs
  · exact queueOk_raiseBit _ _ (queueOk_of_eq s _ hs rfl (Nat.le_succ _))

@[simp] theorem queueOk_retireUnit (s : State) (u source : Nat) (hs : QueueOk s) :
    QueueOk (retireUnit s u source) := by
  unfold retireUnit
  dsimp only
  repeat' (first | (simp +contextual (maxDischargeDepth := 200) [*]; done) | split | (apply queueOk_foldl) | (intro _ _ _) | simp +contextual (maxDischargeDepth := 200) [*])

@[simp] theorem queueOk_eraseUnits (s : State) (us : List Nat) (hs : QueueOk s) :
    QueueOk (eraseUnits s us) := by
  unfold eraseUnits
  simp +contextual (maxDischargeDepth := 200) [*]

@[simp] theorem queueOk_reportUnit (s : State) (bad : Option Nat) (hs : QueueOk s) :
    QueueOk (reportUnit s bad) := by
  unfold reportUnit
  repeat' (first | (simp +contextual (maxDischargeDepth := 200) [*]; done) | split | (apply queueOk_foldl) | (intro _ _ _))

@[simp] theorem queueOk_eraseRingSector (s : State) (k : Nat) (hs : QueueOk s) :
    QueueOk (eraseRingSector s k) := by
  unfold eraseRingSector
  simp +contextual (maxDischargeDepth := 200) [*]

@[simp] theorem queueOk_clearAhead (s : State) (k : Nat) (hs : QueueOk s) :
    QueueOk (clearAhead s k) := by
  unfold clearAhead
  simp +contextual (maxDischargeDepth := 200) [*]

@[simp] theorem queueOk_moveSector (s : State) (hs : QueueOk s) :
    QueueOk (moveSector s) := by
  unfold moveSector
  simp +contextual (maxDischargeDepth := 200) [*]

@[simp] theorem queueOk_ringAppend (s : State) (r : Rec) (hs : QueueOk s) :
    QueueOk (ringAppend s r) := by
  unfold ringAppend
  simp +contextual (maxDischargeDepth := 200) [*]

@[simp] theorem queueOk_storeAppend (s : State) (r : Rec) (hs : QueueOk s) :
    QueueOk (storeAppend s r) := by
  unfold storeAppend
  simp +contextual (maxDischargeDepth := 200) [*]

@[simp] theorem queueOk_noteDropped (s : State) (hs : QueueOk s) :
    QueueOk (noteDropped s) := by
  unfold noteDropped
  simp +contextual (maxDischargeDepth := 200) [*]

@[simp] theorem queueOk_commitFront (s : State) (hs : QueueOk s) :
    QueueOk (commitFront s) := by
  unfold commitFront
  split
  · exact hs
  · rename_i r rest hq
    have h : QueueOk { s with cab := { s.cab with queue := rest } } := by
      obtain ⟨h1, h2, h3⟩ := hs
      refine ⟨?_, ?_, ?_⟩
      · simp only [queueBytes, hq, List.map_cons, List.sum_cons] at h1 ⊢
        omega
      · rw [hq] at h2
        exact (List.pairwise_cons.mp h2).2
      · intro x hx
        exact h3 x (by rw [hq]; exact List.mem_cons_of_mem _ hx)
    exact queueOk_noteDropped _ (queueOk_ite _ _ _ (queueOk_storeAppend _ _ h) (queueOk_ringAppend _ _ h))

@[simp] theorem queueOk_commitAll (s : State) (hs : QueueOk s) :
    QueueOk (commitAll s) := by
  unfold commitAll
  simp +contextual (maxDischargeDepth := 200) [*]

@[simp] theorem queueOk_afterLoss (s : State) : QueueOk (afterLoss s) := queueOk_empty _ rfl

@[simp] theorem queueOk_loseFeed (s : State) (hs : QueueOk s) :
    QueueOk (loseFeed s) := by
  unfold loseFeed
  repeat' (first | (simp +contextual (maxDischargeDepth := 200) [*]; done) | split | (apply queueOk_foldl) | (intro _ _ _))

@[simp] theorem queueOk_emitDump (s : State) (outcome slot tenant size replaced : Nat) (hs : QueueOk s) :
    QueueOk (emitDump s outcome slot tenant size replaced) := by
  unfold emitDump
  simp +contextual (maxDischargeDepth := 200) [*]

@[simp] theorem queueOk_writeStaged (s : State) (bad : Option Nat) (hs : QueueOk s) :
    QueueOk (writeStaged s bad) := by
  unfold writeStaged
  repeat' (first | (simp +contextual (maxDischargeDepth := 200) [*]; done) | split | (apply queueOk_foldl) | (intro _ _ _))

@[simp] theorem queueOk_syncMap (s : State) (f : Nat) (hs : QueueOk s) :
    QueueOk (syncMap s f) := by
  unfold syncMap
  simp +contextual (maxDischargeDepth := 200) [*]

@[simp] theorem queueOk_modMap (s : State) (f : Nat) (g : FieldMap → FieldMap) (hs : QueueOk s) :
    QueueOk (modMap s f g) := by
  unfold modMap
  simp +contextual (maxDischargeDepth := 200) [*]

@[simp] theorem queueOk_settleLevel (s : State) (f : Nat) (fresh : Bool) (hs : QueueOk s) :
    QueueOk (settleLevel s f fresh) := by
  unfold settleLevel
  simp +contextual (maxDischargeDepth := 200) [*]

@[simp] theorem queueOk_emitRemap (s : State) (f source : Nat) (epoch : Bool) (pos old new : Nat) (hs : QueueOk s) :
    QueueOk (emitRemap s f source epoch pos old new) := by
  unfold emitRemap
  simp +contextual (maxDischargeDepth := 200) [*]

@[simp] theorem queueOk_emitConflict (s : State) (f source : Nat) (gen : BitVec 6) (pos kept rejected : Nat) (hs : QueueOk s) :
    QueueOk (emitConflict s f source gen pos kept rejected) := by
  unfold emitConflict
  simp +contextual (maxDischargeDepth := 200) [*]

@[simp] theorem queueOk_fallVacant (s : State) (f pos old : Nat) (hs : QueueOk s) :
    QueueOk (fallVacant s f pos old) := by
  unfold fallVacant
  dsimp only
  repeat' (first | (simp +contextual (maxDischargeDepth := 200) [*]; done) | split | (apply queueOk_foldl) | (intro _ _ _) | simp +contextual (maxDischargeDepth := 200) [*])

@[simp] theorem queueOk_restartPasses (s : State) (f pos : Nat) (hs : QueueOk s) :
    QueueOk (restartPasses s f pos) := by
  unfold restartPasses
  simp +contextual (maxDischargeDepth := 200) [*]

@[simp] theorem queueOk_takePlace (s : State) (f pos p : Nat) (hs : QueueOk s) :
    QueueOk (takePlace s f pos p) := by
  unfold takePlace
  simp +contextual (maxDischargeDepth := 200) [*]

@[simp] theorem queueOk_queueTest (s : State) (f p trigger corner : Nat) (hs : QueueOk s) :
    QueueOk (queueTest s f p trigger corner) := by
  unfold queueTest
  simp +contextual (maxDischargeDepth := 200) [*]

@[simp] theorem queueOk_markQuarantined (s : State) (f p reason source : Nat) (hs : QueueOk s) :
    QueueOk (markQuarantined s f p reason source) := by
  unfold markQuarantined
  simp +contextual (maxDischargeDepth := 200) [*]

@[simp] theorem queueOk_replaceAtSeam (s : State) (f p reason source : Nat) (hs : QueueOk s) :
    QueueOk (replaceAtSeam s f p reason source) := by
  unfold replaceAtSeam
  dsimp only
  repeat' (first | (simp +contextual (maxDischargeDepth := 200) [*]; done) | split | (apply queueOk_foldl) | (intro _ _ _) | simp +contextual (maxDischargeDepth := 200) [*])

@[simp] theorem queueOk_quarantineWorn (s : State) (f p reason source : Nat) (hs : QueueOk s) :
    QueueOk (quarantineWorn s f p reason source) := by
  unfold quarantineWorn
  simp +contextual (maxDischargeDepth := 200) [*]

@[simp] theorem queueOk_markSuspect (s : State) (f p : Nat) (hs : QueueOk s) :
    QueueOk (markSuspect s f p) := by
  unfold markSuspect
  simp +contextual (maxDischargeDepth := 200) [*]

@[simp] theorem queueOk_suspectAndTest (s : State) (f p trigger : Nat) (hs : QueueOk s) :
    QueueOk (suspectAndTest s f p trigger) := by
  unfold suspectAndTest
  simp +contextual (maxDischargeDepth := 200) [*]

@[simp] theorem queueOk_installLayout (s : State) (f : Nat) (m : FieldMap) (red : Bool) (hs : QueueOk s) :
    QueueOk (installLayout s f m red) := by
  unfold installLayout
  simp +contextual (maxDischargeDepth := 200) [*]

@[simp] theorem queueOk_layOut (s : State) (f opmode : Nat) (hs : QueueOk s) :
    QueueOk (layOut s f opmode) := by
  unfold layOut
  simp +contextual (maxDischargeDepth := 200) [*]

@[simp] theorem queueOk_rewriteTables (s : State) (f : Nat) (hs : QueueOk s) :
    QueueOk (rewriteTables s f) := by
  unfold rewriteTables
  refine queueOk_settleLevel _ _ _ (queueOk_syncMap _ _ (queueOk_foldl _ (fun s p h => ?_) _ _ (queueOk_modField _ _ _ hs)))
  split
  · exact h
  · split
    · exact queueOk_emitRemap _ _ _ _ _ _ _ (queueOk_takePlace _ _ _ _ h)
    · exact queueOk_fallVacant _ _ _ _ h

@[simp] theorem queueOk_emitStage (s : State) (stage : Nat) (failed : Bool) (wave cause ms : Nat) (done excl : List Nat) (content : List Word) (hs : QueueOk s) :
    QueueOk (emitStage s stage failed wave cause ms done excl content) := by
  unfold emitStage
  simp +contextual (maxDischargeDepth := 200) [*]

@[simp] theorem queueOk_repeatStage (s : State) (hs : QueueOk s) :
    QueueOk (repeatStage s) := by
  unfold repeatStage
  simp +contextual (maxDischargeDepth := 200) [*]

@[simp] theorem queueOk_setReducedBit (s : State) (hs : QueueOk s) :
    QueueOk (setReducedBit s) := by
  unfold setReducedBit
  simp +contextual (maxDischargeDepth := 200) [*]

@[simp] theorem queueOk_excludeField (s : State) (f stage cause : Nat) (hs : QueueOk s) :
    QueueOk (excludeField s f stage cause) := by
  unfold excludeField
  simp +contextual (maxDischargeDepth := 200) [*]

@[simp] theorem queueOk_excludeFields (s : State) (fs : List Nat) (stage cause : Nat) (hs : QueueOk s) :
    QueueOk (excludeFields s fs stage cause) := by
  unfold excludeFields
  simp +contextual (maxDischargeDepth := 200) [*]

@[simp] theorem queueOk_settleBoot (s : State) (hs : QueueOk s) :
    QueueOk (settleBoot s) := by
  unfold settleBoot
  simp +contextual (maxDischargeDepth := 200) [*]

@[simp] theorem queueOk_discardExports (s : State) (fs : List Nat) (hs : QueueOk s) :
    QueueOk (discardExports s fs) := by
  unfold discardExports
  simp +contextual (maxDischargeDepth := 200) [*]

@[simp] theorem queueOk_holdPartition (s : State) (f : Nat) (hs : QueueOk s) :
    QueueOk (holdPartition s f) := by
  unfold holdPartition
  repeat' (first | (simp +contextual (maxDischargeDepth := 200) [*]; done) | split | (apply queueOk_foldl) | (intro _ _ _))

@[simp] theorem queueOk_resetForLoss (s : State) (f cause : Nat) (hs : QueueOk s) :
    QueueOk (resetForLoss s f cause) := by
  unfold resetForLoss
  dsimp only
  repeat' (first | (simp +contextual (maxDischargeDepth := 200) [*]; done) | split | (apply queueOk_foldl) | (intro _ _ _) | simp +contextual (maxDischargeDepth := 200) [*])

@[simp] theorem queueOk_loseWith (s : State) (f w : Nat) (detail : Dword) (cause : Nat) (hs : QueueOk s) :
    QueueOk (loseWith s f w detail cause) := by
  unfold loseWith
  simp +contextual (maxDischargeDepth := 200) [*]

@[simp] theorem queueOk_lostStep (s : State) (f trigger outcome : Nat) (cross : Bool) (tiles spare hold : Nat) (detail : Dword) (cause : Nat) (hs : QueueOk s) :
    QueueOk (lostStep s f trigger outcome cross tiles spare hold detail cause) := by
  unfold lostStep
  simp +contextual (maxDischargeDepth := 200) [*]

@[simp] theorem queueOk_programFault (s : State) (f w : Nat) (detail : Dword) (hs : QueueOk s) :
    QueueOk (programFault s f w detail) := by
  unfold programFault
  simp +contextual (maxDischargeDepth := 200) [*]

@[simp] theorem queueOk_emitCapChange (s : State) (source rail limit : Nat) (hs : QueueOk s) :
    QueueOk (emitCapChange s source rail limit) := by
  unfold emitCapChange
  simp +contextual (maxDischargeDepth := 200) [*]

@[simp] theorem queueOk_emitClockChange (s : State) (f cause new old : Nat) (hs : QueueOk s) :
    QueueOk (emitClockChange s f cause new old) := by
  unfold emitClockChange
  simp +contextual (maxDischargeDepth := 200) [*]

@[simp] theorem queueOk_queueWrite (s : State) (z page cmd value : Nat) (hs : QueueOk s) :
    QueueOk (queueWrite s z page cmd value) := by
  unfold queueWrite
  simp +contextual (maxDischargeDepth := 200) [*]

@[simp] theorem queueOk_queueVsram (s : State) (f mv : Nat) (hs : QueueOk s) :
    QueueOk (queueVsram s f mv) := by
  unfold queueVsram
  simp +contextual (maxDischargeDepth := 200) [*]

@[simp] theorem queueOk_queueVcore (s : State) (f mv : Nat) (hs : QueueOk s) :
    QueueOk (queueVcore s f mv) := by
  unfold queueVcore
  simp +contextual (maxDischargeDepth := 200) [*]

@[simp] theorem queueOk_startChange (s : State) (f : Nat) (hs : QueueOk s) :
    QueueOk (startChange s f) := by
  unfold startChange
  simp +contextual (maxDischargeDepth := 200) [*]

@[simp] theorem queueOk_planPart (s : State) (p : Nat) (x : Part) (share : Rat) (hs : QueueOk s) :
    QueueOk (planPart s p x share) := by
  have hm : ∀ g, QueueOk (modPart s p g) := fun g => queueOk_modPart s p g hs
  unfold planPart
  extract_lets fs top fit
  clear_value fit top fs
  split
  · exact hs
  · split
    · exact hm _
    · split
      · exact hm _
      · exact queueOk_ite _ _ _ (hm _) (queueOk_ite _ _ _ (hm _) (hm _))

@[simp] theorem queueOk_relaxRail (s : State) (p : Nat) (x : Part) (hs : QueueOk s) :
    QueueOk (relaxRail s p x) := by
  unfold relaxRail
  simp +contextual (maxDischargeDepth := 200) [*]

@[simp] theorem queueOk_replan (s : State) (hs : QueueOk s) :
    QueueOk (replan s) := by
  unfold replan
  simp +contextual (maxDischargeDepth := 200) [*]

@[simp] theorem queueOk_applyExcess (s : State) (f : Nat) (hs : QueueOk s) :
    QueueOk (applyExcess s f) := by
  unfold applyExcess
  dsimp only
  repeat' (first | (simp +contextual (maxDischargeDepth := 200) [*]; done) | split | (apply queueOk_foldl) | (intro _ _ _) | simp +contextual (maxDischargeDepth := 200) [*])

@[simp] theorem queueOk_noteCause (s : State) (phys kind severity : Nat) (word : Dword) (seen : Detection) (hs : QueueOk s) :
    QueueOk (noteCause s phys kind severity word seen) := by
  unfold noteCause
  simp +contextual (maxDischargeDepth := 200) [*]

@[simp] theorem queueOk_confirmFinding (s : State) (kind confirm severity phys : Nat) (seen : Detection) (d0 d1 d2 : Dword) (eventSeq : Nat) (hs : QueueOk s) :
    QueueOk (confirmFinding s kind confirm severity phys seen d0 d1 d2 eventSeq) := by
  unfold confirmFinding
  dsimp only
  repeat' (first | (simp +contextual (maxDischargeDepth := 200) [*]; done) | split | (apply queueOk_foldl) | (intro _ _ _) | simp +contextual (maxDischargeDepth := 200) [*])

@[simp] theorem queueOk_wardenSends (s : State) (f typ : Nat) (part : Option Nat) (body : List Word) (hs : QueueOk s) :
    QueueOk (wardenSends s f typ part body) := by
  unfold wardenSends
  simp +contextual (maxDischargeDepth := 200) [*]

@[simp] theorem queueOk_drainLinks (s : State) (hs : QueueOk s) :
    QueueOk (drainLinks s) := by
  unfold drainLinks
  simp +contextual (maxDischargeDepth := 200) [*]

@[simp] theorem queueOk_wring (s : State) (f typ : Nat) (detail : List Nat) (hs : QueueOk s) :
    QueueOk (wring s f typ detail) := by
  unfold wring
  simp +contextual (maxDischargeDepth := 200) [*]

@[simp] theorem queueOk_hubRequest (s : State) (c : Cmd) (hs : QueueOk s) :
    QueueOk (hubRequest s c) := by
  unfold hubRequest
  simp +contextual (maxDischargeDepth := 200) [*]

@[simp] theorem queueOk_sampleHeader (s : State) (f : Nat) (header : List Word) (hs : QueueOk s) :
    QueueOk (sampleHeader s f header) := by
  unfold sampleHeader
  simp +contextual (maxDischargeDepth := 200) [*]

@[simp] theorem queueOk_gring (s : State) (t typ arg cycle : Nat) (detail : Dword) (hs : QueueOk s) :
    QueueOk (gring s t typ arg cycle detail) := by
  unfold gring
  simp +contextual (maxDischargeDepth := 200) [*]

@[simp] theorem queueOk_addSource (s : State) (f : Nat) (d : SourceDetail) (more : Nat) (hs : QueueOk s) :
    QueueOk (addSource s f d more) := by
  unfold addSource
  dsimp only
  repeat' (first | (simp +contextual (maxDischargeDepth := 200) [*]; done) | split | (apply queueOk_foldl) | (intro _ _ _) | simp +contextual (maxDischargeDepth := 200) [*])

@[simp] theorem queueOk_latchLevel (s : State) (f cls tile master access : Nat) (loc : Word) (detail : Dword) (hs : QueueOk s) :
    QueueOk (latchLevel s f cls tile master access loc detail) := by
  unfold latchLevel
  simp +contextual (maxDischargeDepth := 200) [*]

@[simp] theorem queueOk_noteSpareFail (s : State) (f cls spare : Nat) (hs : QueueOk s) :
    QueueOk (noteSpareFail s f cls spare) := by
  unfold noteSpareFail
  simp +contextual (maxDischargeDepth := 200) [*]

@[simp] theorem queueOk_openStorm (s : State) (f rootCount : Nat) (droop : Bool) (hs : QueueOk s) :
    QueueOk (openStorm s f rootCount droop) := by
  unfold openStorm
  dsimp only
  repeat' (first | (simp +contextual (maxDischargeDepth := 200) [*]; done) | split | (apply queueOk_foldl) | (intro _ _ _) | simp +contextual (maxDischargeDepth := 200) [*])

@[simp] theorem queueOk_sendSummary (s : State) (f : Nat) (hs : QueueOk s) :
    QueueOk (sendSummary s f) := by
  unfold sendSummary
  dsimp only
  repeat' (first | (simp +contextual (maxDischargeDepth := 200) [*]; done) | split | (apply queueOk_foldl) | (intro _ _ _) | simp +contextual (maxDischargeDepth := 200) [*])

@[simp] theorem queueOk_closeEpisode (s : State) (f : Nat) (hs : QueueOk s) :
    QueueOk (closeEpisode s f) := by
  unfold closeEpisode
  repeat' (first | (simp +contextual (maxDischargeDepth := 200) [*]; done) | split | (apply queueOk_foldl) | (intro _ _ _))

@[simp] theorem queueOk_dropPins (s : State) (f : Nat) (hs : QueueOk s) :
    QueueOk (dropPins s f) := by
  unfold dropPins
  simp +contextual (maxDischargeDepth := 200) [*]

@[simp] theorem queueOk_faultsAtSeam (s : State) (f : Nat) (hs : QueueOk s) :
    QueueOk (faultsAtSeam s f) := by
  unfold faultsAtSeam
  dsimp only
  repeat' (first | (simp +contextual (maxDischargeDepth := 200) [*]; done) | split | (apply queueOk_foldl) | (intro _ _ _) | simp +contextual (maxDischargeDepth := 200) [*])

@[simp] theorem queueOk_noteReleased (s : State) (f : Nat) (hs : QueueOk s) :
    QueueOk (noteReleased s f) := by
  unfold noteReleased
  simp +contextual (maxDischargeDepth := 200) [*]

@[simp] theorem queueOk_countTap (s : State) (f : Nat) (e : EngineTap) (hs : QueueOk s) :
    QueueOk (countTap s f e) := by
  unfold countTap
  simp +contextual (maxDischargeDepth := 200) [*]

@[simp] theorem queueOk_countCycles (s : State) (f cycles : Nat) (hs : QueueOk s) :
    QueueOk (countCycles s f cycles) := by
  unfold countCycles
  simp +contextual (maxDischargeDepth := 200) [*]

@[simp] theorem queueOk_copyBank (s : State) (f bank : Nat) (hs : QueueOk s) :
    QueueOk (copyBank s f bank) := by
  unfold copyBank
  simp +contextual (maxDischargeDepth := 200) [*]

@[simp] theorem queueOk_endCompute (s : State) (f : Nat) (partly : Bool) (hs : QueueOk s) :
    QueueOk (endCompute s f partly) := by
  unfold endCompute
  repeat' (first | (simp +contextual (maxDischargeDepth := 200) [*]; done) | split | (apply queueOk_foldl) | (intro _ _ _))

@[simp] theorem queueOk_startCompute (s : State) (f : Nat) (hs : QueueOk s) :
    QueueOk (startCompute s f) := by
  unfold startCompute
  dsimp only
  repeat' (first | (simp +contextual (maxDischargeDepth := 200) [*]; done) | split | (apply queueOk_foldl) | (intro _ _ _) | simp +contextual (maxDischargeDepth := 200) [*])

@[simp] theorem queueOk_latchField (s : State) (f : Nat) (hs : QueueOk s) :
    QueueOk (latchField s f) := by
  unfold latchField
  dsimp only
  repeat' (first | (simp +contextual (maxDischargeDepth := 200) [*]; done) | split | (apply queueOk_foldl) | (intro _ _ _) | simp +contextual (maxDischargeDepth := 200) [*])

@[simp] theorem queueOk_latchIdle (s : State) (f : Nat) (hs : QueueOk s) :
    QueueOk (latchIdle s f) := by
  unfold latchIdle
  simp +contextual (maxDischargeDepth := 200) [*]

@[simp] theorem queueOk_countToEdge (s : State) (f cycles : Nat) (taps : List EngineTap) (hs : QueueOk s) :
    QueueOk (countToEdge s f cycles taps) := by
  unfold countToEdge
  simp +contextual (maxDischargeDepth := 200) [*]

@[simp] theorem queueOk_actFreeze (s : State) (f : Nat) (freeze : Bool) (at_ : Nat) (hs : QueueOk s) :
    QueueOk (actFreeze s f freeze at_) := by
  unfold actFreeze
  simp +contextual (maxDischargeDepth := 200) [*]

@[simp] theorem queueOk_finishFreeze (s : State) (p : Nat) (z : FreezePend) (acted lateNs : Nat) (hs : QueueOk s) :
    QueueOk (finishFreeze s p z acted lateNs) := by
  unfold finishFreeze
  dsimp only
  repeat' (first | (simp +contextual (maxDischargeDepth := 200) [*]; done) | split | (apply queueOk_foldl) | (intro _ _ _) | simp +contextual (maxDischargeDepth := 200) [*])

@[simp] theorem queueOk_freezeAtSeam (s : State) (f : Nat) (hs : QueueOk s) :
    QueueOk (freezeAtSeam s f) := by
  unfold freezeAtSeam
  split
  · exact hs
  · split
    · exact hs
    · split
      · exact hs
      · exact queueOk_ite _ _ _ (queueOk_finishFreeze _ _ _ _ _ (queueOk_modPart _ _ _ (queueOk_actFreeze _ _ _ _ hs)))
          (queueOk_modPart _ _ _ (queueOk_actFreeze _ _ _ _ hs))

@[simp] theorem queueOk_seamCopies (s : State) (f : Nat) (hs : QueueOk s) :
    QueueOk (seamCopies s f) := by
  unfold seamCopies
  simp +contextual (maxDischargeDepth := 200) [*]

theorem queueOk_retireRow (s t : State) (f p row source : Nat) (hs : QueueOk s)
    (h : retireRow s f p row source = some t) : QueueOk t := by
  unfold retireRow at h
  dsimp only at h
  split at h
  · cases h
  · cases h
    split <;> simp +contextual (maxDischargeDepth := 200) [*]

@[simp] theorem queueOk_markLink (s : State) (f p edge : Nat) (hs : QueueOk s) :
    QueueOk (markLink s f p edge) := by
  unfold markLink
  simp +contextual (maxDischargeDepth := 200) [*]

@[simp] theorem queueOk_killLink (s : State) (f p edge source : Nat) (hs : QueueOk s) :
    QueueOk (killLink s f p edge source) := by
  unfold killLink
  simp +contextual (maxDischargeDepth := 200) [*]

@[simp] theorem queueOk_failLink (s : State) (f p edge source : Nat) (hs : QueueOk s) :
    QueueOk (failLink s f p edge source) := by
  unfold failLink
  simp +contextual (maxDischargeDepth := 200) [*]

@[simp] theorem queueOk_retireSlot (s : State) (f k source : Nat) (hs : QueueOk s) :
    QueueOk (retireSlot s f k source) := by
  unfold retireSlot
  simp +contextual (maxDischargeDepth := 200) [*]

@[simp] theorem queueOk_bringBack (s : State) (f kind p idx : Nat) (hs : QueueOk s) :
    QueueOk (bringBack s f kind p idx) := by
  unfold bringBack
  simp +contextual (maxDischargeDepth := 200) [*]

@[simp] theorem queueOk_releaseTile (s : State) (f p : Nat) (hs : QueueOk s) :
    QueueOk (releaseTile s f p) := by
  unfold releaseTile
  simp +contextual (maxDischargeDepth := 200) [*]

@[simp] theorem queueOk_releaseTested (s : State) (f p : Nat) (hs : QueueOk s) :
    QueueOk (releaseTested s f p) := by
  unfold releaseTested
  dsimp only
  repeat' (first | (simp +contextual (maxDischargeDepth := 200) [*]; done) | split | (apply queueOk_foldl) | (intro _ _ _) | simp +contextual (maxDischargeDepth := 200) [*])

@[simp] theorem queueOk_returnLent (s : State) (f p : Nat) (hs : QueueOk s) :
    QueueOk (returnLent s f p) := by
  unfold returnLent
  simp +contextual (maxDischargeDepth := 200) [*]

@[simp] theorem queueOk_noteLowered (s : State) (f p : Nat) (hs : QueueOk s) :
    QueueOk (noteLowered s f p) := by
  unfold noteLowered
  simp +contextual (maxDischargeDepth := 200) [*]

@[simp] theorem queueOk_spareRows (s : State) (f p : Nat) (l : List Nat) (n : Nat) (hs : QueueOk s) :
    QueueOk (spareRows s f p l n).1 := by
  induction l generalizing s n with
  | nil => exact hs
  | cons r l ih =>
    unfold spareRows
    split
    · rename_i t h
      exact ih _ _ (queueOk_retireRow s t f p r 1 hs h)
    · exact hs

@[simp] theorem queueOk_failLinkSoon (s : State) (f p edge source : Nat) (hs : QueueOk s) :
    QueueOk (failLinkSoon s f p edge source) := by
  unfold failLinkSoon
  simp +contextual (maxDischargeDepth := 200) [*]

@[simp] theorem queueOk_spareLinks (s : State) (f p : Nat) (edges : List Nat) (hs : QueueOk s) :
    QueueOk (spareLinks s f p edges).1 := by
  unfold spareLinks
  refine queueOk_foldl_fst _ ?_ edges _ hs
  intro a x h
  exact queueOk_failLinkSoon _ _ _ _ _ h

@[simp] theorem queueOk_resultEffect (s : State) (f p code : Nat) (instr : Bool) (hs : QueueOk s) :
    QueueOk (resultEffect s f p code instr) := by
  unfold resultEffect
  simp +contextual (maxDischargeDepth := 200) [*]

@[simp] theorem queueOk_benchFinding (s : State) (a : Nat) (b : BenchSlot) (code : Nat) (word : Dword) (log : Option Nat) (seqNo : Nat) (hs : QueueOk s) :
    QueueOk (benchFinding s a b code word log seqNo) := by
  unfold benchFinding
  simp +contextual (maxDischargeDepth := 200) [*]

@[simp] theorem queueOk_applyResult (s : State) (f slot result : Nat) (hs : QueueOk s) :
    QueueOk (applyResult s f slot result) := by
  unfold applyResult
  repeat' (first | (simp +contextual (maxDischargeDepth := 200) [*]; done) | split | (apply queueOk_foldl) | (intro _ _ _))

@[simp] theorem queueOk_leaveTest (s : State) (a : Nat) (hs : QueueOk s) :
    QueueOk (leaveTest s a) := by
  unfold leaveTest
  simp +contextual (maxDischargeDepth := 200) [*]

@[simp] theorem queueOk_reportTest (s : State) (f slot action : Nat) (hs : QueueOk s) :
    QueueOk (reportTest s f slot action) := by
  unfold reportTest
  repeat' (first | (simp +contextual (maxDischargeDepth := 200) [*]; done) | split | (apply queueOk_foldl) | (intro _ _ _))

@[simp] theorem queueOk_keepSubstitute (s : State) (f pos tested subst : Nat) (hs : QueueOk s) :
    QueueOk (keepSubstitute s f pos tested subst) := by
  unfold keepSubstitute
  simp +contextual (maxDischargeDepth := 200) [*]

@[simp] theorem queueOk_finishAborted (s : State) (f slot action : Nat) (again : Bool) (hs : QueueOk s) :
    QueueOk (finishAborted s f slot action again) := by
  unfold finishAborted
  repeat' (first | (simp +contextual (maxDischargeDepth := 200) [*]; done) | split | (apply queueOk_foldl) | (intro _ _ _))

@[simp] theorem queueOk_abortTest (s : State) (f slot : Nat) (keep : Bool) (hs : QueueOk s) :
    QueueOk (abortTest s f slot keep) := by
  unfold abortTest
  repeat' (first | (simp +contextual (maxDischargeDepth := 200) [*]; done) | split | (apply queueOk_foldl) | (intro _ _ _))

@[simp] theorem queueOk_cancelSpots (s : State) (f : Nat) (hs : QueueOk s) :
    QueueOk (cancelSpots s f) := by
  unfold cancelSpots
  simp +contextual (maxDischargeDepth := 200) [*]

@[simp] theorem queueOk_freeContexts (s : State) (gone : Context → Bool) (hs : QueueOk s) :
    QueueOk (freeContexts s gone) := by
  unfold freeContexts
  repeat' (first | (simp +contextual (maxDischargeDepth := 200) [*]; done) | split | (apply queueOk_foldl) | (intro _ _ _))

@[simp] theorem queueOk_settleDueBut (s : State) (f : Nat) (busy : List Nat) (hs : QueueOk s) :
    QueueOk (settleDueBut s f busy) := by
  unfold settleDueBut
  dsimp only
  refine queueOk_foldl _ (fun s e h => queueOk_bringBack _ _ _ _ _ h) _ _ ?_
  refine queueOk_foldl _ (fun s e h => queueOk_retireSlot _ _ _ _ h) _ _ ?_
  refine queueOk_foldl _ (fun s e h => queueOk_failLink _ _ _ _ _ h) _ _ ?_
  refine queueOk_foldl _ ?_ _ _ (queueOk_setField _ _ _ hs)
  intro s e h
  split
  · rename_i t ht
    exact queueOk_retireRow s t _ _ _ _ h ht
  · exact queueOk_quarantineWorn _ _ _ _ _ h

@[simp] theorem queueOk_settleDue (s : State) (f : Nat) (hs : QueueOk s) :
    QueueOk (settleDue s f) := by
  unfold settleDue
  simp +contextual (maxDischargeDepth := 200) [*]

@[simp] theorem queueOk_settleClaims (s : State) (f : Nat) (hs : QueueOk s) :
    QueueOk (settleClaims s f) := by
  unfold settleClaims
  dsimp only
  repeat' (first | (simp +contextual (maxDischargeDepth := 200) [*]; done) | split | (apply queueOk_foldl) | (intro _ _ _) | simp +contextual (maxDischargeDepth := 200) [*])

@[simp] theorem queueOk_settleQuarantine (s : State) (f : Nat) (hs : QueueOk s) :
    QueueOk (settleQuarantine s f) := by
  unfold settleQuarantine
  simp +contextual (maxDischargeDepth := 200) [*]

@[simp] theorem queueOk_endFieldWork (s : State) (f : Nat) (hs : QueueOk s) :
    QueueOk (endFieldWork s f) := by
  unfold endFieldWork
  simp +contextual (maxDischargeDepth := 200) [*]

@[simp] theorem queueOk_dropProgram (s : State) (p : Nat) (hs : QueueOk s) :
    QueueOk (dropProgram s p) := by
  unfold dropProgram
  simp +contextual (maxDischargeDepth := 200) [*]

@[simp] theorem queueOk_endForGood (s : State) (f : Nat) (hs : QueueOk s) :
    QueueOk (endForGood s f) := by
  unfold endForGood
  simp +contextual (maxDischargeDepth := 200) [*]

@[simp] theorem queueOk_armInjection (s : State) (f : Nat) (hs : QueueOk s) :
    QueueOk (armInjection s f) := by
  unfold armInjection
  dsimp only
  repeat' (first | (simp +contextual (maxDischargeDepth := 200) [*]; done) | split | (apply queueOk_foldl) | (intro _ _ _) | simp +contextual (maxDischargeDepth := 200) [*])

@[simp] theorem queueOk_applySettings (s : State) (f : Nat) (hs : QueueOk s) :
    QueueOk (applySettings s f) := by
  unfold applySettings
  dsimp only
  repeat' (first | (simp +contextual (maxDischargeDepth := 200) [*]; done) | split | (apply queueOk_foldl) | (intro _ _ _) | simp +contextual (maxDischargeDepth := 200) [*])

@[simp] theorem queueOk_drawSpots (s : State) (f : Nat) (hs : QueueOk s) :
    QueueOk (drawSpots s f) := by
  unfold drawSpots
  simp +contextual (maxDischargeDepth := 200) [*]

@[simp] theorem queueOk_completeRes (s : State) (c : Cmd) (st : Nat) (res : List Word) (hs : QueueOk s) :
    QueueOk (completeRes s c st res) := by
  unfold completeRes
  simp +contextual (maxDischargeDepth := 200) [*]

@[simp] theorem queueOk_check4 (s : State) (c : Cmd) (hs : QueueOk s) :
    QueueOk (check4 s c).2 := by
  unfold check4
  repeat' (first | (simp +contextual (maxDischargeDepth := 200) [*]; done) | split | assumption)

@[simp] theorem queueOk_startCmd (s : State) (c : Cmd) (hs : QueueOk s) :
    QueueOk (startCmd s c) := by
  unfold startCmd
  simp +contextual (maxDischargeDepth := 200) [*]

@[simp] theorem queueOk_startField (s : State) (f seed : Nat) (hs : QueueOk s) :
    QueueOk (startField s f seed) := by
  unfold startField
  simp +contextual (maxDischargeDepth := 200) [*]

@[simp] theorem queueOk_clearCounters (s : State) (fs : List Nat) (hs : QueueOk s) :
    QueueOk (clearCounters s fs) := by
  unfold clearCounters
  simp +contextual (maxDischargeDepth := 200) [*]

@[simp] theorem queueOk_setMarks (s : State) (fs : List Nat) (t : Nat) (hs : QueueOk s) :
    QueueOk (setMarks s fs t) := by
  unfold setMarks
  simp +contextual (maxDischargeDepth := 200) [*]

@[simp] theorem queueOk_loadProgram (s : State) (c : Cmd) (p : Nat) (x : Part) (dir : List DirEntry) (hs : QueueOk s) :
    QueueOk (loadProgram s c p x dir) := by
  unfold loadProgram
  simp +contextual (maxDischargeDepth := 200) [*]

@[simp] theorem queueOk_finishUnload (s : State) (p : Nat) (hs : QueueOk s) :
    QueueOk (finishUnload s p) := by
  unfold finishUnload
  dsimp only
  repeat' (first | (simp +contextual (maxDischargeDepth := 200) [*]; done) | split | (apply queueOk_foldl) | (intro _ _ _) | simp +contextual (maxDischargeDepth := 200) [*])

@[simp] theorem queueOk_stopField (s : State) (p f : Nat) (hs : QueueOk s) :
    QueueOk (stopField s p f) := by
  unfold stopField
  simp +contextual (maxDischargeDepth := 200) [*]

@[simp] theorem queueOk_applySetting (s : State) (c : Cmd) (p st : Nat) (res : List Word) (hs : QueueOk s) :
    QueueOk (applySetting s c p st res) := by
  unfold applySetting
  simp +contextual (maxDischargeDepth := 200) [*]

@[simp] theorem queueOk_emitAlign (s : State) (p : Option Nat) (kind item : Nat) (late : Bool) (time : Int) (rate : Int) (lateNs : Nat) (hs : QueueOk s) :
    QueueOk (emitAlign s p kind item late time rate lateNs) := by
  unfold emitAlign
  simp +contextual (maxDischargeDepth := 200) [*]

@[simp] theorem queueOk_emitLane (s : State) (lane : Nat) (restored : Bool) (hs : QueueOk s) :
    QueueOk (emitLane s lane restored) := by
  unfold emitLane
  simp +contextual (maxDischargeDepth := 200) [*]

@[simp] theorem queueOk_judgeLane (s : State) (lane : Nat) (hs : QueueOk s) :
    QueueOk (judgeLane s lane) := by
  unfold judgeLane
  repeat' (first | (simp +contextual (maxDischargeDepth := 200) [*]; done) | split | (apply queueOk_foldl) | (intro _ _ _))

@[simp] theorem queueOk_sendFrame (s : State) (lane typ seqNo payload : Nat) (hs : QueueOk s) :
    QueueOk (sendFrame s lane typ seqNo payload) := by
  unfold sendFrame
  simp +contextual (maxDischargeDepth := 200) [*]

@[simp] theorem queueOk_barrierReady (s : State) (p : Nat) (hs : QueueOk s) :
    QueueOk (barrierReady s p) := by
  unfold barrierReady
  dsimp only
  repeat' (first | (simp +contextual (maxDischargeDepth := 200) [*]; done) | split | (apply queueOk_foldl) | (intro _ _ _) | simp +contextual (maxDischargeDepth := 200) [*])

@[simp] theorem queueOk_countOf (s : State) (phys : Nat) (g : TileCount → TileCount) (hs : QueueOk s) :
    QueueOk (countOf s phys g) := by
  unfold countOf
  repeat' (first | (simp +contextual (maxDischargeDepth := 200) [*]; done) | split | (apply queueOk_foldl) | (intro _ _ _))

@[simp] theorem queueOk_foldStep (s : State) (phys : Nat) (m : Exec) (syms : List Word) (hs : QueueOk s) :
    QueueOk (foldStep s phys m syms) := by
  unfold foldStep
  simp +contextual (maxDischargeDepth := 200) [*]

@[simp] theorem queueOk_freshRun (s : State) (phys : List Nat) (hs : QueueOk s) :
    QueueOk (freshRun s phys) := by
  unfold freshRun
  simp +contextual (maxDischargeDepth := 200) [*]

@[simp] theorem queueOk_latchFailure (s : State) (phys cls : Nat) (word : Dword) (instr : Nat) (hs : QueueOk s) :
    QueueOk (latchFailure s phys cls word instr) := by
  unfold latchFailure
  simp +contextual (maxDischargeDepth := 200) [*]

@[simp] theorem queueOk_failAgain (s : State) (phys cls : Nat) (word : Dword) (hs : QueueOk s) :
    QueueOk (failAgain s phys cls word) := by
  unfold failAgain
  simp +contextual (maxDischargeDepth := 200) [*]

@[simp] theorem queueOk_useInjection (s : State) (phys : Nat) (m : Exec) (hs : QueueOk s) :
    QueueOk (useInjection s phys m) := by
  unfold useInjection
  simp +contextual (maxDischargeDepth := 200) [*]

@[simp] theorem queueOk_benchMiss (s : State) (phys : Nat) (hs : QueueOk s) :
    QueueOk (benchMiss s phys) := by
  unfold benchMiss
  simp +contextual (maxDischargeDepth := 200) [*]

@[simp] theorem queueOk_failVerdict (s : State) (c : Contraction) (m : Exec) (v : Verdict) (site : Nat) (hs : QueueOk s) :
    QueueOk (failVerdict s c m v site) := by
  unfold failVerdict
  repeat' (first | (simp +contextual (maxDischargeDepth := 200) [*]; done) | split | (apply queueOk_foldl) | (intro _ _ _))

@[simp] theorem queueOk_countWait (s : State) (t cycle wait : Nat) (hs : QueueOk s) :
    QueueOk (countWait s t cycle wait) := by
  unfold countWait
  simp +contextual (maxDischargeDepth := 200) [*]

@[simp] theorem queueOk_pairDisagrees (s : State) (t : Nat) (replayed : Bool) (kind cycle expNo : Nat) (hs : QueueOk s) :
    QueueOk (pairDisagrees s t replayed kind cycle expNo) := by
  unfold pairDisagrees
  simp +contextual (maxDischargeDepth := 200) [*]

@[simp] theorem queueOk_sendExport (s : State) (x : Export) (d wait : Nat) (hs : QueueOk s) :
    QueueOk (sendExport s x d wait) := by
  unfold sendExport
  repeat' (first | (simp +contextual (maxDischargeDepth := 200) [*]; done) | split | (apply queueOk_foldl) | (intro _ _ _))

@[simp] theorem queueOk_noteCross (s : State) (f log : Nat) (hs : QueueOk s) :
    QueueOk (noteCross s f log) := by
  unfold noteCross
  simp +contextual (maxDischargeDepth := 200) [*]

@[simp] theorem queueOk_withhold (s : State) (x : Export) (n : Nat) (hs : QueueOk s) :
    QueueOk (withhold s x n) := by
  unfold withhold
  repeat' (first | (simp +contextual (maxDischargeDepth := 200) [*]; done) | split | (apply queueOk_foldl) | (intro _ _ _))

@[simp] theorem queueOk_resendExport (s : State) (g : Group) (x : Export) (d : Nat) (hs : QueueOk s) :
    QueueOk (resendExport s g x d) := by
  unfold resendExport
  repeat' (first | (simp +contextual (maxDischargeDepth := 200) [*]; done) | split | (apply queueOk_foldl) | (intro _ _ _))

@[simp] theorem queueOk_passGate (s : State) (m : Exec) (x : Export) (n d : Nat) (hs : QueueOk s) :
    QueueOk (passGate s m x n d) := by
  unfold passGate
  repeat' (first | (simp +contextual (maxDischargeDepth := 200) [*]; done) | split | (apply queueOk_foldl) | (intro _ _ _))

@[simp] theorem queueOk_comparePair (s : State) (m : Exec) (k : Gated) (e : Nat) (hs : QueueOk s) :
    QueueOk (comparePair s m k e) := by
  unfold comparePair
  simp +contextual (maxDischargeDepth := 200) [*]

@[simp] theorem queueOk_shadowExport (s : State) (m : Exec) (p n d : Nat) (hs : QueueOk s) :
    QueueOk (shadowExport s m p n d) := by
  unfold shadowExport
  repeat' (first | (simp +contextual (maxDischargeDepth := 200) [*]; done) | split | (apply queueOk_foldl) | (intro _ _ _))

@[simp] theorem queueOk_primaryExport (s : State) (m : Exec) (k : Gated) (hs : QueueOk s) :
    QueueOk (primaryExport s m k) := by
  unfold primaryExport
  repeat' (first | (simp +contextual (maxDischargeDepth := 200) [*]; done) | split | (apply queueOk_foldl) | (intro _ _ _))

@[simp] theorem queueOk_gateExport (s : State) (m : Exec) (x : Export) (d : Nat) (hs : QueueOk s) :
    QueueOk (gateExport s m x d) := by
  unfold gateExport
  simp +contextual (maxDischargeDepth := 200) [*]

@[simp] theorem queueOk_writeContexts (s : State) (log row : Nat) (covers : Context → Nat → Nat → Bool) (hs : QueueOk s) :
    QueueOk (writeContexts s log row covers) := by
  unfold writeContexts
  simp +contextual (maxDischargeDepth := 200) [*]

@[simp] theorem queueOk_snapshotWrite (s : State) (t row : Nat) (hs : QueueOk s) :
    QueueOk (snapshotWrite s t row) := by
  unfold snapshotWrite
  dsimp only
  repeat' (first | (simp +contextual (maxDischargeDepth := 200) [*]; done) | split | (apply queueOk_foldl) | (intro _ _ _) | simp +contextual (maxDischargeDepth := 200) [*])

@[simp] theorem queueOk_captureRow (s : State) (t row : Nat) (full readBefore : Bool) (old : BitVec 512) (hs : QueueOk s) :
    QueueOk (captureRow s t row full readBefore old) := by
  unfold captureRow
  simp +contextual (maxDischargeDepth := 200) [*]

@[simp] theorem queueOk_rowWritten (s : State) (t row : Nat) (hs : QueueOk s) :
    QueueOk (rowWritten s t row) := by
  unfold rowWritten
  dsimp only
  repeat' (first | (simp +contextual (maxDischargeDepth := 200) [*]; done) | split | (apply queueOk_foldl) | (intro _ _ _) | simp +contextual (maxDischargeDepth := 200) [*])

@[simp] theorem queueOk_taint (s : State) (tile origin : Nat) (hs : QueueOk s) :
    QueueOk (taint s tile origin) := by
  unfold taint
  dsimp only
  repeat' (first | (simp +contextual (maxDischargeDepth := 200) [*]; done) | split | (apply queueOk_foldl) | (intro _ _ _) | simp +contextual (maxDischargeDepth := 200) [*])

@[simp] theorem queueOk_openFault (s : State) (tile cycle : Nat) (m : Exec) (o : OpenContraction) (hs : QueueOk s) :
    QueueOk (openFault s tile cycle m o) := by
  unfold openFault
  simp +contextual (maxDischargeDepth := 200) [*]

@[simp] theorem queueOk_settlePair (s : State) (m : Exec) (p h cycle : Nat) (hs : QueueOk s) :
    QueueOk (settlePair s m p h cycle) := by
  unfold settlePair
  simp +contextual (maxDischargeDepth := 200) [*]

@[simp] theorem queueOk_pairArrives (s : State) (tile cycle : Nat) (hs : QueueOk s) :
    QueueOk (pairArrives s tile cycle) := by
  unfold pairArrives
  repeat' (first | (simp +contextual (maxDischargeDepth := 200) [*]; done) | split | (apply queueOk_foldl) | (intro _ _ _))

@[simp] theorem queueOk_endRerun (s : State) (tile cycle : Nat) (m : Exec) (hs : QueueOk s) :
    QueueOk (endRerun s tile cycle m) := by
  unfold endRerun
  dsimp only
  repeat' (first | (simp +contextual (maxDischargeDepth := 200) [*]; done) | split | (apply queueOk_foldl) | (intro _ _ _) | simp +contextual (maxDischargeDepth := 200) [*])

@[simp] theorem queueOk_setGroup (s : State) (g : Group) (hs : QueueOk s) :
    QueueOk (setGroup s g) := by
  unfold setGroup
  simp +contextual (maxDischargeDepth := 200) [*]

@[simp] theorem queueOk_dropGroup (s : State) (id : Nat) (hs : QueueOk s) :
    QueueOk (dropGroup s id) := by
  unfold dropGroup
  simp +contextual (maxDischargeDepth := 200) [*]

@[simp] theorem queueOk_addGroup (s : State) (g : Group) (hs : QueueOk s) :
    QueueOk (addGroup s g) := by
  unfold addGroup
  dsimp only
  repeat' (first | (simp +contextual (maxDischargeDepth := 200) [*]; done) | split | (apply queueOk_foldl) | (intro _ _ _) | simp +contextual (maxDischargeDepth := 200) [*])

@[simp] theorem queueOk_seedGroup (s : State) (f : Nat) (tiles : List Nat) (failed : List ReplayFail) (trigger : Nat) (hs : QueueOk s) :
    QueueOk (seedGroup s f tiles failed trigger) := by
  unfold seedGroup
  simp +contextual (maxDischargeDepth := 200) [*]

@[simp] theorem queueOk_formGroups (s : State) (f : Nat) (hs : QueueOk s) :
    QueueOk (formGroups s f) := by
  unfold formGroups
  simp +contextual (maxDischargeDepth := 200) [*]

@[simp] theorem queueOk_reserveFor (s : State) (log : Nat) (hs : QueueOk s) :
    QueueOk (reserveFor s log) := by
  unfold reserveFor
  dsimp only
  repeat' (first | (simp +contextual (maxDischargeDepth := 200) [*]; done) | split | (apply queueOk_foldl) | (intro _ _ _) | simp +contextual (maxDischargeDepth := 200) [*])

@[simp] theorem queueOk_reserveAll (s : State) (tiles : List Nat) (hs : QueueOk s) :
    QueueOk (reserveAll s tiles) := by
  unfold reserveAll
  simp +contextual (maxDischargeDepth := 200) [*]

@[simp] theorem queueOk_restoreOwn (s : State) (g : Group) (hs : QueueOk s) :
    QueueOk (restoreOwn s g) := by
  unfold restoreOwn
  repeat' (first | (simp +contextual (maxDischargeDepth := 200) [*]; done) | split | (apply queueOk_foldl) | (intro _ _ _))

@[simp] theorem queueOk_runOwn (s : State) (g : Group) (st : GroupState) (hs : QueueOk s) :
    QueueOk (runOwn s g st) := by
  unfold runOwn
  simp +contextual (maxDischargeDepth := 200) [*]

@[simp] theorem queueOk_sendImage (s : State) (e : Nat × Nat) (hs : QueueOk s) :
    QueueOk (sendImage s e) := by
  unfold sendImage
  simp +contextual (maxDischargeDepth := 200) [*]

@[simp] theorem queueOk_mapIdle (s : State) (g : Group) (hs : QueueOk s) :
    QueueOk (mapIdle s g) := by
  unfold mapIdle
  simp +contextual (maxDischargeDepth := 200) [*]

@[simp] theorem queueOk_startCopies (s : State) (g : Group) (hs : QueueOk s) :
    QueueOk (startCopies s g) := by
  unfold startCopies
  simp +contextual (maxDischargeDepth := 200) [*]

@[simp] theorem queueOk_runSpares (s : State) (g : Group) (hs : QueueOk s) :
    QueueOk (runSpares s g) := by
  unfold runSpares
  simp +contextual (maxDischargeDepth := 200) [*]

@[simp] theorem queueOk_ringReplay (s : State) (f typ : Nat) (word : Nat) (hs : QueueOk s) :
    QueueOk (ringReplay s f typ word) := by
  unfold ringReplay
  simp +contextual (maxDischargeDepth := 200) [*]

@[simp] theorem queueOk_countReplay (s : State) (tiles moved : List Nat) (cycles : Nat) (hs : QueueOk s) :
    QueueOk (countReplay s tiles moved cycles) := by
  unfold countReplay
  simp +contextual (maxDischargeDepth := 200) [*]

@[simp] theorem queueOk_noteTransient (s : State) (phys : Nat) (hs : QueueOk s) :
    QueueOk (noteTransient s phys) := by
  unfold noteTransient
  simp +contextual (maxDischargeDepth := 200) [*]

@[simp] theorem queueOk_emitReplay (s : State) (g : Group) (outcome spare : Nat) (detail : Dword) (hs : QueueOk s) :
    QueueOk (emitReplay s g outcome spare detail) := by
  unfold emitReplay
  simp +contextual (maxDischargeDepth := 200) [*]

@[simp] theorem queueOk_noteTransients (s : State) (g : Group) (again : List ReplayFail) (hs : QueueOk s) :
    QueueOk (noteTransients s g again) := by
  unfold noteTransients
  simp +contextual (maxDischargeDepth := 200) [*]

@[simp] theorem queueOk_passSame (s : State) (g : Group) (hs : QueueOk s) :
    QueueOk (passSame s g) := by
  unfold passSame
  simp +contextual (maxDischargeDepth := 200) [*]

@[simp] theorem queueOk_checkerFault (s : State) (r : ReplayFail) (severity word : Nat) (hs : QueueOk s) :
    QueueOk (checkerFault s r severity word) := by
  unfold checkerFault
  simp +contextual (maxDischargeDepth := 200) [*]

@[simp] theorem queueOk_quarantineFailed (s : State) (fails : List ReplayFail) (hs : QueueOk s) :
    QueueOk (quarantineFailed s fails) := by
  unfold quarantineFailed
  simp +contextual (maxDischargeDepth := 200) [*]

@[simp] theorem queueOk_suspectLost (s : State) (g : Group) (p : Nat) (hs : QueueOk s) :
    QueueOk (suspectLost s g p) := by
  unfold suspectLost
  simp +contextual (maxDischargeDepth := 200) [*]

@[simp] theorem queueOk_loseGroup (s : State) (g : Group) (outcome spare : Nat) (suspects : List Nat) (detail : Dword) (hs : QueueOk s) :
    QueueOk (loseGroup s g outcome spare suspects detail) := by
  unfold loseGroup
  simp +contextual (maxDischargeDepth := 200) [*]

@[simp] theorem queueOk_moveToSpares (s : State) (g : Group) (again : List ReplayFail) (hs : QueueOk s) :
    QueueOk (moveToSpares s g again) := by
  unfold moveToSpares
  simp +contextual (maxDischargeDepth := 200) [*]

@[simp] theorem queueOk_startGroup (s : State) (g : Group) (hs : QueueOk s) :
    QueueOk (startGroup s g) := by
  unfold startGroup
  simp +contextual (maxDischargeDepth := 200) [*]

@[simp] theorem queueOk_startWaiting (s : State) (f c : Nat) (hs : QueueOk s) :
    QueueOk (startWaiting s f c) := by
  unfold startWaiting
  repeat' (first | (simp +contextual (maxDischargeDepth := 200) [*]; done) | split | (apply queueOk_foldl) | (intro _ _ _))

@[simp] theorem queueOk_startSpares (s : State) (f c : Nat) (hs : QueueOk s) :
    QueueOk (startSpares s f c) := by
  unfold startSpares
  repeat' (first | (simp +contextual (maxDischargeDepth := 200) [*]; done) | split | (apply queueOk_foldl) | (intro _ _ _))

@[simp] theorem queueOk_claimInstall (s : State) (f pos u : Nat) (hs : QueueOk s) :
    QueueOk (claimInstall s f pos u) := by
  unfold claimInstall
  simp +contextual (maxDischargeDepth := 200) [*]

@[simp] theorem queueOk_settleMoved (s : State) (g : Group) (word : Nat) (seqNo : Nat) (e : Nat × Nat) (hs : QueueOk s) :
    QueueOk (settleMoved s g word seqNo e) := by
  unfold settleMoved
  repeat' (first | (simp +contextual (maxDischargeDepth := 200) [*]; done) | split | (apply queueOk_foldl) | (intro _ _ _))

@[simp] theorem queueOk_passSpare (s : State) (g : Group) (hs : QueueOk s) :
    QueueOk (passSpare s g) := by
  unfold passSpare
  simp +contextual (maxDischargeDepth := 200) [*]

@[simp] theorem queueOk_noteFailed (s : State) (f t : Nat) (hs : QueueOk s) :
    QueueOk (noteFailed s f t) := by
  unfold noteFailed
  repeat' (first | (simp +contextual (maxDischargeDepth := 200) [*]; done) | split | (apply queueOk_foldl) | (intro _ _ _))

@[simp] theorem queueOk_latchGuard (s : State) (f t : Nat) (hs : QueueOk s) :
    QueueOk (latchGuard s f t) := by
  unfold latchGuard
  simp +contextual (maxDischargeDepth := 200) [*]

@[simp] theorem queueOk_routerFault (s : State) (f : Nat) (d : SourceDetail) (hs : QueueOk s) :
    QueueOk (routerFault s f d) := by
  unfold routerFault
  simp +contextual (maxDischargeDepth := 200) [*]

@[simp] theorem queueOk_latchRouter (s : State) (f : Nat) (d : SourceDetail) (hs : QueueOk s) :
    QueueOk (latchRouter s f d) := by
  unfold latchRouter
  simp +contextual (maxDischargeDepth := 200) [*]

@[simp] theorem queueOk_recallExport (s : State) (f t cycle : Nat) (r : Nat × Nat × List Word) (hs : QueueOk s) :
    QueueOk (recallExport s f t cycle r) := by
  unfold recallExport
  simp +contextual (maxDischargeDepth := 200) [*]

@[simp] theorem queueOk_droopSignal (s : State) (f cycle : Nat) (hs : QueueOk s) :
    QueueOk (droopSignal s f cycle) := by
  unfold droopSignal
  simp +contextual (maxDischargeDepth := 200) [*]

@[simp] theorem queueOk_stormCheck (s : State) (f rootCount cycle : Nat) (droop : Bool) (hs : QueueOk s) :
    QueueOk (stormCheck s f rootCount cycle droop) := by
  unfold stormCheck
  simp +contextual (maxDischargeDepth := 200) [*]

@[simp] theorem queueOk_retireNow (s : State) (t row : Nat) (hs : QueueOk s) :
    QueueOk (retireNow s t row) := by
  unfold retireNow
  split
  · rename_i u h
    exact queueOk_retireRow s u _ _ _ _ hs h
  · exact queueOk_settleLevel _ _ _ (queueOk_markQuarantined _ _ _ _ _ hs)

@[simp] theorem queueOk_retireAtSeam (s : State) (t row : Nat) (hs : QueueOk s) :
    QueueOk (retireAtSeam s t row) := by
  unfold retireAtSeam
  simp +contextual (maxDischargeDepth := 200) [*]

@[simp] theorem queueOk_raiseSram (s : State) (t cls loc : Nat) (hs : QueueOk s) :
    QueueOk (raiseSram s t cls loc) := by
  unfold raiseSram
  dsimp only
  repeat' (first | (simp +contextual (maxDischargeDepth := 200) [*]; done) | split | (apply queueOk_foldl) | (intro _ _ _) | simp +contextual (maxDischargeDepth := 200) [*])

@[simp] theorem queueOk_retireWorn (s : State) (t row : Nat) (hs : QueueOk s) :
    QueueOk (retireWorn s t row) := by
  unfold retireWorn
  simp +contextual (maxDischargeDepth := 200) [*]

@[simp] theorem queueOk_sramWorn (s : State) (t row cls : Nat) (instr : Bool) (hs : QueueOk s) :
    QueueOk (sramWorn s t row cls instr) := by
  unfold sramWorn
  simp +contextual (maxDischargeDepth := 200) [*]

@[simp] theorem queueOk_cancelVcore (s : State) (f : Nat) (hs : QueueOk s) :
    QueueOk (cancelVcore s f) := by
  unfold cancelVcore
  simp +contextual (maxDischargeDepth := 200) [*]

@[simp] theorem queueOk_abortChange (s : State) (f : Nat) (hs : QueueOk s) :
    QueueOk (abortChange s f) := by
  unfold abortChange
  dsimp only
  repeat' (first | (simp +contextual (maxDischargeDepth := 200) [*]; done) | split | (apply queueOk_foldl) | (intro _ _ _) | simp +contextual (maxDischargeDepth := 200) [*])

@[simp] theorem queueOk_emitDroop (s : State) (f lowestMv : Nat) (hs : QueueOk s) :
    QueueOk (emitDroop s f lowestMv) := by
  unfold emitDroop
  simp +contextual (maxDischargeDepth := 200) [*]

@[simp] theorem queueOk_forgetCmd (s : State) (c : Cmd) (hs : QueueOk s) :
    QueueOk (forgetCmd s c) := by
  unfold forgetCmd
  simp +contextual (maxDischargeDepth := 200) [*]

@[simp] theorem queueOk_abortCmd (s : State) (c : Cmd) (hs : QueueOk s) :
    QueueOk (abortCmd s c) := by
  unfold abortCmd
  simp +contextual (maxDischargeDepth := 200) [*]

@[simp] theorem queueOk_endOp (s : State) (o : Op) (hs : QueueOk s) :
    QueueOk (endOp s o) := by
  unfold endOp
  simp +contextual (maxDischargeDepth := 200) [*]

@[simp] theorem queueOk_endOps (s : State) (l : List Op) (hs : QueueOk s) :
    QueueOk (endOps s l) := by
  unfold endOps
  simp +contextual (maxDischargeDepth := 200) [*]

@[simp] theorem queueOk_captureDump (s : State) (t level cause : Nat) (fs : List Nat) (hs : QueueOk s) :
    QueueOk (captureDump s t level cause fs).1 := by
  unfold captureDump
  repeat' (first | (simp +contextual (maxDischargeDepth := 200) [*]; done) | split | assumption)

@[simp] theorem queueOk_dumpOfReset (s : State) (r : ResetRun) (hs : QueueOk s) :
    QueueOk (dumpOfReset s r).1 := by
  unfold dumpOfReset
  repeat' (first | (simp +contextual (maxDischargeDepth := 200) [*]; done) | split | assumption)

@[simp] theorem queueOk_holdOthers (s : State) (p : Nat) (others : List Nat) (hs : QueueOk s) :
    QueueOk (holdOthers s p others) := by
  unfold holdOthers
  simp +contextual (maxDischargeDepth := 200) [*]

@[simp] theorem queueOk_dropPart (s : State) (r : ResetRun) (p : Nat) (hs : QueueOk s) :
    QueueOk (dropPart s r p) := by
  unfold dropPart
  simp +contextual (maxDischargeDepth := 200) [*]

@[simp] theorem queueOk_stopFields (s : State) (r : ResetRun) (hs : QueueOk s) :
    QueueOk (stopFields s r) := by
  unfold stopFields
  simp +contextual (maxDischargeDepth := 200) [*]

@[simp] theorem queueOk_endQuiesce (s : State) (hs : QueueOk s) :
    QueueOk (endQuiesce s) := by
  unfold endQuiesce
  simp +contextual (maxDischargeDepth := 200) [*]

@[simp] theorem queueOk_clearQueueFlags (s : State) (dom : Nat) (hs : QueueOk s) :
    QueueOk (clearQueueFlags s dom) := by
  unfold clearQueueFlags
  simp +contextual (maxDischargeDepth := 200) [*]

@[simp] theorem queueOk_startReset (s : State) (r : ResetRun) (rest : List ResetRun) (hs : QueueOk s) :
    QueueOk (startReset s r rest) := by
  unfold startReset
  simp +contextual (maxDischargeDepth := 200) [*]

@[simp] theorem queueOk_badDoorbell (s : State) (q : Nat) (hs : QueueOk s) :
    QueueOk (badDoorbell s q) := by
  unfold badDoorbell
  simp +contextual (maxDischargeDepth := 200) [*]

@[simp] theorem queueOk_ringSq (s : State) (t qn value : Nat) (hs : QueueOk s) :
    QueueOk (ringSq s t qn value) := by
  unfold ringSq
  repeat' (first | (simp +contextual (maxDischargeDepth := 200) [*]; done) | split | (apply queueOk_foldl) | (intro _ _ _))

@[simp] theorem queueOk_ringCq (s : State) (t qn value : Nat) (hs : QueueOk s) :
    QueueOk (ringCq s t qn value) := by
  unfold ringCq
  repeat' (first | (simp +contextual (maxDischargeDepth := 200) [*]; done) | split | (apply queueOk_foldl) | (intro _ _ _))

@[simp] theorem queueOk_clearDbBad (s : State) (t qn value : Nat) (hs : QueueOk s) :
    QueueOk (clearDbBad s t qn value) := by
  unfold clearDbBad
  repeat' (first | (simp +contextual (maxDischargeDepth := 200) [*]; done) | split | (apply queueOk_foldl) | (intro _ _ _))

@[simp] theorem queueOk_writeLegacy (s : State) (t value : Nat) (hs : QueueOk s) :
    QueueOk (writeLegacy s t value) := by
  unfold writeLegacy
  simp +contextual (maxDischargeDepth := 200) [*]

@[simp] theorem queueOk_writeStatusIrq (s : State) (t value : Nat) (hs : QueueOk s) :
    QueueOk (writeStatusIrq s t value) := by
  unfold writeStatusIrq
  simp +contextual (maxDischargeDepth := 200) [*]

@[simp] theorem queueOk_writeCfg (s : State) (t value : Nat) (hs : QueueOk s) :
    QueueOk (writeCfg s t value) := by
  unfold writeCfg
  simp +contextual (maxDischargeDepth := 200) [*]

@[simp] theorem queueOk_writeWallLow (s : State) (t : Nat) (value : Word) (hs : QueueOk s) :
    QueueOk (writeWallLow s t value) := by
  unfold writeWallLow
  simp +contextual (maxDischargeDepth := 200) [*]

@[simp] theorem queueOk_writeWallHigh (s : State) (t : Nat) (value : Word) (hs : QueueOk s) :
    QueueOk (writeWallHigh s t value) := by
  unfold writeWallHigh
  repeat' (first | (simp +contextual (maxDischargeDepth := 200) [*]; done) | split | (apply queueOk_foldl) | (intro _ _ _))

@[simp] theorem queueOk_writeHostHb (s : State) (t : Nat) (hs : QueueOk s) :
    QueueOk (writeHostHb s t) := by
  unfold writeHostHb
  simp +contextual (maxDischargeDepth := 200) [*]

@[simp] theorem queueOk_writeLogAdv (s : State) (t value : Nat) (hs : QueueOk s) :
    QueueOk (writeLogAdv s t value) := by
  unfold writeLogAdv
  simp +contextual (maxDischargeDepth := 200) [*]

@[simp] theorem queueOk_writeLogStat (s : State) (t value : Nat) (hs : QueueOk s) :
    QueueOk (writeLogStat s t value) := by
  unfold writeLogStat
  simp +contextual (maxDischargeDepth := 200) [*]

@[simp] theorem queueOk_writeSlot0 (s : State) (t n v : Nat) (hs : QueueOk s) :
    QueueOk (writeSlot0 s t n v) := by
  unfold writeSlot0
  simp +contextual (maxDischargeDepth := 200) [*]

@[simp] theorem queueOk_writeSlotN (s : State) (t n word v : Nat) (hs : QueueOk s) :
    QueueOk (writeSlotN s t n word v) := by
  unfold writeSlotN
  simp +contextual (maxDischargeDepth := 200) [*]

@[simp] theorem queueOk_writeAperture (s : State) (t off size : Nat) (value : Word) (hs : QueueOk s) :
    QueueOk (writeAperture s t off size value) := by
  unfold writeAperture
  repeat' (first | with_reducible (first | assumption | (apply queueOk_foldl) | (intro _ _ _) | (apply queueOk_ite) | (apply queueOk_writeCfg) | (apply queueOk_writeWallLow) | (apply queueOk_writeWallHigh) | (apply queueOk_writeHostHb) | (apply queueOk_writeLogStat) | (apply queueOk_writeLogAdv) | (apply queueOk_ringSq) | (apply queueOk_ringCq) | (apply queueOk_clearDbBad) | (apply queueOk_writeSlot0) | (apply queueOk_writeSlotN) | (apply queueOk_lit) | split) | dsimp only | (exact rfl))

@[simp] theorem queueOk_emitPinFault (s : State) (p : PinId) (driven high : Bool) (action retries : Nat) (hs : QueueOk s) :
    QueueOk (emitPinFault s p driven high action retries) := by
  unfold emitPinFault
  simp +contextual (maxDischargeDepth := 200) [*]

@[simp] theorem queueOk_declarePinFault (s : State) (p : PinId) (driven high : Bool) (hs : QueueOk s) :
    QueueOk (declarePinFault s p driven high) := by
  unfold declarePinFault
  simp +contextual (maxDischargeDepth := 200) [*]

@[simp] theorem queueOk_settlePinFault (s : State) (hs : QueueOk s) :
    QueueOk (settlePinFault s) := by
  unfold settlePinFault
  simp +contextual (maxDischargeDepth := 200) [*]

@[simp] theorem queueOk_bringNorUp (s : State) (fails : Nat) (hs : QueueOk s) :
    QueueOk (bringNorUp s fails) := by
  unfold bringNorUp
  simp +contextual (maxDischargeDepth := 200) [*]

@[simp] theorem queueOk_attachRun (s : State) (f p corner seq handle : Nat) (hs : QueueOk s) :
    QueueOk (attachRun s f p corner seq handle) := by
  unfold attachRun
  simp +contextual (maxDischargeDepth := 200) [*]

@[simp] theorem queueOk_startTest (s : State) (f slot : Nat) (w : BenchWait) (t : TestStart) (hs : QueueOk s) :
    QueueOk (startTest s f slot w t) := by
  unfold startTest
  simp +contextual (maxDischargeDepth := 200) [*]

@[simp] theorem queueOk_startSegment (s : State) (f : Nat) (e : Nat × BenchSlot) (hs : QueueOk s) :
    QueueOk (startSegment s f e) := by
  unfold startSegment
  simp +contextual (maxDischargeDepth := 200) [*]

@[simp] theorem queueOk_openWindow (s : State) (f : Nat) (hs : QueueOk s) :
    QueueOk (openWindow s f) := by
  unfold openWindow
  simp +contextual (maxDischargeDepth := 200) [*]

@[simp] theorem queueOk_endTest (s : State) (f slot result : Nat) (hs : QueueOk s) :
    QueueOk (endTest s f slot result) := by
  unfold endTest
  dsimp only
  repeat' (first | (simp +contextual (maxDischargeDepth := 200) [*]; done) | split | (apply queueOk_foldl) | (intro _ _ _) | simp +contextual (maxDischargeDepth := 200) [*])

@[simp] theorem queueOk_recordFmax (s : State) (f p mhz : Nat) (hs : QueueOk s) :
    QueueOk (recordFmax s f p mhz) := by
  unfold recordFmax
  simp +contextual (maxDischargeDepth := 200) [*]

@[simp] theorem queueOk_setSlotB (s : State) (f slot : Nat) (b : BenchSlot) (hs : QueueOk s) :
    QueueOk (setSlotB s f slot b) := by
  unfold setSlotB
  simp +contextual (maxDischargeDepth := 200) [*]

@[simp] theorem queueOk_segmentPassed (s : State) (f slot : Nat) (b : BenchSlot) (hs : QueueOk s) :
    QueueOk (segmentPassed s f slot b) := by
  unfold segmentPassed
  simp +contextual (maxDischargeDepth := 200) [*]

@[simp] theorem queueOk_segmentFailed (s : State) (f slot : Nat) (b : BenchSlot) (hs : QueueOk s) :
    QueueOk (segmentFailed s f slot b) := by
  unfold segmentFailed
  simp +contextual (maxDischargeDepth := 200) [*]

@[simp] theorem queueOk_droopedSegment (s : State) (f slot : Nat) (b : BenchSlot) (hs : QueueOk s) :
    QueueOk (droopedSegment s f slot b) := by
  unfold droopedSegment
  simp +contextual (maxDischargeDepth := 200) [*]

@[simp] theorem queueOk_firmwareDown (s : State) (hs : QueueOk s) :
    QueueOk (firmwareDown s) := by
  unfold firmwareDown
  simp +contextual (maxDischargeDepth := 200) [*]

@[simp] theorem queueOk_noteExcess (s : State) (f kind : Nat) (hs : QueueOk s) :
    QueueOk (noteExcess s f kind) := by
  unfold noteExcess
  simp +contextual (maxDischargeDepth := 200) [*]

@[simp] theorem queueOk_calibrate (s : State) (z page : Nat) (amps : Rat) (hs : QueueOk s) :
    QueueOk (calibrate s z page amps) := by
  unfold calibrate
  simp +contextual (maxDischargeDepth := 200) [*]

@[simp] theorem queueOk_failSegment (s : State) (z : Nat) (hs : QueueOk s) :
    QueueOk (failSegment s z) := by
  unfold failSegment
  simp +contextual (maxDischargeDepth := 200) [*]

@[simp] theorem queueOk_passOver (s : State) (z : Nat) (turn : PmbusTurn) (hs : QueueOk s) :
    QueueOk (passOver s z turn) := by
  unfold passOver
  repeat' (first | (simp +contextual (maxDischargeDepth := 200) [*]; done) | split | (apply queueOk_foldl) | (intro _ _ _))

@[simp] theorem queueOk_failSlot (s : State) (z : Nat) (turn : PmbusTurn) (hs : QueueOk s) :
    QueueOk (failSlot s z turn) := by
  unfold failSlot
  dsimp only
  repeat' (first | (simp +contextual (maxDischargeDepth := 200) [*]; done) | split | assumption)

@[simp] theorem queueOk_wroteVcore (s : State) (f mv : Nat) (hs : QueueOk s) :
    QueueOk (wroteVcore s f mv) := by
  unfold wroteVcore
  simp +contextual (maxDischargeDepth := 200) [*]

theorem queueOk_slotDone (s t : State) (z : Nat) (turn : PmbusTurn) (reply : PmbusReply) (hs : QueueOk s)
    (h : slotDone s z turn reply = some t) : QueueOk t := by
  unfold slotDone at h
  dsimp only at h
  split at h
  all_goals first | (cases h; done) | (cases h; repeat' (first | (simp +contextual (maxDischargeDepth := 200) [*]; done) | split))

@[simp] theorem queueOk_emitZone (s : State) (z : Nat) (level : Bool) (hs : QueueOk s) :
    QueueOk (emitZone s z level) := by
  unfold emitZone
  simp +contextual (maxDischargeDepth := 200) [*]

@[simp] theorem queueOk_setPgood (s : State) (z : Nat) (v : Bool) (hs : QueueOk s) :
    QueueOk (setPgood s z v) := by
  unfold setPgood
  simp +contextual (maxDischargeDepth := 200) [*]

@[simp] theorem queueOk_excludeLost (s : State) (fs : List Nat) (hs : QueueOk s) :
    QueueOk (excludeLost s fs) := by
  unfold excludeLost
  repeat' (first | with_reducible (first | assumption | (apply queueOk_foldl) | (intro _ _ _) | (apply queueOk_ite) | (apply queueOk_emitStage) | (apply queueOk_excludeFields) | (apply queueOk_lit) | split) | dsimp only | (exact rfl))

@[simp] theorem queueOk_stopWardens (s : State) (fs : List Nat) (hs : QueueOk s) :
    QueueOk (stopWardens s fs) := by
  unfold stopWardens
  simp +contextual (maxDischargeDepth := 200) [*]

@[simp] theorem queueOk_startWarden (s : State) (f : Nat) (hs : QueueOk s) :
    QueueOk (startWarden s f) := by
  unfold startWarden
  simp +contextual (maxDischargeDepth := 200) [*]

@[simp] theorem queueOk_setRailLimit (s : State) (rail lim : Nat) (hs : QueueOk s) :
    QueueOk (setRailLimit s rail lim) := by
  unfold setRailLimit
  dsimp only
  repeat' (first | (simp +contextual (maxDischargeDepth := 200) [*]; done) | split | (apply queueOk_foldl) | (intro _ _ _) | simp +contextual (maxDischargeDepth := 200) [*])

@[simp] theorem queueOk_startSpots (s : State) (f : Nat) (hs : QueueOk s) :
    QueueOk (startSpots s f) := by
  unfold startSpots
  dsimp only
  repeat' (first | (simp +contextual (maxDischargeDepth := 200) [*]; done) | split | (apply queueOk_foldl) | (intro _ _ _) | simp +contextual (maxDischargeDepth := 200) [*])

@[simp] theorem queueOk_noteHolds (s : State) (f : Nat) (hs : QueueOk s) :
    QueueOk (noteHolds s f) := by
  unfold noteHolds
  simp +contextual (maxDischargeDepth := 200) [*]

@[simp] theorem queueOk_arriveAtSeam (s : State) (f cycles : Nat) (taps : List EngineTap) (hs : QueueOk s) :
    QueueOk (arriveAtSeam s f cycles taps) := by
  unfold arriveAtSeam
  dsimp only
  repeat' (first | (simp +contextual (maxDischargeDepth := 200) [*]; done) | split | (apply queueOk_foldl) | (intro _ _ _) | simp +contextual (maxDischargeDepth := 200) [*])

@[simp] theorem queueOk_arriveForGood (s : State) (p f cycles : Nat) (hs : QueueOk s) :
    QueueOk (arriveForGood s p f cycles) := by
  unfold arriveForGood
  simp +contextual (maxDischargeDepth := 200) [*]

@[simp] theorem queueOk_loseImage (s : State) (g : Group) (again : List ReplayFail) (hs : QueueOk s) :
    QueueOk (loseImage s g again) := by
  unfold loseImage
  simp +contextual (maxDischargeDepth := 200) [*]

@[simp] theorem queueOk_groupCopyDone (s : State) (g : Group) (e : Nat × Nat) (ok : Bool) (cycles : Nat) (hs : QueueOk s) :
    QueueOk (groupCopyDone s g e ok cycles) := by
  unfold groupCopyDone
  extract_lets log g1 left
  split
  · split
    · exact queueOk_runSpares _ _ hs
    · exact queueOk_setGroup _ _ hs
  · split
    · exact queueOk_loseGroup _ _ _ _ _ _ hs
    · exact queueOk_sendImage _ _ (queueOk_setGroup _ _ hs)

@[simp] theorem queueOk_imageTo (s : State) (f src dst : Nat) (hs : QueueOk s) :
    QueueOk (imageTo s f src dst) := by
  unfold imageTo
  simp +contextual (maxDischargeDepth := 200) [*]

theorem queueOk_seamCopyDone (s t : State) (f target : Nat) (ok : Bool) (hs : QueueOk s)
    (h : seamCopyDone s f target ok = some t) : QueueOk t := by
  unfold seamCopyDone at h
  split at h
  · cases h; simp +contextual (maxDischargeDepth := 200) [*]
  · cases h; simp +contextual (maxDischargeDepth := 200) [*]
  · cases h

@[simp] theorem queueOk_spotSpareFailed (s : State) (f : Nat) (c : Spot) (cls : Nat) (word : Dword) (hs : QueueOk s) :
    QueueOk (spotSpareFailed s f c cls word) := by
  unfold spotSpareFailed
  simp +contextual (maxDischargeDepth := 200) [*]

@[simp] theorem queueOk_spotMismatch (s : State) (f : Nat) (c : Spot) (cycles : Nat) (hs : QueueOk s) :
    QueueOk (spotMismatch s f c cycles) := by
  unfold spotMismatch
  simp +contextual (maxDischargeDepth := 200) [*]

@[simp] theorem queueOk_setContexts (s : State) (l : List Context) (hs : QueueOk s) :
    QueueOk (setContexts s l) := by
  unfold setContexts
  simp +contextual (maxDischargeDepth := 200) [*]

@[simp] theorem queueOk_putContext (s : State) (c : Context) (hs : QueueOk s) :
    QueueOk (putContext s c) := by
  unfold putContext
  simp +contextual (maxDischargeDepth := 200) [*]

@[simp] theorem queueOk_emitDigest (s : State) (typ : Nat) (c : Context) (other : Nat) (word : Dword) (hs : QueueOk s) :
    QueueOk (emitDigest s typ c other word) := by
  unfold emitDigest
  simp +contextual (maxDischargeDepth := 200) [*]

@[simp] theorem queueOk_sendExchange (s : State) (c : Context) (typ : Nat) (matches_ : Bool) (hs : QueueOk s) :
    QueueOk (sendExchange s c typ matches_) := by
  unfold sendExchange
  simp +contextual (maxDischargeDepth := 200) [*]

@[simp] theorem queueOk_answerCmds (s : State) (c : Context) (cmds : List (Nat × Nat)) (status : Nat) (hs : QueueOk s) :
    QueueOk (answerCmds s c cmds status) := by
  unfold answerCmds
  repeat' (first | (simp +contextual (maxDischargeDepth := 200) [*]; done) | split | (apply queueOk_foldl) | (intro _ _ _))

@[simp] theorem queueOk_leaveComparisons (s : State) (c : Context) (status : Nat) (hs : QueueOk s) :
    QueueOk (leaveComparisons s c status) := by
  unfold leaveComparisons
  simp +contextual (maxDischargeDepth := 200) [*]

@[simp] theorem queueOk_expelContext (s : State) (c : Context) (other : Nat) (word : Dword) (hs : QueueOk s) :
    QueueOk (expelContext s c other word) := by
  unfold expelContext
  simp +contextual (maxDischargeDepth := 200) [*]

@[simp] theorem queueOk_expelFinding (s : State) (c : Context) (word : Dword) (seqNo : Nat) (hs : QueueOk s) :
    QueueOk (expelFinding s c word seqNo) := by
  unfold expelFinding
  simp +contextual (maxDischargeDepth := 200) [*]

@[simp] theorem queueOk_expelByRule (s : State) (c : Context) (outcome other : Nat) (remote : Bool) (hs : QueueOk s) :
    QueueOk (expelByRule s c outcome other remote) := by
  unfold expelByRule
  simp +contextual (maxDischargeDepth := 200) [*]

@[simp] theorem queueOk_slackFigures (s : State) (f c : Nat) (hs : QueueOk s) :
    QueueOk (slackFigures s f c) := by
  unfold slackFigures
  dsimp only
  repeat' (first | (simp +contextual (maxDischargeDepth := 200) [*]; done) | split | (apply queueOk_foldl) | (intro _ _ _) | simp +contextual (maxDischargeDepth := 200) [*])

@[simp] theorem queueOk_chargeSlack (s : State) (f heldCycles : Nat) (hs : QueueOk s) :
    QueueOk (chargeSlack s f heldCycles) := by
  unfold chargeSlack
  dsimp only
  repeat' (first | (simp +contextual (maxDischargeDepth := 200) [*]; done) | split | (apply queueOk_foldl) | (intro _ _ _) | simp +contextual (maxDischargeDepth := 200) [*])

@[simp] theorem queueOk_chargeHolds (s : State) (hs : QueueOk s) :
    QueueOk (chargeHolds s) := by
  unfold chargeHolds
  simp +contextual (maxDischargeDepth := 200) [*]

@[simp] theorem queueOk_endToken (s : State) (f : Nat) (hs : QueueOk s) :
    QueueOk (endToken s f) := by
  unfold endToken
  simp +contextual (maxDischargeDepth := 200) [*]

@[simp] theorem queueOk_noteDisturbed (s : State) (f heldCycles : Nat) (moved : Bool) (hs : QueueOk s) :
    QueueOk (noteDisturbed s f heldCycles moved) := by
  unfold noteDisturbed
  simp +contextual (maxDischargeDepth := 200) [*]

@[simp] theorem queueOk_settleBorder (s : State) (f : Nat) (busy : List Nat) (hs : QueueOk s) :
    QueueOk (settleBorder s f busy) := by
  unfold settleBorder
  simp +contextual (maxDischargeDepth := 200) [*]

@[simp] theorem queueOk_finishQuarantine (s : State) (c : Claim) (f st : Nat) (serving : Nat) (hs : QueueOk s) :
    QueueOk (finishQuarantine s c f st serving) := by
  unfold finishQuarantine
  repeat' (first | (simp +contextual (maxDischargeDepth := 200) [*]; done) | split | (apply queueOk_foldl) | (intro _ _ _))

@[simp] theorem queueOk_keepClaim (s : State) (f : Nat) (c : Claim) (hs : QueueOk s) :
    QueueOk (keepClaim s f c) := by
  unfold keepClaim
  simp +contextual (maxDischargeDepth := 200) [*]

@[simp] theorem queueOk_retryClaim (s : State) (f : Nat) (c : Claim) (hs : QueueOk s) :
    QueueOk (retryClaim s f c) := by
  unfold retryClaim
  repeat' (first | (simp +contextual (maxDischargeDepth := 200) [*]; done) | split | (apply queueOk_foldl) | (intro _ _ _))

@[simp] theorem queueOk_processClaim (s : State) (f : Nat) (busy : List Nat) (acc : List Accepted) (c : Claim) (hs : QueueOk s) :
    QueueOk (processClaim s f busy acc c).1 := by
  unfold processClaim
  dsimp only
  repeat' (first | (simp +contextual (maxDischargeDepth := 200) [*]; done) | split | assumption)

@[simp] theorem queueOk_processClaims (s : State) (f : Nat) (hs : QueueOk s) :
    QueueOk (processClaims s f).1 := by
  unfold processClaims
  refine queueOk_foldl_fst _ ?_ _ _ ?_
  · intro a x h
    simp +contextual (maxDischargeDepth := 200) [*]
  · simp +contextual (maxDischargeDepth := 200) [*]

@[simp] theorem queueOk_benchSwap (s : State) (f : Nat) (acc : List Accepted) (e : Nat × BenchSlot) (hs : QueueOk s) :
    QueueOk (benchSwap s f acc e).1 := by
  unfold benchSwap
  dsimp only
  repeat' (first | (simp +contextual (maxDischargeDepth := 200) [*]; done) | split | assumption)

@[simp] theorem queueOk_benchConclude (s : State) (f : Nat) (e : Nat × BenchSlot) (hs : QueueOk s) :
    QueueOk (benchConclude s f e) := by
  unfold benchConclude
  dsimp only
  repeat' (first | (simp +contextual (maxDischargeDepth := 200) [*]; done) | split | (apply queueOk_foldl) | (intro _ _ _) | simp +contextual (maxDischargeDepth := 200) [*])

@[simp] theorem queueOk_clearDuplicates (s : State) (f : Nat) (acc : List Accepted) (hs : QueueOk s) :
    QueueOk (clearDuplicates s f acc) := by
  unfold clearDuplicates
  simp +contextual (maxDischargeDepth := 200) [*]

@[simp] theorem queueOk_epochSwitch (s : State) (f : Nat) (acc : List Accepted) (hs : QueueOk s) :
    QueueOk (epochSwitch s f acc) := by
  unfold epochSwitch
  simp +contextual (maxDischargeDepth := 200) [*]

@[simp] theorem queueOk_supersedeSpots (s : State) (f : Nat) (acc : List Accepted) (hs : QueueOk s) :
    QueueOk (supersedeSpots s f acc) := by
  unfold supersedeSpots
  dsimp only
  repeat' (first | (simp +contextual (maxDischargeDepth := 200) [*]; done) | split | (apply queueOk_foldl) | (intro _ _ _) | simp +contextual (maxDischargeDepth := 200) [*])

@[simp] theorem queueOk_switchClock (s : State) (f new cause : Nat) (c : Option FreqChange) (hs : QueueOk s) :
    QueueOk (switchClock s f new cause c) := by
  unfold switchClock
  simp +contextual (maxDischargeDepth := 200) [*]

@[simp] theorem queueOk_clockOrder (s : State) (f : Nat) (hs : QueueOk s) :
    QueueOk (clockOrder s f) := by
  unfold clockOrder
  dsimp only
  repeat' (first | (simp +contextual (maxDischargeDepth := 200) [*]; done) | split | (apply queueOk_foldl) | (intro _ _ _) | simp +contextual (maxDischargeDepth := 200) [*])

@[simp] theorem queueOk_chainToken (s : State) (log : Nat) (payload : List Word) (hs : QueueOk s) :
    QueueOk (chainToken s log payload) := by
  unfold chainToken
  repeat' (first | (simp +contextual (maxDischargeDepth := 200) [*]; done) | split | (apply queueOk_foldl) | (intro _ _ _))

@[simp] theorem queueOk_releasePorts (s : State) (f : Nat) (held : List (Nat × Option Nat)) (token : Bool) (hs : QueueOk s) :
    QueueOk (releasePorts s f held token) := by
  unfold releasePorts
  dsimp only
  repeat' (first | (simp +contextual (maxDischargeDepth := 200) [*]; done) | split | (apply queueOk_foldl) | (intro _ _ _) | simp +contextual (maxDischargeDepth := 200) [*])

@[simp] theorem queueOk_releaseGuards (s : State) (f : Nat) (hs : QueueOk s) :
    QueueOk (releaseGuards s f) := by
  unfold releaseGuards
  simp +contextual (maxDischargeDepth := 200) [*]

@[simp] theorem queueOk_leaveGroups (s : State) (f : Nat) (hs : QueueOk s) :
    QueueOk (leaveGroups s f) := by
  unfold leaveGroups
  simp +contextual (maxDischargeDepth := 200) [*]

@[simp] theorem queueOk_forgetCopies (s : State) (f : Nat) (hs : QueueOk s) :
    QueueOk (forgetCopies s f) := by
  unfold forgetCopies
  simp +contextual (maxDischargeDepth := 200) [*]

@[simp] theorem queueOk_startStep (s : State) (f heldCycles : Nat) (held : List (Nat × Option Nat)) (hs : QueueOk s) :
    QueueOk (startStep s f heldCycles held) := by
  unfold startStep
  simp +contextual (maxDischargeDepth := 200) [*]

@[simp] theorem queueOk_deferBusy (s : State) (f : Nat) (busy : List Nat) (hs : QueueOk s) :
    QueueOk (deferBusy s f busy) := by
  unfold deferBusy
  simp +contextual (maxDischargeDepth := 200) [*]

@[simp] theorem queueOk_passTime (s : State) (hs : QueueOk s) :
    QueueOk (passTime s) := by
  unfold passTime
  simp +contextual (maxDischargeDepth := 200) [*]

@[simp] theorem queueOk_seamActions (s : State) (f heldCycles : Nat) (swaps : List (Nat × BenchSlot)) (hs : QueueOk s) :
    QueueOk (seamActions s f heldCycles swaps) := by
  unfold seamActions
  extract_lets busy rows s1 a b s2 s3 s4
  have h1 : QueueOk s1 := queueOk_settleDueBut _ _ _ (queueOk_settleBorder _ _ _ (queueOk_deferBusy _ _ _ hs))
  have hb : QueueOk b.1 := queueOk_foldl_fst _ (fun a x h => queueOk_benchSwap _ _ _ _ h) _ _ (queueOk_processClaims _ _ h1)
  have h2 : QueueOk s2 := queueOk_supersedeSpots _ _ _ (queueOk_epochSwitch _ _ _ hb)
  have h3 : QueueOk s3 := queueOk_foldl _ (fun s e h => queueOk_benchConclude _ _ _ h) _ _ h2
  have h4 : QueueOk s4 := queueOk_ite _ _ _ h3 (queueOk_settleLevel _ _ _ h3)
  split
  · exact h1
  · exact queueOk_clockOrder _ _ (queueOk_noteDisturbed _ _ _ _ h4)

@[simp] theorem queueOk_repeatStages (s : State) (c : Cmd) (f : Nat) (hs : QueueOk s) :
    QueueOk (repeatStages s c f) := by
  unfold repeatStages
  simp +contextual (maxDischargeDepth := 200) [*]

@[simp] theorem queueOk_endUnload (s : State) (r : ResetRun) (hs : QueueOk s) :
    QueueOk (endUnload s r) := by
  unfold endUnload
  repeat' (first | (simp +contextual (maxDischargeDepth := 200) [*]; done) | split | (apply queueOk_foldl) | (intro _ _ _))

@[simp] theorem queueOk_emitReset (s : State) (r : ResetRun) (word : Dword) (hs : QueueOk s) :
    QueueOk (emitReset s r word) := by
  unfold emitReset
  simp +contextual (maxDischargeDepth := 200) [*]

@[simp] theorem queueOk_emitTrip (s : State) (k : Trip) (seconds broken : Nat) (hs : QueueOk s) :
    QueueOk (emitTrip s k seconds broken) := by
  unfold emitTrip
  simp +contextual (maxDischargeDepth := 200) [*]

@[simp] theorem queueOk_sendTrips (s : State) (hs : QueueOk s) :
    QueueOk (sendTrips s) := by
  unfold sendTrips
  refine queueOk_foldl _ (fun s k h => ?_) _ _ (queueOk_lit s _ _ _ _ _ _ _ _ _ _ _ _ _ _ _ _ _ _ _ _ _ _ _ _ _ _ _ hs rfl rfl)
  unfold emitTrip
  exact queueOk_emitWords _ _ _ _ (queueOk_emitWords _ _ _ _ h)

@[simp] theorem queueOk_hangLoss (s : State) (f cause : Nat) (hs : QueueOk s) :
    QueueOk (hangLoss s f cause) := by
  unfold hangLoss
  simp +contextual (maxDischargeDepth := 200) [*]

@[simp] theorem queueOk_reissue (s : State) (f slot : Nat) (hs : QueueOk s) :
    QueueOk (reissue s f slot) := by
  unfold reissue
  repeat' (first | (simp +contextual (maxDischargeDepth := 200) [*]; done) | split | (apply queueOk_foldl) | (intro _ _ _))

@[simp] theorem queueOk_resetWarden (s : State) (f : Nat) (hs : QueueOk s) :
    QueueOk (resetWarden s f) := by
  unfold resetWarden
  simp +contextual (maxDischargeDepth := 200) [*]

@[simp] theorem queueOk_lateTrips (s : State) (hs : QueueOk s) :
    QueueOk (lateTrips s) := by
  unfold lateTrips
  simp +contextual (maxDischargeDepth := 200) [*]

@[simp] theorem queueOk_setTherm (s : State) (f : Nat) (t : Thermal) (hs : QueueOk s) :
    QueueOk (setTherm s f t) := by
  unfold setTherm
  simp +contextual (maxDischargeDepth := 200) [*]

@[simp] theorem queueOk_setThermWarn (s : State) (hs : QueueOk s) :
    QueueOk (setThermWarn s) := by
  unfold setThermWarn
  simp +contextual (maxDischargeDepth := 200) [*]

@[simp] theorem queueOk_emitThermBand (s : State) (f old new : Nat) (rate : Bool) (hs : QueueOk s) :
    QueueOk (emitThermBand s f old new rate) := by
  unfold emitThermBand
  simp +contextual (maxDischargeDepth := 200) [*]

@[simp] theorem queueOk_setBand (s : State) (f new : Nat) (reads : Bool) (hs : QueueOk s) :
    QueueOk (setBand s f new reads) := by
  unfold setBand
  simp +contextual (maxDischargeDepth := 200) [*]

@[simp] theorem queueOk_noteRise (s : State) (f : Nat) (hs : QueueOk s) :
    QueueOk (noteRise s f) := by
  unfold noteRise
  dsimp only
  repeat' (first | (simp +contextual (maxDischargeDepth := 200) [*]; done) | split | (apply queueOk_foldl) | (intro _ _ _) | simp +contextual (maxDischargeDepth := 200) [*])

@[simp] theorem queueOk_noteCool (s : State) (f : Nat) (hs : QueueOk s) :
    QueueOk (noteCool s f) := by
  unfold noteCool
  dsimp only
  repeat' (first | (simp +contextual (maxDischargeDepth := 200) [*]; done) | split | (apply queueOk_foldl) | (intro _ _ _) | simp +contextual (maxDischargeDepth := 200) [*])

@[simp] theorem queueOk_emitSensorFault (s : State) (f d : Nat) (r : Option Int) (before : Int) (x : Thermal) (reseeded : Bool) (hs : QueueOk s) :
    QueueOk (emitSensorFault s f d r before x reseeded) := by
  unfold emitSensorFault
  simp +contextual (maxDischargeDepth := 200) [*]

@[simp] theorem queueOk_readDiode (s : State) (f d : Nat) (r : Option Int) (others : List (Nat × Option Int)) (hs : QueueOk s) :
    QueueOk (readDiode s f d r others) := by
  unfold readDiode
  simp +contextual (maxDischargeDepth := 200) [*]

@[simp] theorem queueOk_readAll (s : State) (f : Nat) (readings : List (Option Int)) (hs : QueueOk s) :
    QueueOk (readAll s f readings) := by
  unfold readAll
  dsimp only
  repeat' (first | (simp +contextual (maxDischargeDepth := 200) [*]; done) | split | (apply queueOk_foldl) | (intro _ _ _) | simp +contextual (maxDischargeDepth := 200) [*])

@[simp] theorem queueOk_latchTrip (s : State) (t : TripSource) (parts : Nat) (hs : QueueOk s) :
    QueueOk (latchTrip s t parts) := by
  unfold latchTrip
  simp +contextual (maxDischargeDepth := 200) [*]

@[simp] theorem queueOk_stopHard (s : State) (fs : List Nat) (hs : QueueOk s) :
    QueueOk (stopHard s fs) := by
  unfold stopHard
  simp +contextual (maxDischargeDepth := 200) [*]

@[simp] theorem queueOk_leaveWave (s : State) (fs : List Nat) (hs : QueueOk s) :
    QueueOk (leaveWave s fs) := by
  unfold leaveWave
  simp +contextual (maxDischargeDepth := 200) [*]

@[simp] theorem queueOk_loseHub (s : State) (hs : QueueOk s) :
    QueueOk (loseHub s) := by
  unfold loseHub
  simp +contextual (maxDischargeDepth := 200) [*]

@[simp] theorem queueOk_releaseTrip (s : State) (t : TripSource) (hs : QueueOk s) :
    QueueOk (releaseTrip s t) := by
  unfold releaseTrip
  simp +contextual (maxDischargeDepth := 200) [*]

@[simp] theorem queueOk_restartZone (s : State) (z : Nat) (hs : QueueOk s) :
    QueueOk (restartZone s z) := by
  unfold restartZone
  simp +contextual (maxDischargeDepth := 200) [*]

@[simp] theorem queueOk_restartHub (s : State) (hs : QueueOk s) :
    QueueOk (restartHub s) := by
  unfold restartHub
  simp +contextual (maxDischargeDepth := 200) [*]

@[simp] theorem queueOk_seedTherm (s : State) (f : Nat) (rs : List (Option Int)) (cold : Bool) (hs : QueueOk s) :
    QueueOk (seedTherm s f rs cold) := by
  unfold seedTherm
  dsimp only
  repeat' (first | (simp +contextual (maxDischargeDepth := 200) [*]; done) | split | (apply queueOk_foldl) | (intro _ _ _) | simp +contextual (maxDischargeDepth := 200) [*])

@[simp] theorem queueOk_recovered (s : State) (norOk : Bool) (hs : QueueOk s) :
    QueueOk (recovered s norOk) := by
  unfold recovered
  dsimp only
  split <;> exact queueOk_empty _ rfl

@[simp] theorem queueOk_waferFails (s : State) (cause ms : Nat) (hs : QueueOk s) :
    QueueOk (waferFails s cause ms) := by
  unfold waferFails
  simp +contextual (maxDischargeDepth := 200) [*]

@[simp] theorem queueOk_authenticate (s : State) (unsealed : Bool) (hs : QueueOk s) :
    QueueOk (authenticate s unsealed) := by
  unfold authenticate
  simp +contextual (maxDischargeDepth := 200) [*]

@[simp] theorem queueOk_enterStage (s : State) (n : Nat) (hs : QueueOk s) :
    QueueOk (enterStage s n) := by
  unfold enterStage
  simp +contextual (maxDischargeDepth := 200) [*]

@[simp] theorem queueOk_endWaferStage (s : State) (found : StageFound) (hs : QueueOk s) :
    QueueOk (endWaferStage s found) := by
  unfold endWaferStage
  simp +contextual (maxDischargeDepth := 200) [*]

@[simp] theorem queueOk_wardenUp (s : State) (f : Nat) (diodes : List (Option Int)) (hs : QueueOk s) :
    QueueOk (wardenUp s f diodes) := by
  unfold wardenUp
  simp +contextual (maxDischargeDepth := 200) [*]

@[simp] theorem queueOk_endS2 (s : State) (found : StageFound) (fs : List Nat) (hs : QueueOk s) :
    QueueOk (endS2 s found fs) := by
  unfold endS2
  simp +contextual (maxDischargeDepth := 200) [*]

@[simp] theorem queueOk_trainLinks (s : State) (found : StageFound) (hs : QueueOk s) :
    QueueOk (trainLinks s found) := by
  unfold trainLinks
  simp +contextual (maxDischargeDepth := 200) [*]

@[simp] theorem queueOk_offerReduced (failed : List Nat) (s : State) (f : Nat) (hs : QueueOk s) :
    QueueOk (offerReduced failed s f) := by
  unfold offerReduced
  simp +contextual (maxDischargeDepth := 200) [*]

@[simp] theorem queueOk_endS3 (s : State) (found : StageFound) (fs : List Nat) (hs : QueueOk s) :
    QueueOk (endS3 s found fs) := by
  unfold endS3
  simp +contextual (maxDischargeDepth := 200) [*]

@[simp] theorem queueOk_endS4 (s : State) (found : StageFound) (fs : List Nat) (hs : QueueOk s) : QueueOk (endS4 s found fs) := by
  unfold endS4
  extract_lets step a bad s1 excl good s2 s3 s4
  have ha : QueueOk a.1 := by
    refine queueOk_foldl_fst step ?_ _ _ hs
    intro a r h
    simp only [step]
    split
    · rename_i t ht
      exact queueOk_retireRow _ t _ _ _ _ h ht
    · exact queueOk_markQuarantined _ _ _ _ _ h
  have h1 : QueueOk s1 := queueOk_foldl _ (fun s e h => queueOk_markQuarantined _ _ _ _ _ h) _ _ ha
  have h3 : QueueOk s3 := queueOk_modFields _ _ _ (queueOk_excludeFields _ _ _ _ h1)
  have h4 : QueueOk s4 := queueOk_foldl _ (fun s e h => queueOk_setBand _ _ _ _ (queueOk_queueVsram _ _ _ h)) _ _ h3
  exact queueOk_commitAll _ (queueOk_emitStage _ _ _ _ _ _ _ _ _ h4)

@[simp] theorem queueOk_lowerTile (s : State) (t mhz : Nat) (hs : QueueOk s) :
    QueueOk (lowerTile s t mhz) := by
  unfold lowerTile
  simp +contextual (maxDischargeDepth := 200) [*]

@[simp] theorem queueOk_markOutlier (s : State) (t : Nat) (hs : QueueOk s) :
    QueueOk (markOutlier s t) := by
  unfold markOutlier
  simp +contextual (maxDischargeDepth := 200) [*]

@[simp] theorem queueOk_endS5 (s : State) (found : StageFound) (fs : List Nat) (hs : QueueOk s) :
    QueueOk (endS5 s found fs) := by
  unfold endS5
  simp +contextual (maxDischargeDepth := 200) [*]

@[simp] theorem queueOk_endS6 (s : State) (found : StageFound) (fs : List Nat) (hs : QueueOk s) :
    QueueOk (endS6 s found fs) := by
  unfold endS6
  simp +contextual (maxDischargeDepth := 200) [*]

@[simp] theorem queueOk_nextWaveStage (s : State) (hs : QueueOk s) :
    QueueOk (nextWaveStage s) := by
  unfold nextWaveStage
  simp +contextual (maxDischargeDepth := 200) [*]

@[simp] theorem queueOk_endWaveStage (s : State) (found : StageFound) (hs : QueueOk s) :
    QueueOk (endWaveStage s found) := by
  unfold endWaveStage
  simp +contextual (maxDischargeDepth := 200) [*]

@[simp] theorem queueOk_endRedo (s : State) (found : StageFound) (hs : QueueOk s) :
    QueueOk (endRedo s found) := by
  unfold endRedo
  simp +contextual (maxDischargeDepth := 200) [*]

@[simp] theorem queueOk_startTestRails (s : State) (f : Nat) (hs : QueueOk s) :
    QueueOk (startTestRails s f) := by
  unfold startTestRails
  simp +contextual (maxDischargeDepth := 200) [*]

@[simp] theorem queueOk_startWave (s : State) (fs deferred : List Nat) (stage w : Nat) (hs : QueueOk s) :
    QueueOk (startWave s fs deferred stage w) := by
  unfold startWave
  simp +contextual (maxDischargeDepth := 200) [*]

@[simp] theorem queueOk_clearThrough (s : State) (n : Nat) (hs : QueueOk s) :
    QueueOk (clearThrough s n) := by
  unfold clearThrough
  simp +contextual (maxDischargeDepth := 200) [*]

@[simp] theorem queueOk_quarantineIdle (s : State) (c : Cmd) (f p pos reason : Nat) (hs : QueueOk s) :
    QueueOk (quarantineIdle s c f p pos reason) := by
  unfold quarantineIdle
  repeat' (first | (simp +contextual (maxDischargeDepth := 200) [*]; done) | split | (apply queueOk_foldl) | (intro _ _ _))

@[simp] theorem queueOk_quarantineRunning (s : State) (c : Cmd) (f p pos reason : Nat) (hs : QueueOk s) :
    QueueOk (quarantineRunning s c f p pos reason) := by
  unfold quarantineRunning
  repeat' (first | (simp +contextual (maxDischargeDepth := 200) [*]; done) | split | (apply queueOk_foldl) | (intro _ _ _))

@[simp] theorem queueOk_quarantineTile (s : State) (c : Cmd) (f p reason : Nat) (hs : QueueOk s) :
    QueueOk (quarantineTile s c f p reason) := by
  unfold quarantineTile
  dsimp only
  repeat' (first | (simp +contextual (maxDischargeDepth := 200) [*]; done) | split | (apply queueOk_foldl) | (intro _ _ _) | simp +contextual (maxDischargeDepth := 200) [*])

@[simp] theorem queueOk_quarantineRow (s : State) (c : Cmd) (f p row : Nat) (hs : QueueOk s) :
    QueueOk (quarantineRow s c f p row) := by
  unfold quarantineRow
  simp +contextual (maxDischargeDepth := 200) [*]

@[simp] theorem queueOk_quarantineLink (s : State) (c : Cmd) (f p edge : Nat) (hs : QueueOk s) :
    QueueOk (quarantineLink s c f p edge) := by
  unfold quarantineLink
  simp +contextual (maxDischargeDepth := 200) [*]

@[simp] theorem queueOk_quarantineSlot (s : State) (c : Cmd) (f k : Nat) (hs : QueueOk s) :
    QueueOk (quarantineSlot s c f k) := by
  unfold quarantineSlot
  simp +contextual (maxDischargeDepth := 200) [*]

@[simp] theorem queueOk_quarantinePhase (s : State) (c : Cmd) (z ph : Nat) (hs : QueueOk s) :
    QueueOk (quarantinePhase s c z ph) := by
  unfold quarantinePhase
  simp +contextual (maxDischargeDepth := 200) [*]

@[simp] theorem queueOk_releaseAtSeam (s : State) (c : Cmd) (f kind p idx left : Nat) (hs : QueueOk s) :
    QueueOk (releaseAtSeam s c f kind p idx left) := by
  unfold releaseAtSeam
  simp +contextual (maxDischargeDepth := 200) [*]

@[simp] theorem queueOk_scrubWork (s : State) (t : Nat) (fs : List Nat) (hs : QueueOk s) :
    QueueOk (scrubWork s t fs) := by
  unfold scrubWork
  simp +contextual (maxDischargeDepth := 200) [*]

@[simp] theorem queueOk_zeroTiles (s : State) (fs : List Nat) (hs : QueueOk s) :
    QueueOk (zeroTiles s fs) := by
  unfold zeroTiles
  simp +contextual (maxDischargeDepth := 200) [*]

@[simp] theorem queueOk_consoleRefuse (s : State) (hs : QueueOk s) :
    QueueOk (consoleRefuse s) := by
  unfold consoleRefuse
  simp +contextual (maxDischargeDepth := 200) [*]

@[simp] theorem queueOk_queueRecords (s : State) (n : Nat) (hs : QueueOk s) :
    QueueOk (queueRecords s n) := by
  unfold queueRecords
  simp +contextual (maxDischargeDepth := 200) [*]

@[simp] theorem queueOk_baseline (s : State) (k : Context) (own : Report) (rs : List Report) (word : Nat → Dword) (hs : QueueOk s) :
    QueueOk (baseline s k own rs word) := by
  unfold baseline
  simp +contextual (maxDischargeDepth := 200) [*]

@[simp] theorem queueOk_suspend (no : Nat) (s : State) (d : Context) (hs : QueueOk s) :
    QueueOk (suspend no s d) := by
  unfold suspend
  simp +contextual (maxDischargeDepth := 200) [*]

@[simp] theorem queueOk_noMajority (s : State) (k : Context) (word : Nat → Dword) (hs : QueueOk s) :
    QueueOk (noMajority s k word) := by
  unfold noMajority
  simp +contextual (maxDischargeDepth := 200) [*]

@[simp] theorem queueOk_dropOdd (s : State) (k : Context) (odd : List Report) (hs : QueueOk s) :
    QueueOk (dropOdd s k odd) := by
  unfold dropOdd
  simp +contextual (maxDischargeDepth := 200) [*]

@[simp] theorem queueOk_adjudicate (s : State) (k : Context) (own : Report) (rs : List Report) (hs : QueueOk s) :
    QueueOk (adjudicate s k own rs) := by
  unfold adjudicate
  dsimp only
  repeat' (first | (simp +contextual (maxDischargeDepth := 200) [*]; done) | split | (apply queueOk_foldl) | (intro _ _ _) | simp +contextual (maxDischargeDepth := 200) [*])

end Sys2Proof.Machine
end

