-- ==== Sys2Proof/Laws/Frame.lean ====
section
/-! SUPPORT. What each operation can change: one lemma per operation, which names the parts of State that it may write (its
hypotheses) and says that every other part stays. -/

set_option linter.unusedTactic false
set_option linter.unreachableTactic false
set_option linter.unusedSimpArgs false

namespace Sys2Proof.Machine

@[simp ↓] theorem erase_ite (κ : Mask) (c : Prop) [Decidable c] (a b : State) :
    erase κ (if c then a else b) = if c then erase κ a else erase κ b := by
  split <;> rfl

@[simp ↓] theorem erase_foldl {α : Type} (κ : Mask) (f : State → α → State) (h : ∀ s x, erase κ (f s x) = erase κ s)
    (l : List α) (s : State) : erase κ (l.foldl f s) = erase κ s := by
  induction l generalizing s with
  | nil => rfl
  | cons a l ih => rw [List.foldl_cons, ih, h]

theorem erase_part {α : Type} (b : Bool) (d x y : α) (h : b = true ∨ x = y) :
    (if b = true then d else x) = if b = true then d else y := by
  rcases h with h | h <;> simp [h]

/-- Outside the chosen parts the two agree. -/
@[simp] def SameTray (κ : Mask) (x X : Tray) : Prop :=
  (κ.status = true ∨ x.status = X.status) ∧ (κ.capCeil = true ∨ x.capCeil = X.capCeil) ∧
  (κ.tray = true ∨ (x.smbAddrHigh = X.smbAddrHigh ∧ x.smbActive = X.smbActive ∧ x.smbDead = X.smbDead ∧ x.pins = X.pins ∧ x.cycleReason = X.cycleReason ∧ x.pwrcycLow = X.pwrcycLow ∧ x.view = X.view ∧ x.pads = X.pads))

theorem eraseTray_same (κ : Mask) (x X : Tray) (h : x = X ∨ SameTray κ x X) : eraseTray κ x = eraseTray κ X := by
  rcases h with rfl | h
  · rfl
  · unfold eraseTray
    simp only [SameTray] at h
    repeat' split
    all_goals simp_all

/-- Outside the chosen parts the two agree. -/
@[simp] def SameCab (κ : Mask) (x X : Cabinet) : Prop :=
  (κ.arrivals = true ∨ (x.nextSeq = X.nextSeq ∧ x.queue = X.queue ∧ x.dropped = X.dropped ∧ x.droppedFirst = X.droppedFirst ∧ x.deferred = X.deferred)) ∧ (κ.aCounter = true ∨ x.aCounter = X.aCounter) ∧
  (κ.cab = true ∨ (x.failed = X.failed ∧ x.failTime = X.failTime ∧ x.store = X.store ∧ x.storeLost = X.storeLost ∧ x.storeCfg = X.storeCfg ∧ x.reclaim = X.reclaim ∧ x.opTime = X.opTime ∧ x.cycles = X.cycles ∧ x.meters = X.meters ∧ x.meterDue = X.meterDue ∧ x.cursors = X.cursors ∧ x.marks = X.marks))

theorem eraseCab_same (κ : Mask) (x X : Cabinet) (h : x = X ∨ SameCab κ x X) : eraseCab κ x = eraseCab κ X := by
  rcases h with rfl | h
  · rfl
  · unfold eraseCab
    simp only [SameCab] at h
    repeat' split
    all_goals simp_all

/-- Outside the chosen parts the two agree. -/
@[simp] def SameHang (κ : Mask) (x X : Hang) : Prop :=
  (κ.gens = true ∨ x.gens = X.gens) ∧
  (κ.hang = true ∨ (x.requests = X.requests ∧ x.running = X.running ∧ x.stale = X.stale ∧ x.hbCount = X.hbCount ∧ x.hbAt = X.hbAt ∧ x.fires = X.fires ∧ x.windowOpen = X.windowOpen ∧ x.restarted = X.restarted ∧ x.fwUp = X.fwUp ∧ x.heldRef = X.heldRef ∧ x.refOk = X.refOk ∧ x.lossOn = X.lossOn ∧ x.lossTimeout = X.lossTimeout ∧ x.lossAction = X.lossAction ∧ x.hbCfg = X.hbCfg ∧ x.grace = X.grace ∧ x.hostLost = X.hostLost ∧ x.hostBeats = X.hostBeats ∧ x.quiesce = X.quiesce ∧ x.quiesceAt = X.quiesceAt ∧ x.cycleReq = X.cycleReq ∧ x.cycleWant = X.cycleWant ∧ x.staleGen = X.staleGen))

theorem eraseHang_same (κ : Mask) (x X : Hang) (h : x = X ∨ SameHang κ x X) : eraseHang κ x = eraseHang κ X := by
  rcases h with rfl | h
  · rfl
  · unfold eraseHang
    simp only [SameHang] at h
    repeat' split
    all_goals simp_all

/-- Outside the chosen parts the two agree. -/
@[simp] def SameArb (κ : Mask) (x X : Arbiter) : Prop :=
  (κ.cap = true ∨ x.cap = X.cap) ∧
  (κ.arb = true ∨ (x.estimate = X.estimate ∧ x.atFloor = X.atFloor ∧ x.replans = X.replans ∧ x.segFails = X.segFails ∧ x.segDown = X.segDown ∧ x.segPage = X.segPage ∧ x.segStatus = X.segStatus ∧ x.segFault = X.segFault ∧ x.writes = X.writes ∧ x.trips = X.trips ∧ x.hubTherm = X.hubTherm ∧ x.tripDue = X.tripDue ∧ x.hubOff = X.hubOff ∧ x.mfrOk = X.mfrOk ∧ x.pgood = X.pgood))

theorem eraseArb_same (κ : Mask) (x X : Arbiter) (h : x = X ∨ SameArb κ x X) : eraseArb κ x = eraseArb κ X := by
  rcases h with rfl | h
  · rfl
  · unfold eraseArb
    simp only [SameArb] at h
    repeat' split
    all_goals simp_all

@[simp ↓] theorem erase_lit (κ : Mask) (X : State) (free : Nat) (feed : Bool) (now : Nat) (fe : FrontEnd) (regs : Regs) (tray : Tray) (panel : Panel) (nor : Nor) (cab : Cabinet) (drawer : Drawer) (arm : Armoire) (svc : Service) (hutch : HutchLive) (parts : Table Part) (fields : Table Field) (guards : Table Guard) (tiles : Table TileBanks) (groups : List Group) (side : Sideboard) (lanes : Table Lane) (hang : Hang) (arb : Arbiter) (boot : Boot) (sched : BenchSched) (sig : Signer) (storms : List (Nat × Storm)) (out : List Out)
    (h_free : κ.free = true ∨ free = X.free)
    (h_feed : κ.feed = true ∨ feed = X.feed)
    (h_now : κ.now = true ∨ now = X.now)
    (h_fe : κ.fe = true ∨ fe = X.fe)
    (h_regs : κ.regs = true ∨ regs = X.regs)
    (h_tray : tray = X.tray ∨ SameTray κ tray X.tray)
    (h_panel : κ.panel = true ∨ panel = X.panel)
    (h_nor : κ.nor = true ∨ nor = X.nor)
    (h_cab : cab = X.cab ∨ SameCab κ cab X.cab)
    (h_drawer : κ.drawer = true ∨ drawer = X.drawer)
    (h_arm : κ.arm = true ∨ arm = X.arm)
    (h_svc : κ.svc = true ∨ svc = X.svc)
    (h_hutch : κ.hutch = true ∨ hutch = X.hutch)
    (h_parts : κ.parts = true ∨ parts = X.parts)
    (h_fields : κ.fields = true ∨ fields = X.fields)
    (h_guards : κ.guards = true ∨ guards = X.guards)
    (h_tiles : κ.tiles = true ∨ tiles = X.tiles)
    (h_groups : κ.groups = true ∨ groups = X.groups)
    (h_side : κ.side = true ∨ side = X.side)
    (h_lanes : κ.lanes = true ∨ lanes = X.lanes)
    (h_hang : hang = X.hang ∨ SameHang κ hang X.hang)
    (h_arb : arb = X.arb ∨ SameArb κ arb X.arb)
    (h_boot : κ.boot = true ∨ boot = X.boot)
    (h_sched : κ.sched = true ∨ sched = X.sched)
    (h_sig : κ.sig = true ∨ sig = X.sig)
    (h_storms : κ.storms = true ∨ storms = X.storms)
    (h_out : κ.out = true ∨ out = X.out) :
    erase κ ⟨X.pending, free, feed, now, X.mfg, fe, regs, tray, panel, nor, cab, drawer, arm, svc, hutch, parts, fields, guards, tiles, groups, side, lanes, hang, arb, boot, sched, sig, storms, out⟩ = erase κ X := by
  unfold erase
  congr 1 <;> first | (apply erase_part; assumption) | (apply eraseTray_same; assumption) | (apply eraseCab_same; assumption) |
    (apply eraseHang_same; assumption) | (apply eraseArb_same; assumption)

theorem erase_foldl_fst {α β : Type} (κ : Mask) (f : State × β → α → State × β)
    (h : ∀ a x, erase κ (f a x).1 = erase κ a.1) (l : List α) (a : State × β) : erase κ (l.foldl f a).1 = erase κ a.1 := by
  induction l generalizing a with
  | nil => rfl
  | cons x l ih => rw [List.foldl_cons, ih, h]

@[simp ↓] theorem erase_setField (κ : Mask) (s : State) (f : Nat) (x : Field)
    (h_fields : κ.fields = true) :
    erase κ (setField s f x) = erase κ s := by
  unfold setField
  simp [*]

@[simp ↓] theorem erase_modField (κ : Mask) (s : State) (f : Nat) (g : Field → Field)
    (h_fields : κ.fields = true) :
    erase κ (modField s f g) = erase κ s := by
  unfold modField
  simp [*]

@[simp ↓] theorem erase_modFields (κ : Mask) (s : State) (fs : List Nat) (g : Field → Field)
    (h_fields : κ.fields = true) :
    erase κ (modFields s fs g) = erase κ s := by
  unfold modFields
  simp [*]

@[simp ↓] theorem erase_setPart (κ : Mask) (s : State) (p : Nat) (x : Part)
    (h_parts : κ.parts = true) :
    erase κ (setPart s p x) = erase κ s := by
  unfold setPart
  simp [*]

@[simp ↓] theorem erase_modPart (κ : Mask) (s : State) (p : Nat) (g : Part → Part)
    (h_parts : κ.parts = true) :
    erase κ (modPart s p g) = erase κ s := by
  unfold modPart
  repeat' (first | (simp [*]; done) | split | (refine erase_foldl _ _ ?_ _ _; intro _ _))

@[simp ↓] theorem erase_setGuard (κ : Mask) (s : State) (t : Nat) (x : Guard)
    (h_guards : κ.guards = true) :
    erase κ (setGuard s t x) = erase κ s := by
  unfold setGuard
  simp [*]

@[simp ↓] theorem erase_modGuard (κ : Mask) (s : State) (t : Nat) (g : Guard → Guard)
    (h_guards : κ.guards = true) :
    erase κ (modGuard s t g) = erase κ s := by
  unfold modGuard
  simp [*]

@[simp ↓] theorem erase_modLive (κ : Mask) (s : State) (t : Nat) (g : TileCount → TileCount)
    (h_tiles : κ.tiles = true) :
    erase κ (modLive s t g) = erase κ s := by
  unfold modLive
  simp [*]

@[simp ↓] theorem erase_setSlot (κ : Mask) (s : State) (q : Nat) (x : QSlot)
    (h_fe : κ.fe = true) :
    erase κ (setSlot s q x) = erase κ s := by
  unfold setSlot
  simp [*]

@[simp ↓] theorem erase_modSlot (κ : Mask) (s : State) (q : Nat) (g : QSlot → QSlot)
    (h_fe : κ.fe = true) :
    erase κ (modSlot s q g) = erase κ s := by
  unfold modSlot
  simp [*]

@[simp ↓] theorem erase_modLane (κ : Mask) (s : State) (l : Nat) (g : Lane → Lane)
    (h_lanes : κ.lanes = true) :
    erase κ (modLane s l g) = erase κ s := by
  unfold modLane
  simp [*]

@[simp ↓] theorem erase_modCursor (κ : Mask) (s : State) (t : Nat) (g : Cursor → Cursor)
    (h_cab : κ.cab = true) :
    erase κ (modCursor s t g) = erase κ s := by
  unfold modCursor
  simp [*]

@[simp ↓] theorem erase_setPin (κ : Mask) (s : State) (p : PinId) (x : Pin)
    (h_tray : κ.tray = true) :
    erase κ (setPin s p x) = erase κ s := by
  unfold setPin
  simp [*]

@[simp ↓] theorem erase_drive (κ : Mask) (s : State) (o : Out)
    (h_out : κ.out = true) :
    erase κ (drive s o) = erase κ s := by
  unfold drive
  simp [*]

@[simp ↓] theorem erase_advFree (κ : Mask) (s : State)
    (h_free : κ.free = true) :
    erase κ (advFree s) = erase κ s := by
  unfold advFree
  simp [*]

@[simp ↓] theorem erase_countField (κ : Mask) (s : State) (f : Nat) (g : FieldCount → FieldCount)
    (h_fields : κ.fields = true) :
    erase κ (countField s f g) = erase κ s := by
  unfold countField
  simp [*]

@[simp ↓] theorem erase_countTile (κ : Mask) (s : State) (log : Nat) (g : TileCount → TileCount)
    (h_tiles : κ.tiles = true) :
    erase κ (countTile s log g) = erase κ s := by
  unfold countTile
  simp [*]

@[simp ↓] theorem erase_bumpGen (κ : Mask) (s : State) (d : Nat)
    (h_gens : κ.gens = true) :
    erase κ (bumpGen s d) = erase κ s := by
  unfold bumpGen
  simp [*]

@[simp ↓] theorem erase_bumpGens (κ : Mask) (s : State) (ds : List Nat)
    (h_gens : κ.gens = true) :
    erase κ (bumpGens s ds) = erase κ s := by
  unfold bumpGens
  simp [*]

@[simp ↓] theorem erase_raiseStatus (κ : Mask) (s : State) (mask : BitVec 16)
    (h_out : κ.out = true) (h_status : κ.status = true) :
    erase κ (raiseStatus s mask) = erase κ s := by
  unfold raiseStatus
  simp [*]

@[simp ↓] theorem erase_clearStatus (κ : Mask) (s : State) (mask : BitVec 16)
    (h_status : κ.status = true) :
    erase κ (clearStatus s mask) = erase κ s := by
  unfold clearStatus
  simp [*]

@[simp ↓] theorem erase_raiseBit (κ : Mask) (s : State) (b : Nat)
    (h_out : κ.out = true) (h_status : κ.status = true) :
    erase κ (raiseBit s b) = erase κ s := by
  unfold raiseBit
  simp [*]

@[simp ↓] theorem erase_clearBit (κ : Mask) (s : State) (b : Nat)
    (h_status : κ.status = true) :
    erase κ (clearBit s b) = erase κ s := by
  unfold clearBit
  simp [*]

@[simp ↓] theorem erase_setBitTo (κ : Mask) (s : State) (b : Nat) (v : Bool)
    (h_out : κ.out = true) (h_status : κ.status = true) :
    erase κ (setBitTo s b v) = erase κ s := by
  unfold setBitTo
  simp [*]

@[simp ↓] theorem erase_arrive (κ : Mask) (s : State) (r : Rec)
    (h_arrivals : κ.arrivals = true) :
    erase κ (arrive s r) = erase κ s := by
  unfold arrive
  simp [*]

@[simp ↓] theorem erase_emitBody (κ : Mask) (s : State) (typ tenant : Nat) (part : Option Nat) (b : Body)
    (h_arrivals : κ.arrivals = true) :
    erase κ (emitBody s typ tenant part b) = erase κ s := by
  unfold emitBody
  simp [*]

@[simp ↓] theorem erase_emit (κ : Mask) (s : State) (typ : Nat) (content : List Nat)
    (h_arrivals : κ.arrivals = true) :
    erase κ (emit s typ content) = erase κ s := by
  unfold emit
  simp [*]

@[simp ↓] theorem erase_emitPart (κ : Mask) (s : State) (typ : Nat) (part : Option Nat) (content : List Nat)
    (h_arrivals : κ.arrivals = true) :
    erase κ (emitPart s typ part content) = erase κ s := by
  unfold emitPart
  simp [*]

@[simp ↓] theorem erase_emitWords (κ : Mask) (s : State) (typ : Nat) (part : Option Nat) (ws : List Word)
    (h_arrivals : κ.arrivals = true) :
    erase κ (emitWords s typ part ws) = erase κ s := by
  unfold emitWords
  simp [*]

@[simp ↓] theorem erase_modImg (κ : Mask) (s : State) (g : HutchImage → HutchImage)
    (h_hutch : κ.hutch = true) :
    erase κ (modImg s g) = erase κ s := by
  unfold modImg
  simp [*]

@[simp ↓] theorem erase_modTileRec (κ : Mask) (s : State) (phys : Nat) (g : TileRec → TileRec)
    (h_hutch : κ.hutch = true) :
    erase κ (modTileRec s phys g) = erase κ s := by
  unfold modTileRec
  simp [*]

@[simp ↓] theorem erase_modCmd (κ : Mask) (s : State) (q e : Nat) (g : Cmd → Cmd)
    (h_fe : κ.fe = true) :
    erase κ (modCmd s q e g) = erase κ s := by
  unfold modCmd
  simp [*]

@[simp ↓] theorem erase_writeCompletion (κ : Mask) (s : State) (q e tag dom st handle : Nat) (notify notif : Bool) (res : List Word)
    (h_fe : κ.fe = true) (h_out : κ.out = true) :
    erase κ (writeCompletion s q e tag dom st handle notify notif res) = erase κ s := by
  unfold writeCompletion
  simp [*]

@[simp ↓] theorem erase_dropCmd (κ : Mask) (s : State) (q e : Nat)
    (h_fe : κ.fe = true) :
    erase κ (dropCmd s q e) = erase κ s := by
  unfold dropCmd
  simp [*]

@[simp ↓] theorem erase_completeWith (κ : Mask) (s : State) (c : Cmd) (st handle : Nat) (res : List Word)
    (h_fe : κ.fe = true) (h_out : κ.out = true) :
    erase κ (completeWith s c st handle res) = erase κ s := by
  unfold completeWith
  simp [*]

@[simp ↓] theorem erase_complete (κ : Mask) (s : State) (c : Cmd) (st : Nat) (res : List Word)
    (h_fe : κ.fe = true) (h_out : κ.out = true) :
    erase κ (complete s c st res) = erase κ s := by
  unfold complete
  simp [*]

@[simp ↓] theorem erase_applyAt (κ : Mask) (s : State) (c : Cmd) (waits : List Nat) (st : Nat) (res : List Word)
    (h_fe : κ.fe = true) (h_out : κ.out = true) :
    erase κ (applyAt s c waits st res) = erase κ s := by
  unfold applyAt
  simp [*]

@[simp ↓] theorem erase_fieldApplied (κ : Mask) (s : State) (f : Nat)
    (h_fe : κ.fe = true) (h_out : κ.out = true) :
    erase κ (fieldApplied s f) = erase κ s := by
  unfold fieldApplied
  simp [*]

@[simp ↓] theorem erase_retirementsApplied (κ : Mask) (s : State) (f : Nat)
    (h_fe : κ.fe = true) (h_out : κ.out = true) :
    erase κ (retirementsApplied s f) = erase κ s := by
  unfold retirementsApplied
  simp [*]

@[simp ↓] theorem erase_background (κ : Mask) (s : State) (c : Cmd)
    (h_fe : κ.fe = true) :
    erase κ (background s c) = erase κ s := by
  unfold background
  simp [*]

@[simp ↓] theorem erase_accept (κ : Mask) (s : State) (c : Cmd) (args : List Nat)
    (h_fe : κ.fe = true) (h_out : κ.out = true) :
    erase κ (accept s c args) = erase κ s := by
  unfold accept
  simp [*]

@[simp ↓] theorem erase_finishOp (κ : Mask) (s : State) (h st : Nat) (res : List Word)
    (h_fe : κ.fe = true) :
    erase κ (finishOp s h st res) = erase κ s := by
  unfold finishOp
  simp [*]

@[simp ↓] theorem erase_completeBulk (κ : Mask) (s : State) (c : Cmd) (st : Nat) (res : List Word) (bulk : List Word)
    (h_fe : κ.fe = true) (h_out : κ.out = true) :
    erase κ (completeBulk s c st res bulk) = erase κ s := by
  unfold completeBulk
  simp [*]

@[simp ↓] theorem erase_requestReset (κ : Mask) (s : State) (level dom cause : Nat) (escalated : Bool) (cmd : Option (Nat × Nat))
    (h_hang : κ.hang = true) :
    erase κ (requestReset s level dom cause escalated cmd) = erase κ s := by
  unfold requestReset
  simp [*]

@[simp ↓] theorem erase_autoReset (κ : Mask) (s : State) (level dom cause : Nat)
    (h_hang : κ.hang = true) :
    erase κ (autoReset s level dom cause) = erase κ s := by
  unfold autoReset
  simp [*]

@[simp ↓] theorem erase_startQuiesce (κ : Mask) (s : State)
    (h_fe : κ.fe = true) (h_hang : κ.hang = true) :
    erase κ (startQuiesce s) = erase κ s := by
  unfold startQuiesce
  simp [*]

@[simp ↓] theorem erase_wantCycle (κ : Mask) (s : State) (reason : Nat)
    (h_hang : κ.hang = true) :
    erase κ (wantCycle s reason) = erase κ s := by
  unfold wantCycle
  simp [*]

@[simp ↓] theorem erase_writeSnapshot (κ : Mask) (s : State)
    (h_nor : κ.nor = true) :
    erase κ (writeSnapshot s) = erase κ s := by
  unfold writeSnapshot
  simp [*]

@[simp ↓] theorem erase_raiseAlarm (κ : Mask) (s : State) (src : Nat)
    (h_arm : κ.arm = true) (h_out : κ.out = true) (h_status : κ.status = true) (h_arrivals : κ.arrivals = true) :
    erase κ (raiseAlarm s src) = erase κ s := by
  unfold raiseAlarm
  simp [*]

@[simp ↓] theorem erase_ackAlarm (κ : Mask) (s : State) (mask : Nat)
    (h_arm : κ.arm = true) (h_status : κ.status = true) (h_arrivals : κ.arrivals = true) :
    erase κ (ackAlarm s mask) = erase κ s := by
  unfold ackAlarm
  simp [*]

@[simp ↓] theorem erase_authFailed (κ : Mask) (s : State)
    (h_arm : κ.arm = true) (h_out : κ.out = true) (h_status : κ.status = true) (h_arrivals : κ.arrivals = true) :
    erase κ (authFailed s) = erase κ s := by
  unfold authFailed
  simp [*]

@[simp ↓] theorem erase_cursorsPast (κ : Mask) (s : State) (gone : List Rec)
    (h_cab : κ.cab = true) :
    erase κ (cursorsPast s gone) = erase κ s := by
  unfold cursorsPast
  simp [*]

@[simp ↓] theorem erase_advanceCursor (κ : Mask) (s : State) (t : Nat)
    (h_cab : κ.cab = true) :
    erase κ (advanceCursor s t) = erase κ s := by
  unfold advanceCursor
  simp [*]

@[simp ↓] theorem erase_emitQuarantine (κ : Mask) (s : State) (kind reason field source tile idx left : Nat)
    (h_arrivals : κ.arrivals = true) :
    erase κ (emitQuarantine s kind reason field source tile idx left) = erase κ s := by
  unfold emitQuarantine
  simp [*]

@[simp ↓] theorem erase_emitRelease (κ : Mask) (s : State) (kind reason field tile idx left : Nat)
    (h_arrivals : κ.arrivals = true) :
    erase κ (emitRelease s kind reason field tile idx left) = erase κ s := by
  unfold emitRelease
  simp [*]

@[simp ↓] theorem erase_declareNorFailed (κ : Mask) (s : State) (cause addr : Nat)
    (h_cab : κ.cab = true) (h_out : κ.out = true) (h_status : κ.status = true) (h_arrivals : κ.arrivals = true) :
    erase κ (declareNorFailed s cause addr) = erase κ s := by
  unfold declareNorFailed
  simp [*]

@[simp ↓] theorem erase_retireUnit (κ : Mask) (s : State) (u source : Nat)
    (h_cab : κ.cab = true) (h_hutch : κ.hutch = true) (h_out : κ.out = true) (h_status : κ.status = true) (h_arrivals : κ.arrivals = true) :
    erase κ (retireUnit s u source) = erase κ s := by
  unfold retireUnit
  dsimp only
  repeat' (first | (simp [*]; done) | split | (refine (erase_foldl _ _ ?_ _ _).trans ?_) | (intro _ _) | simp [*])

@[simp ↓] theorem erase_eraseUnits (κ : Mask) (s : State) (us : List Nat)
    (h_cab : κ.cab = true) (h_hutch : κ.hutch = true) (h_out : κ.out = true) (h_status : κ.status = true) (h_arrivals : κ.arrivals = true) :
    erase κ (eraseUnits s us) = erase κ s := by
  unfold eraseUnits
  simp [*]

@[simp ↓] theorem erase_reportUnit (κ : Mask) (s : State) (bad : Option Nat)
    (h_cab : κ.cab = true) (h_hutch : κ.hutch = true) (h_out : κ.out = true) (h_status : κ.status = true) (h_arrivals : κ.arrivals = true) :
    erase κ (reportUnit s bad) = erase κ s := by
  unfold reportUnit
  repeat' (first | (simp [*]; done) | split | (refine erase_foldl _ _ ?_ _ _; intro _ _))

@[simp ↓] theorem erase_eraseRingSector (κ : Mask) (s : State) (k : Nat)
    (h_nor : κ.nor = true) (h_cab : κ.cab = true) (h_hutch : κ.hutch = true) (h_out : κ.out = true) (h_status : κ.status = true) (h_arrivals : κ.arrivals = true) :
    erase κ (eraseRingSector s k) = erase κ s := by
  unfold eraseRingSector
  simp [*]

@[simp ↓] theorem erase_clearAhead (κ : Mask) (s : State) (k : Nat)
    (h_nor : κ.nor = true) (h_cab : κ.cab = true) (h_hutch : κ.hutch = true) (h_out : κ.out = true) (h_status : κ.status = true) (h_arrivals : κ.arrivals = true) :
    erase κ (clearAhead s k) = erase κ s := by
  unfold clearAhead
  simp [*]

@[simp ↓] theorem erase_moveSector (κ : Mask) (s : State)
    (h_nor : κ.nor = true) (h_cab : κ.cab = true) (h_hutch : κ.hutch = true) (h_out : κ.out = true) (h_status : κ.status = true) (h_arrivals : κ.arrivals = true) :
    erase κ (moveSector s) = erase κ s := by
  unfold moveSector
  simp [*]

@[simp ↓] theorem erase_ringAppend (κ : Mask) (s : State) (r : Rec)
    (h_nor : κ.nor = true) (h_cab : κ.cab = true) (h_hutch : κ.hutch = true) (h_out : κ.out = true) (h_status : κ.status = true) (h_arrivals : κ.arrivals = true) :
    erase κ (ringAppend s r) = erase κ s := by
  unfold ringAppend
  simp [*]

@[simp ↓] theorem erase_storeAppend (κ : Mask) (s : State) (r : Rec)
    (h_cab : κ.cab = true) :
    erase κ (storeAppend s r) = erase κ s := by
  unfold storeAppend
  simp [*]

@[simp ↓] theorem erase_noteDropped (κ : Mask) (s : State)
    (h_arrivals : κ.arrivals = true) :
    erase κ (noteDropped s) = erase κ s := by
  unfold noteDropped
  simp [*]

@[simp ↓] theorem erase_commitFront (κ : Mask) (s : State)
    (h_nor : κ.nor = true) (h_cab : κ.cab = true) (h_hutch : κ.hutch = true) (h_out : κ.out = true) (h_status : κ.status = true) (h_arrivals : κ.arrivals = true) :
    erase κ (commitFront s) = erase κ s := by
  unfold commitFront
  repeat' (first | (simp [*]; done) | split | (refine erase_foldl _ _ ?_ _ _; intro _ _))

@[simp ↓] theorem erase_commitAll (κ : Mask) (s : State)
    (h_nor : κ.nor = true) (h_cab : κ.cab = true) (h_hutch : κ.hutch = true) (h_out : κ.out = true) (h_status : κ.status = true) (h_arrivals : κ.arrivals = true) :
    erase κ (commitAll s) = erase κ s := by
  unfold commitAll
  simp [*]

@[simp ↓] theorem erase_afterLoss (κ : Mask) (s : State)
    (h_feed : κ.feed = true) (h_now : κ.now = true) (h_fe : κ.fe = true) (h_regs : κ.regs = true) (h_tray : κ.tray = true) (h_panel : κ.panel = true) (h_cab : κ.cab = true) (h_drawer : κ.drawer = true) (h_arm : κ.arm = true) (h_svc : κ.svc = true) (h_hutch : κ.hutch = true) (h_parts : κ.parts = true) (h_fields : κ.fields = true) (h_guards : κ.guards = true) (h_tiles : κ.tiles = true) (h_groups : κ.groups = true) (h_side : κ.side = true) (h_lanes : κ.lanes = true) (h_hang : κ.hang = true) (h_arb : κ.arb = true) (h_boot : κ.boot = true) (h_sched : κ.sched = true) (h_sig : κ.sig = true) (h_storms : κ.storms = true) (h_status : κ.status = true) (h_capCeil : κ.capCeil = true) (h_arrivals : κ.arrivals = true) (h_aCounter : κ.aCounter = true) (h_gens : κ.gens = true) (h_cap : κ.cap = true) :
    erase κ (afterLoss s) = erase κ s := by
  unfold afterLoss
  repeat' (first | (simp [*]; done) | split | rfl)

@[simp ↓] theorem erase_loseFeed (κ : Mask) (s : State)
    (h_free : κ.free = true) (h_feed : κ.feed = true) (h_now : κ.now = true) (h_fe : κ.fe = true) (h_regs : κ.regs = true) (h_tray : κ.tray = true) (h_panel : κ.panel = true) (h_nor : κ.nor = true) (h_cab : κ.cab = true) (h_drawer : κ.drawer = true) (h_arm : κ.arm = true) (h_svc : κ.svc = true) (h_hutch : κ.hutch = true) (h_parts : κ.parts = true) (h_fields : κ.fields = true) (h_guards : κ.guards = true) (h_tiles : κ.tiles = true) (h_groups : κ.groups = true) (h_side : κ.side = true) (h_lanes : κ.lanes = true) (h_hang : κ.hang = true) (h_arb : κ.arb = true) (h_boot : κ.boot = true) (h_sched : κ.sched = true) (h_sig : κ.sig = true) (h_storms : κ.storms = true) (h_out : κ.out = true) (h_status : κ.status = true) (h_capCeil : κ.capCeil = true) (h_arrivals : κ.arrivals = true) (h_aCounter : κ.aCounter = true) (h_gens : κ.gens = true) (h_cap : κ.cap = true) :
    erase κ (loseFeed s) = erase κ s := by
  unfold loseFeed
  repeat' (first | (simp [*]; done) | split | (refine erase_foldl _ _ ?_ _ _; intro _ _))

@[simp ↓] theorem erase_emitDump (κ : Mask) (s : State) (outcome slot tenant size replaced : Nat)
    (h_arrivals : κ.arrivals = true) :
    erase κ (emitDump s outcome slot tenant size replaced) = erase κ s := by
  unfold emitDump
  simp [*]

@[simp ↓] theorem erase_writeStaged (κ : Mask) (s : State) (bad : Option Nat)
    (h_nor : κ.nor = true) (h_cab : κ.cab = true) (h_drawer : κ.drawer = true) (h_hutch : κ.hutch = true) (h_out : κ.out = true) (h_status : κ.status = true) (h_arrivals : κ.arrivals = true) :
    erase κ (writeStaged s bad) = erase κ s := by
  unfold writeStaged
  repeat' (first | (simp [*]; done) | split | (refine erase_foldl _ _ ?_ _ _; intro _ _))

@[simp ↓] theorem erase_syncMap (κ : Mask) (s : State) (f : Nat)
    (h_hutch : κ.hutch = true) :
    erase κ (syncMap s f) = erase κ s := by
  unfold syncMap
  simp [*]

@[simp ↓] theorem erase_modMap (κ : Mask) (s : State) (f : Nat) (g : FieldMap → FieldMap)
    (h_hutch : κ.hutch = true) (h_fields : κ.fields = true) :
    erase κ (modMap s f g) = erase κ s := by
  unfold modMap
  simp [*]

@[simp ↓] theorem erase_settleLevel (κ : Mask) (s : State) (f : Nat) (fresh : Bool)
    (h_fields : κ.fields = true) (h_arrivals : κ.arrivals = true) :
    erase κ (settleLevel s f fresh) = erase κ s := by
  unfold settleLevel
  simp [*]

@[simp ↓] theorem erase_emitRemap (κ : Mask) (s : State) (f source : Nat) (epoch : Bool) (pos old new : Nat)
    (h_arrivals : κ.arrivals = true) :
    erase κ (emitRemap s f source epoch pos old new) = erase κ s := by
  unfold emitRemap
  simp [*]

@[simp ↓] theorem erase_emitConflict (κ : Mask) (s : State) (f source : Nat) (gen : BitVec 6) (pos kept rejected : Nat)
    (h_arrivals : κ.arrivals = true) :
    erase κ (emitConflict s f source gen pos kept rejected) = erase κ s := by
  unfold emitConflict
  simp [*]

@[simp ↓] theorem erase_fallVacant (κ : Mask) (s : State) (f pos old : Nat)
    (h_hutch : κ.hutch = true) (h_parts : κ.parts = true) (h_fields : κ.fields = true) (h_arrivals : κ.arrivals = true) :
    erase κ (fallVacant s f pos old) = erase κ s := by
  unfold fallVacant
  dsimp only
  repeat' (first | (simp [*]; done) | split | (refine (erase_foldl _ _ ?_ _ _).trans ?_) | (intro _ _) | simp [*])

@[simp ↓] theorem erase_restartPasses (κ : Mask) (s : State) (f pos : Nat)
    (h_side : κ.side = true) :
    erase κ (restartPasses s f pos) = erase κ s := by
  unfold restartPasses
  simp [*]

@[simp ↓] theorem erase_takePlace (κ : Mask) (s : State) (f pos p : Nat)
    (h_hutch : κ.hutch = true) (h_fields : κ.fields = true) (h_side : κ.side = true) :
    erase κ (takePlace s f pos p) = erase κ s := by
  unfold takePlace
  simp [*]

@[simp ↓] theorem erase_queueTest (κ : Mask) (s : State) (f p trigger corner : Nat)
    (h_fields : κ.fields = true) (h_sched : κ.sched = true) :
    erase κ (queueTest s f p trigger corner) = erase κ s := by
  unfold queueTest
  repeat' (first | (simp [*]; done) | split | rfl)

@[simp ↓] theorem erase_markQuarantined (κ : Mask) (s : State) (f p reason source : Nat)
    (h_hutch : κ.hutch = true) (h_arrivals : κ.arrivals = true) :
    erase κ (markQuarantined s f p reason source) = erase κ s := by
  unfold markQuarantined
  simp [*]

@[simp ↓] theorem erase_replaceAtSeam (κ : Mask) (s : State) (f p reason source : Nat)
    (h_fields : κ.fields = true) :
    erase κ (replaceAtSeam s f p reason source) = erase κ s := by
  unfold replaceAtSeam
  dsimp only
  repeat' (first | (simp [*]; done) | split | (refine (erase_foldl _ _ ?_ _ _).trans ?_) | (intro _ _) | simp [*])

@[simp ↓] theorem erase_quarantineWorn (κ : Mask) (s : State) (f p reason source : Nat)
    (h_hutch : κ.hutch = true) (h_fields : κ.fields = true) (h_arrivals : κ.arrivals = true) :
    erase κ (quarantineWorn s f p reason source) = erase κ s := by
  unfold quarantineWorn
  simp [*]

@[simp ↓] theorem erase_markSuspect (κ : Mask) (s : State) (f p : Nat)
    (h_hutch : κ.hutch = true) (h_fields : κ.fields = true) (h_arrivals : κ.arrivals = true) :
    erase κ (markSuspect s f p) = erase κ s := by
  unfold markSuspect
  simp [*]

@[simp ↓] theorem erase_suspectAndTest (κ : Mask) (s : State) (f p trigger : Nat)
    (h_hutch : κ.hutch = true) (h_fields : κ.fields = true) (h_sched : κ.sched = true) (h_arrivals : κ.arrivals = true) :
    erase κ (suspectAndTest s f p trigger) = erase κ s := by
  unfold suspectAndTest
  simp [*]

@[simp ↓] theorem erase_installLayout (κ : Mask) (s : State) (f : Nat) (m : FieldMap) (red : Bool)
    (h_hutch : κ.hutch = true) (h_fields : κ.fields = true) (h_arrivals : κ.arrivals = true) :
    erase κ (installLayout s f m red) = erase κ s := by
  unfold installLayout
  simp [*]

@[simp ↓] theorem erase_layOut (κ : Mask) (s : State) (f opmode : Nat)
    (h_hutch : κ.hutch = true) (h_fields : κ.fields = true) (h_arrivals : κ.arrivals = true) :
    erase κ (layOut s f opmode) = erase κ s := by
  unfold layOut
  simp [*]

@[simp ↓] theorem erase_rewriteTables (κ : Mask) (s : State) (f : Nat)
    (h_hutch : κ.hutch = true) (h_parts : κ.parts = true) (h_fields : κ.fields = true) (h_side : κ.side = true) (h_arrivals : κ.arrivals = true) :
    erase κ (rewriteTables s f) = erase κ s := by
  unfold rewriteTables
  dsimp only
  repeat' (first | (simp [*]; done) | split | (refine (erase_foldl _ _ ?_ _ _).trans ?_) | (intro _ _) | simp [*])

@[simp ↓] theorem erase_emitStage (κ : Mask) (s : State) (stage : Nat) (failed : Bool) (wave cause ms : Nat) (done excl : List Nat) (content : List Word)
    (h_arrivals : κ.arrivals = true) :
    erase κ (emitStage s stage failed wave cause ms done excl content) = erase κ s := by
  unfold emitStage
  simp [*]

@[simp ↓] theorem erase_repeatStage (κ : Mask) (s : State)
    (h_fields : κ.fields = true) (h_boot : κ.boot = true) :
    erase κ (repeatStage s) = erase κ s := by
  unfold repeatStage
  simp [*]

@[simp ↓] theorem erase_setReducedBit (κ : Mask) (s : State)
    (h_out : κ.out = true) (h_status : κ.status = true) :
    erase κ (setReducedBit s) = erase κ s := by
  unfold setReducedBit
  simp [*]

@[simp ↓] theorem erase_excludeField (κ : Mask) (s : State) (f stage cause : Nat)
    (h_fields : κ.fields = true) :
    erase κ (excludeField s f stage cause) = erase κ s := by
  unfold excludeField
  simp [*]

@[simp ↓] theorem erase_excludeFields (κ : Mask) (s : State) (fs : List Nat) (stage cause : Nat)
    (h_fields : κ.fields = true) (h_boot : κ.boot = true) (h_out : κ.out = true) (h_status : κ.status = true) :
    erase κ (excludeFields s fs stage cause) = erase κ s := by
  unfold excludeFields
  simp [*]

@[simp ↓] theorem erase_settleBoot (κ : Mask) (s : State)
    (h_nor : κ.nor = true) (h_boot : κ.boot = true) (h_out : κ.out = true) (h_status : κ.status = true) (h_arrivals : κ.arrivals = true) :
    erase κ (settleBoot s) = erase κ s := by
  unfold settleBoot
  simp [*]

@[simp ↓] theorem erase_discardExports (κ : Mask) (s : State) (fs : List Nat)
    (h_guards : κ.guards = true) :
    erase κ (discardExports s fs) = erase κ s := by
  unfold discardExports
  simp [*]

@[simp ↓] theorem erase_holdPartition (κ : Mask) (s : State) (f : Nat)
    (h_parts : κ.parts = true) (h_guards : κ.guards = true) :
    erase κ (holdPartition s f) = erase κ s := by
  unfold holdPartition
  repeat' (first | (simp [*]; done) | split | (refine erase_foldl _ _ ?_ _ _; intro _ _))

@[simp ↓] theorem erase_resetForLoss (κ : Mask) (s : State) (f cause : Nat)
    (h_parts : κ.parts = true) (h_fields : κ.fields = true) (h_guards : κ.guards = true) (h_hang : κ.hang = true) :
    erase κ (resetForLoss s f cause) = erase κ s := by
  unfold resetForLoss
  dsimp only
  repeat' (first | (simp [*]; done) | split | (refine (erase_foldl _ _ ?_ _ _).trans ?_) | (intro _ _) | simp [*])

@[simp ↓] theorem erase_loseWith (κ : Mask) (s : State) (f w : Nat) (detail : Dword) (cause : Nat)
    (h_parts : κ.parts = true) (h_fields : κ.fields = true) (h_guards : κ.guards = true) (h_hang : κ.hang = true) (h_arrivals : κ.arrivals = true) :
    erase κ (loseWith s f w detail cause) = erase κ s := by
  unfold loseWith
  simp [*]

@[simp ↓] theorem erase_lostStep (κ : Mask) (s : State) (f trigger outcome : Nat) (cross : Bool) (tiles spare hold : Nat) (detail : Dword) (cause : Nat)
    (h_parts : κ.parts = true) (h_fields : κ.fields = true) (h_guards : κ.guards = true) (h_hang : κ.hang = true) (h_arrivals : κ.arrivals = true) :
    erase κ (lostStep s f trigger outcome cross tiles spare hold detail cause) = erase κ s := by
  unfold lostStep
  simp [*]

@[simp ↓] theorem erase_programFault (κ : Mask) (s : State) (f w : Nat) (detail : Dword)
    (h_parts : κ.parts = true) (h_fields : κ.fields = true) (h_guards : κ.guards = true) (h_hang : κ.hang = true) (h_arrivals : κ.arrivals = true) :
    erase κ (programFault s f w detail) = erase κ s := by
  unfold programFault
  simp [*]

@[simp ↓] theorem erase_emitCapChange (κ : Mask) (s : State) (source rail limit : Nat)
    (h_arrivals : κ.arrivals = true) :
    erase κ (emitCapChange s source rail limit) = erase κ s := by
  unfold emitCapChange
  simp [*]

@[simp ↓] theorem erase_emitClockChange (κ : Mask) (s : State) (f cause new old : Nat)
    (h_fields : κ.fields = true) (h_arrivals : κ.arrivals = true) :
    erase κ (emitClockChange s f cause new old) = erase κ s := by
  unfold emitClockChange
  simp [*]

@[simp ↓] theorem erase_queueWrite (κ : Mask) (s : State) (z page cmd value : Nat)
    (h_arb : κ.arb = true) :
    erase κ (queueWrite s z page cmd value) = erase κ s := by
  unfold queueWrite
  simp [*]

@[simp ↓] theorem erase_queueVsram (κ : Mask) (s : State) (f mv : Nat)
    (h_arb : κ.arb = true) :
    erase κ (queueVsram s f mv) = erase κ s := by
  unfold queueVsram
  simp [*]

@[simp ↓] theorem erase_queueVcore (κ : Mask) (s : State) (f mv : Nat)
    (h_arb : κ.arb = true) :
    erase κ (queueVcore s f mv) = erase κ s := by
  unfold queueVcore
  simp [*]

@[simp ↓] theorem erase_startChange (κ : Mask) (s : State) (f : Nat)
    (h_fields : κ.fields = true) (h_arb : κ.arb = true) :
    erase κ (startChange s f) = erase κ s := by
  unfold startChange
  simp [*]

@[simp ↓] theorem erase_planPart (κ : Mask) (s : State) (p : Nat) (x : Part) (share : Rat)
    (h_parts : κ.parts = true) :
    erase κ (planPart s p x share) = erase κ s := by
  unfold planPart
  dsimp only
  repeat' (first | (simp [*]; done) | split | (refine (erase_foldl _ _ ?_ _ _).trans ?_) | (intro _ _) | simp [*])

@[simp ↓] theorem erase_relaxRail (κ : Mask) (s : State) (p : Nat) (x : Part)
    (h_parts : κ.parts = true) :
    erase κ (relaxRail s p x) = erase κ s := by
  unfold relaxRail
  simp [*]

@[simp ↓] theorem erase_replan (κ : Mask) (s : State)
    (h_parts : κ.parts = true) (h_fields : κ.fields = true) (h_arb : κ.arb = true) (h_arrivals : κ.arrivals = true) :
    erase κ (replan s) = erase κ s := by
  unfold replan
  simp [*]

@[simp ↓] theorem erase_applyExcess (κ : Mask) (s : State) (f : Nat)
    (h_parts : κ.parts = true) (h_fields : κ.fields = true) (h_guards : κ.guards = true) (h_hang : κ.hang = true) (h_arb : κ.arb = true) (h_arrivals : κ.arrivals = true) :
    erase κ (applyExcess s f) = erase κ s := by
  unfold applyExcess
  dsimp only
  repeat' (first | (simp [*]; done) | split | (refine (erase_foldl _ _ ?_ _ _).trans ?_) | (intro _ _) | simp [*])

@[simp ↓] theorem erase_noteCause (κ : Mask) (s : State) (phys kind severity : Nat) (word : Dword) (seen : Detection)
    (h_hutch : κ.hutch = true) :
    erase κ (noteCause s phys kind severity word seen) = erase κ s := by
  unfold noteCause
  simp [*]

@[simp ↓] theorem erase_confirmFinding (κ : Mask) (s : State) (kind confirm severity phys : Nat) (seen : Detection) (d0 d1 d2 : Dword) (eventSeq : Nat)
    (h_parts : κ.parts = true) (h_sig : κ.sig = true) :
    erase κ (confirmFinding s kind confirm severity phys seen d0 d1 d2 eventSeq) = erase κ s := by
  unfold confirmFinding
  dsimp only
  repeat' (first | (simp [*]; done) | split | (refine (erase_foldl _ _ ?_ _ _).trans ?_) | (intro _ _) | simp [*])

@[simp ↓] theorem erase_wardenSends (κ : Mask) (s : State) (f typ : Nat) (part : Option Nat) (body : List Word)
    (h_fields : κ.fields = true) (h_arrivals : κ.arrivals = true) :
    erase κ (wardenSends s f typ part body) = erase κ s := by
  unfold wardenSends
  simp [*]

@[simp ↓] theorem erase_drainLinks (κ : Mask) (s : State)
    (h_fields : κ.fields = true) (h_arrivals : κ.arrivals = true) :
    erase κ (drainLinks s) = erase κ s := by
  unfold drainLinks
  repeat' (first | (simp [*]; done) | split | (refine erase_foldl _ _ ?_ _ _; intro _ _))

@[simp ↓] theorem erase_wring (κ : Mask) (s : State) (f typ : Nat) (detail : List Nat)
    (h_fields : κ.fields = true) :
    erase κ (wring s f typ detail) = erase κ s := by
  unfold wring
  simp [*]

@[simp ↓] theorem erase_hubRequest (κ : Mask) (s : State) (c : Cmd)
    (h_fields : κ.fields = true) :
    erase κ (hubRequest s c) = erase κ s := by
  unfold hubRequest
  simp [*]

@[simp ↓] theorem erase_sampleHeader (κ : Mask) (s : State) (f : Nat) (header : List Word)
    (h_fields : κ.fields = true) :
    erase κ (sampleHeader s f header) = erase κ s := by
  unfold sampleHeader
  simp [*]

@[simp ↓] theorem erase_gring (κ : Mask) (s : State) (t typ arg cycle : Nat) (detail : Dword)
    (h_guards : κ.guards = true) :
    erase κ (gring s t typ arg cycle detail) = erase κ s := by
  unfold gring
  simp [*]

@[simp ↓] theorem erase_addSource (κ : Mask) (s : State) (f : Nat) (d : SourceDetail) (more : Nat)
    (h_fields : κ.fields = true) :
    erase κ (addSource s f d more) = erase κ s := by
  unfold addSource
  dsimp only
  repeat' (first | (simp [*]; done) | split | (refine (erase_foldl _ _ ?_ _ _).trans ?_) | (intro _ _) | simp [*])

@[simp ↓] theorem erase_latchLevel (κ : Mask) (s : State) (f cls tile master access : Nat) (loc : Word) (detail : Dword)
    (h_fields : κ.fields = true) :
    erase κ (latchLevel s f cls tile master access loc detail) = erase κ s := by
  unfold latchLevel
  simp [*]

@[simp ↓] theorem erase_noteSpareFail (κ : Mask) (s : State) (f cls spare : Nat)
    (h_fields : κ.fields = true) :
    erase κ (noteSpareFail s f cls spare) = erase κ s := by
  unfold noteSpareFail
  simp [*]

@[simp ↓] theorem erase_openStorm (κ : Mask) (s : State) (f rootCount : Nat) (droop : Bool)
    (h_fields : κ.fields = true) :
    erase κ (openStorm s f rootCount droop) = erase κ s := by
  unfold openStorm
  dsimp only
  repeat' (first | (simp [*]; done) | split | (refine (erase_foldl _ _ ?_ _ _).trans ?_) | (intro _ _) | simp [*])

@[simp ↓] theorem erase_sendSummary (κ : Mask) (s : State) (f : Nat)
    (h_fields : κ.fields = true) (h_arrivals : κ.arrivals = true) :
    erase κ (sendSummary s f) = erase κ s := by
  unfold sendSummary
  dsimp only
  repeat' (first | (simp [*]; done) | split | (refine (erase_foldl _ _ ?_ _ _).trans ?_) | (intro _ _) | simp [*])

@[simp ↓] theorem erase_closeEpisode (κ : Mask) (s : State) (f : Nat)
    (h_fields : κ.fields = true) (h_arrivals : κ.arrivals = true) :
    erase κ (closeEpisode s f) = erase κ s := by
  unfold closeEpisode
  repeat' (first | (simp [*]; done) | split | (refine erase_foldl _ _ ?_ _ _; intro _ _))

@[simp ↓] theorem erase_dropPins (κ : Mask) (s : State) (f : Nat)
    (h_fields : κ.fields = true) (h_guards : κ.guards = true) :
    erase κ (dropPins s f) = erase κ s := by
  unfold dropPins
  repeat' (first | (simp [*]; done) | split | rfl)

@[simp ↓] theorem erase_faultsAtSeam (κ : Mask) (s : State) (f : Nat)
    (h_fields : κ.fields = true) (h_guards : κ.guards = true) :
    erase κ (faultsAtSeam s f) = erase κ s := by
  unfold faultsAtSeam
  dsimp only
  repeat' (first | (simp [*]; done) | split | (refine (erase_foldl _ _ ?_ _ _).trans ?_) | (intro _ _) | simp [*])

@[simp ↓] theorem erase_noteReleased (κ : Mask) (s : State) (f : Nat)
    (h_fields : κ.fields = true) :
    erase κ (noteReleased s f) = erase κ s := by
  unfold noteReleased
  simp [*]

@[simp ↓] theorem erase_countTap (κ : Mask) (s : State) (f : Nat) (e : EngineTap)
    (h_tiles : κ.tiles = true) :
    erase κ (countTap s f e) = erase κ s := by
  unfold countTap
  simp [*]

@[simp ↓] theorem erase_countCycles (κ : Mask) (s : State) (f cycles : Nat)
    (h_fields : κ.fields = true) :
    erase κ (countCycles s f cycles) = erase κ s := by
  unfold countCycles
  simp [*]

@[simp ↓] theorem erase_copyBank (κ : Mask) (s : State) (f bank : Nat)
    (h_fields : κ.fields = true) (h_tiles : κ.tiles = true) :
    erase κ (copyBank s f bank) = erase κ s := by
  unfold copyBank
  simp [*]

@[simp ↓] theorem erase_endCompute (κ : Mask) (s : State) (f : Nat) (partly : Bool)
    (h_fields : κ.fields = true) (h_tiles : κ.tiles = true) :
    erase κ (endCompute s f partly) = erase κ s := by
  unfold endCompute
  repeat' (first | (simp [*]; done) | split | (refine erase_foldl _ _ ?_ _ _; intro _ _))

@[simp ↓] theorem erase_startCompute (κ : Mask) (s : State) (f : Nat)
    (h_fields : κ.fields = true) (h_tiles : κ.tiles = true) :
    erase κ (startCompute s f) = erase κ s := by
  unfold startCompute
  dsimp only
  repeat' (first | (simp [*]; done) | split | (refine (erase_foldl _ _ ?_ _ _).trans ?_) | (intro _ _) | simp [*])

@[simp ↓] theorem erase_latchField (κ : Mask) (s : State) (f : Nat)
    (h_fields : κ.fields = true) (h_tiles : κ.tiles = true) :
    erase κ (latchField s f) = erase κ s := by
  unfold latchField
  dsimp only
  repeat' (first | (simp [*]; done) | split | (refine (erase_foldl _ _ ?_ _ _).trans ?_) | (intro _ _) | simp [*])

@[simp ↓] theorem erase_latchIdle (κ : Mask) (s : State) (f : Nat)
    (h_fields : κ.fields = true) (h_tiles : κ.tiles = true) :
    erase κ (latchIdle s f) = erase κ s := by
  unfold latchIdle
  simp [*]

@[simp ↓] theorem erase_countToEdge (κ : Mask) (s : State) (f cycles : Nat) (taps : List EngineTap)
    (h_fields : κ.fields = true) (h_tiles : κ.tiles = true) :
    erase κ (countToEdge s f cycles taps) = erase κ s := by
  unfold countToEdge
  simp [*]

@[simp ↓] theorem erase_actFreeze (κ : Mask) (s : State) (f : Nat) (freeze : Bool) (at_ : Nat)
    (h_fields : κ.fields = true) :
    erase κ (actFreeze s f freeze at_) = erase κ s := by
  unfold actFreeze
  simp [*]

@[simp ↓] theorem erase_finishFreeze (κ : Mask) (s : State) (p : Nat) (z : FreezePend) (acted lateNs : Nat)
    (h_fe : κ.fe = true) (h_parts : κ.parts = true) (h_out : κ.out = true) (h_arrivals : κ.arrivals = true) :
    erase κ (finishFreeze s p z acted lateNs) = erase κ s := by
  unfold finishFreeze
  generalize (partOf s p).map (·.job) = job
  dsimp only
  split <;> simp [*]

@[simp ↓] theorem erase_freezeAtSeam (κ : Mask) (s : State) (f : Nat)
    (h_fe : κ.fe = true) (h_parts : κ.parts = true) (h_fields : κ.fields = true) (h_out : κ.out = true) (h_arrivals : κ.arrivals = true) :
    erase κ (freezeAtSeam s f) = erase κ s := by
  unfold freezeAtSeam
  repeat' (first | (simp [*]; done) | split | (refine erase_foldl _ _ ?_ _ _; intro _ _))

@[simp ↓] theorem erase_seamCopies (κ : Mask) (s : State) (f : Nat)
    (h_fe : κ.fe = true) (h_parts : κ.parts = true) (h_fields : κ.fields = true) (h_tiles : κ.tiles = true) (h_out : κ.out = true) (h_arrivals : κ.arrivals = true) :
    erase κ (seamCopies s f) = erase κ s := by
  unfold seamCopies
  simp [*]

theorem erase_retireRow (κ : Mask) (s t : State) (f p row source : Nat) (h_hutch : κ.hutch = true) (h_arrivals : κ.arrivals = true)
    (h : retireRow s f p row source = some t) : erase κ t = erase κ s := by
  unfold retireRow at h
  dsimp only at h
  split at h
  · cases h
  · cases h
    split <;> simp [*]

@[simp ↓] theorem erase_markLink (κ : Mask) (s : State) (f p edge : Nat)
    (h_hutch : κ.hutch = true) :
    erase κ (markLink s f p edge) = erase κ s := by
  unfold markLink
  simp [*]

@[simp ↓] theorem erase_killLink (κ : Mask) (s : State) (f p edge source : Nat)
    (h_hutch : κ.hutch = true) (h_parts : κ.parts = true) (h_fields : κ.fields = true) (h_guards : κ.guards = true) (h_hang : κ.hang = true) (h_arrivals : κ.arrivals = true) :
    erase κ (killLink s f p edge source) = erase κ s := by
  unfold killLink
  simp [*]

@[simp ↓] theorem erase_failLink (κ : Mask) (s : State) (f p edge source : Nat)
    (h_hutch : κ.hutch = true) (h_parts : κ.parts = true) (h_fields : κ.fields = true) (h_guards : κ.guards = true) (h_hang : κ.hang = true) (h_arrivals : κ.arrivals = true) :
    erase κ (failLink s f p edge source) = erase κ s := by
  unfold failLink
  simp [*]

@[simp ↓] theorem erase_retireSlot (κ : Mask) (s : State) (f k source : Nat)
    (h_hutch : κ.hutch = true) (h_arrivals : κ.arrivals = true) :
    erase κ (retireSlot s f k source) = erase κ s := by
  unfold retireSlot
  simp [*]

@[simp ↓] theorem erase_bringBack (κ : Mask) (s : State) (f kind p idx : Nat)
    (h_hutch : κ.hutch = true) (h_arrivals : κ.arrivals = true) :
    erase κ (bringBack s f kind p idx) = erase κ s := by
  unfold bringBack
  simp [*]

@[simp ↓] theorem erase_releaseTile (κ : Mask) (s : State) (f p : Nat)
    (h_hutch : κ.hutch = true) (h_fields : κ.fields = true) (h_sched : κ.sched = true) (h_arrivals : κ.arrivals = true) :
    erase κ (releaseTile s f p) = erase κ s := by
  unfold releaseTile
  simp [*]

@[simp ↓] theorem erase_releaseTested (κ : Mask) (s : State) (f p : Nat)
    (h_fe : κ.fe = true) (h_hutch : κ.hutch = true) (h_fields : κ.fields = true) (h_sched : κ.sched = true) (h_out : κ.out = true) (h_arrivals : κ.arrivals = true) :
    erase κ (releaseTested s f p) = erase κ s := by
  unfold releaseTested
  dsimp only
  repeat' (first | (simp [*]; done) | split | (refine (erase_foldl _ _ ?_ _ _).trans ?_) | (intro _ _) | simp [*])

@[simp ↓] theorem erase_returnLent (κ : Mask) (s : State) (f p : Nat)
    (h_hutch : κ.hutch = true) (h_fields : κ.fields = true) (h_arrivals : κ.arrivals = true) :
    erase κ (returnLent s f p) = erase κ s := by
  unfold returnLent
  simp [*]

@[simp ↓] theorem erase_noteLowered (κ : Mask) (s : State) (f p : Nat)
    (h_hutch : κ.hutch = true) (h_fields : κ.fields = true) (h_arb : κ.arb = true) (h_arrivals : κ.arrivals = true) :
    erase κ (noteLowered s f p) = erase κ s := by
  unfold noteLowered
  simp [*]

@[simp ↓] theorem erase_spareRows (κ : Mask) (s : State) (f p : Nat) (l : List Nat) (n : Nat) (h_hutch : κ.hutch = true) (h_arrivals : κ.arrivals = true) :
    erase κ (spareRows s f p l n).1 = erase κ s := by
  induction l generalizing s n with
  | nil => rfl
  | cons r l ih =>
    unfold spareRows
    split
    · rename_i t h
      rw [ih]
      exact erase_retireRow κ s t f p r 1 h_hutch h_arrivals h
    · rfl

@[simp ↓] theorem erase_failLinkSoon (κ : Mask) (s : State) (f p edge source : Nat)
    (h_hutch : κ.hutch = true) (h_parts : κ.parts = true) (h_fields : κ.fields = true) (h_guards : κ.guards = true) (h_hang : κ.hang = true) (h_arrivals : κ.arrivals = true) :
    erase κ (failLinkSoon s f p edge source) = erase κ s := by
  unfold failLinkSoon
  simp [*]

@[simp ↓] theorem erase_spareLinks (κ : Mask) (s : State) (f p : Nat) (edges : List Nat) (h_hutch : κ.hutch = true) (h_parts : κ.parts = true) (h_fields : κ.fields = true) (h_guards : κ.guards = true) (h_hang : κ.hang = true) (h_arrivals : κ.arrivals = true) :
    erase κ (spareLinks s f p edges).1 = erase κ s := by
  unfold spareLinks
  refine (erase_foldl_fst κ _ ?_ edges _).trans rfl
  intro a x
  simp [*]

@[simp ↓] theorem erase_resultEffect (κ : Mask) (s : State) (f p code : Nat) (instr : Bool)
    (h_hutch : κ.hutch = true) (h_fields : κ.fields = true) (h_arb : κ.arb = true) (h_arrivals : κ.arrivals = true) :
    erase κ (resultEffect s f p code instr) = erase κ s := by
  unfold resultEffect
  simp [*]

@[simp ↓] theorem erase_benchFinding (κ : Mask) (s : State) (a : Nat) (b : BenchSlot) (code : Nat) (word : Dword) (log : Option Nat) (seqNo : Nat)
    (h_parts : κ.parts = true) (h_sig : κ.sig = true) :
    erase κ (benchFinding s a b code word log seqNo) = erase κ s := by
  unfold benchFinding
  simp [*]

@[simp ↓] theorem erase_applyResult (κ : Mask) (s : State) (f slot result : Nat)
    (h_hutch : κ.hutch = true) (h_parts : κ.parts = true) (h_fields : κ.fields = true) (h_guards : κ.guards = true) (h_hang : κ.hang = true) (h_arb : κ.arb = true) (h_sched : κ.sched = true) (h_arrivals : κ.arrivals = true) :
    erase κ (applyResult s f slot result) = erase κ s := by
  unfold applyResult
  repeat' (first | (simp [*]; done) | split | (refine erase_foldl _ _ ?_ _ _; intro _ _))

@[simp ↓] theorem erase_leaveTest (κ : Mask) (s : State) (a : Nat)
    (h_guards : κ.guards = true) :
    erase κ (leaveTest s a) = erase κ s := by
  unfold leaveTest
  simp [*]

@[simp ↓] theorem erase_reportTest (κ : Mask) (s : State) (f slot action : Nat)
    (h_fe : κ.fe = true) (h_hutch : κ.hutch = true) (h_parts : κ.parts = true) (h_fields : κ.fields = true) (h_guards : κ.guards = true) (h_sched : κ.sched = true) (h_sig : κ.sig = true) (h_out : κ.out = true) (h_arrivals : κ.arrivals = true) :
    erase κ (reportTest s f slot action) = erase κ s := by
  unfold reportTest
  repeat' (first | (simp [*]; done) | split | (refine erase_foldl _ _ ?_ _ _; intro _ _))

@[simp ↓] theorem erase_keepSubstitute (κ : Mask) (s : State) (f pos tested subst : Nat)
    (h_hutch : κ.hutch = true) (h_arrivals : κ.arrivals = true) :
    erase κ (keepSubstitute s f pos tested subst) = erase κ s := by
  unfold keepSubstitute
  simp [*]

@[simp ↓] theorem erase_finishAborted (κ : Mask) (s : State) (f slot action : Nat) (again : Bool)
    (h_fe : κ.fe = true) (h_hutch : κ.hutch = true) (h_fields : κ.fields = true) (h_guards : κ.guards = true) (h_sched : κ.sched = true) (h_out : κ.out = true) (h_arrivals : κ.arrivals = true) :
    erase κ (finishAborted s f slot action again) = erase κ s := by
  unfold finishAborted
  repeat' (first | (simp [*]; done) | split | (refine erase_foldl _ _ ?_ _ _; intro _ _))

@[simp ↓] theorem erase_abortTest (κ : Mask) (s : State) (f slot : Nat) (keep : Bool)
    (h_fe : κ.fe = true) (h_hutch : κ.hutch = true) (h_parts : κ.parts = true) (h_fields : κ.fields = true) (h_guards : κ.guards = true) (h_side : κ.side = true) (h_sched : κ.sched = true) (h_sig : κ.sig = true) (h_out : κ.out = true) (h_arrivals : κ.arrivals = true) :
    erase κ (abortTest s f slot keep) = erase κ s := by
  unfold abortTest
  repeat' (first | (simp [*]; done) | split | (refine erase_foldl _ _ ?_ _ _; intro _ _))

@[simp ↓] theorem erase_cancelSpots (κ : Mask) (s : State) (f : Nat)
    (h_hutch : κ.hutch = true) (h_fields : κ.fields = true) (h_arrivals : κ.arrivals = true) :
    erase κ (cancelSpots s f) = erase κ s := by
  unfold cancelSpots
  simp [*]

@[simp ↓] theorem erase_freeContexts (κ : Mask) (s : State) (gone : Context → Bool)
    (h_fe : κ.fe = true) (h_side : κ.side = true) (h_out : κ.out = true) :
    erase κ (freeContexts s gone) = erase κ s := by
  unfold freeContexts
  dsimp only
  repeat' (first | (simp [*]; done) | split | (refine (erase_foldl _ _ ?_ _ _).trans ?_) | (intro _ _) | simp [*])

@[simp ↓] theorem erase_settleDueBut (κ : Mask) (s : State) (f : Nat) (busy : List Nat)
    (h_hutch : κ.hutch = true) (h_parts : κ.parts = true) (h_fields : κ.fields = true) (h_guards : κ.guards = true) (h_hang : κ.hang = true) (h_arrivals : κ.arrivals = true) :
    erase κ (settleDueBut s f busy) = erase κ s := by
  unfold settleDueBut
  dsimp only
  refine (erase_foldl _ _ (by intro s e; simp [*]) _ _).trans ?_
  refine (erase_foldl _ _ (by intro s e; simp [*]) _ _).trans ?_
  refine (erase_foldl _ _ (by intro s e; simp [*]) _ _).trans ?_
  refine (erase_foldl _ _ ?_ _ _).trans ?_
  · intro s e
    split
    · rename_i t h
      exact erase_retireRow κ s t _ _ _ _ h_hutch h_arrivals h
    · simp [*]
  · simp [*]

@[simp ↓] theorem erase_settleDue (κ : Mask) (s : State) (f : Nat)
    (h_hutch : κ.hutch = true) (h_parts : κ.parts = true) (h_fields : κ.fields = true) (h_guards : κ.guards = true) (h_hang : κ.hang = true) (h_arrivals : κ.arrivals = true) :
    erase κ (settleDue s f) = erase κ s := by
  unfold settleDue
  simp [*]

@[simp ↓] theorem erase_settleClaims (κ : Mask) (s : State) (f : Nat)
    (h_fe : κ.fe = true) (h_hutch : κ.hutch = true) (h_parts : κ.parts = true) (h_fields : κ.fields = true) (h_side : κ.side = true) (h_out : κ.out = true) (h_arrivals : κ.arrivals = true) :
    erase κ (settleClaims s f) = erase κ s := by
  unfold settleClaims
  dsimp only
  repeat' (first | (simp [*]; done) | split | (refine (erase_foldl _ _ ?_ _ _).trans ?_) | (intro _ _) | simp [*])

@[simp ↓] theorem erase_settleQuarantine (κ : Mask) (s : State) (f : Nat)
    (h_hutch : κ.hutch = true) (h_fields : κ.fields = true) (h_arrivals : κ.arrivals = true) :
    erase κ (settleQuarantine s f) = erase κ s := by
  unfold settleQuarantine
  simp [*]

@[simp ↓] theorem erase_endFieldWork (κ : Mask) (s : State) (f : Nat)
    (h_fe : κ.fe = true) (h_hutch : κ.hutch = true) (h_parts : κ.parts = true) (h_fields : κ.fields = true) (h_guards : κ.guards = true) (h_tiles : κ.tiles = true) (h_groups : κ.groups = true) (h_side : κ.side = true) (h_hang : κ.hang = true) (h_sched : κ.sched = true) (h_sig : κ.sig = true) (h_out : κ.out = true) (h_arrivals : κ.arrivals = true) :
    erase κ (endFieldWork s f) = erase κ s := by
  unfold endFieldWork
  simp [*]

@[simp ↓] theorem erase_dropProgram (κ : Mask) (s : State) (p : Nat)
    (h_parts : κ.parts = true) (h_fields : κ.fields = true) :
    erase κ (dropProgram s p) = erase κ s := by
  unfold dropProgram
  simp [*]

@[simp ↓] theorem erase_endForGood (κ : Mask) (s : State) (f : Nat)
    (h_fe : κ.fe = true) (h_hutch : κ.hutch = true) (h_parts : κ.parts = true) (h_fields : κ.fields = true) (h_guards : κ.guards = true) (h_tiles : κ.tiles = true) (h_groups : κ.groups = true) (h_side : κ.side = true) (h_hang : κ.hang = true) (h_sched : κ.sched = true) (h_sig : κ.sig = true) (h_out : κ.out = true) (h_arrivals : κ.arrivals = true) :
    erase κ (endForGood s f) = erase κ s := by
  unfold endForGood
  simp [*]

@[simp ↓] theorem erase_armInjection (κ : Mask) (s : State) (f : Nat)
    (h_fields : κ.fields = true) (h_guards : κ.guards = true) :
    erase κ (armInjection s f) = erase κ s := by
  unfold armInjection
  dsimp only
  repeat' (first | (simp [*]; done) | split | (refine (erase_foldl _ _ ?_ _ _).trans ?_) | (intro _ _) | simp [*])

@[simp ↓] theorem erase_applySettings (κ : Mask) (s : State) (f : Nat)
    (h_fe : κ.fe = true) (h_fields : κ.fields = true) (h_guards : κ.guards = true) (h_out : κ.out = true) :
    erase κ (applySettings s f) = erase κ s := by
  unfold applySettings
  dsimp only
  repeat' (first | (simp [*]; done) | split | (refine (erase_foldl _ _ ?_ _ _).trans ?_) | (intro _ _) | simp [*])

@[simp ↓] theorem erase_drawSpots (κ : Mask) (s : State) (f : Nat)
    (h_fields : κ.fields = true) :
    erase κ (drawSpots s f) = erase κ s := by
  unfold drawSpots
  simp [*]

@[simp ↓] theorem erase_completeRes (κ : Mask) (s : State) (c : Cmd) (st : Nat) (res : List Word)
    (h_fe : κ.fe = true) (h_out : κ.out = true) :
    erase κ (completeRes s c st res) = erase κ s := by
  unfold completeRes
  simp [*]

@[simp ↓] theorem erase_check4 (κ : Mask) (s : State) (c : Cmd)
    (h_nor : κ.nor = true) (h_arm : κ.arm = true) (h_out : κ.out = true) (h_status : κ.status = true) (h_arrivals : κ.arrivals = true) (h_aCounter : κ.aCounter = true) :
    erase κ (check4 s c).2 = erase κ s := by
  unfold check4
  repeat' (first | (simp [*]; done) | split | rfl)

@[simp ↓] theorem erase_startCmd (κ : Mask) (s : State) (c : Cmd)
    (h_fe : κ.fe = true) (h_fields : κ.fields = true) (h_out : κ.out = true) :
    erase κ (startCmd s c) = erase κ s := by
  unfold startCmd
  simp [*]

@[simp ↓] theorem erase_startField (κ : Mask) (s : State) (f seed : Nat)
    (h_fe : κ.fe = true) (h_fields : κ.fields = true) (h_guards : κ.guards = true) (h_out : κ.out = true) :
    erase κ (startField s f seed) = erase κ s := by
  unfold startField
  simp [*]

@[simp ↓] theorem erase_clearCounters (κ : Mask) (s : State) (fs : List Nat)
    (h_tiles : κ.tiles = true) :
    erase κ (clearCounters s fs) = erase κ s := by
  unfold clearCounters
  simp [*]

@[simp ↓] theorem erase_setMarks (κ : Mask) (s : State) (fs : List Nat) (t : Nat)
    (h_nor : κ.nor = true) (h_cab : κ.cab = true) :
    erase κ (setMarks s fs t) = erase κ s := by
  unfold setMarks
  simp [*]

@[simp ↓] theorem erase_loadProgram (κ : Mask) (s : State) (c : Cmd) (p : Nat) (x : Part) (dir : List DirEntry)
    (h_free : κ.free = true) (h_fe : κ.fe = true) (h_nor : κ.nor = true) (h_cab : κ.cab = true) (h_parts : κ.parts = true) (h_fields : κ.fields = true) (h_guards : κ.guards = true) (h_tiles : κ.tiles = true) (h_out : κ.out = true) :
    erase κ (loadProgram s c p x dir) = erase κ s := by
  unfold loadProgram
  simp [*]

@[simp ↓] theorem erase_finishUnload (κ : Mask) (s : State) (p : Nat)
    (h_fe : κ.fe = true) (h_hutch : κ.hutch = true) (h_parts : κ.parts = true) (h_fields : κ.fields = true) (h_guards : κ.guards = true) (h_tiles : κ.tiles = true) (h_groups : κ.groups = true) (h_side : κ.side = true) (h_hang : κ.hang = true) (h_boot : κ.boot = true) (h_sched : κ.sched = true) (h_sig : κ.sig = true) (h_out : κ.out = true) (h_arrivals : κ.arrivals = true) :
    erase κ (finishUnload s p) = erase κ s := by
  unfold finishUnload
  dsimp only
  repeat' (first | (simp [*]; done) | split | (refine (erase_foldl _ _ ?_ _ _).trans ?_) | (intro _ _) | simp [*])

@[simp ↓] theorem erase_stopField (κ : Mask) (s : State) (p f : Nat)
    (h_fe : κ.fe = true) (h_hutch : κ.hutch = true) (h_parts : κ.parts = true) (h_fields : κ.fields = true) (h_guards : κ.guards = true) (h_tiles : κ.tiles = true) (h_groups : κ.groups = true) (h_side : κ.side = true) (h_hang : κ.hang = true) (h_boot : κ.boot = true) (h_sched : κ.sched = true) (h_sig : κ.sig = true) (h_out : κ.out = true) (h_arrivals : κ.arrivals = true) :
    erase κ (stopField s p f) = erase κ s := by
  unfold stopField
  simp [*]

@[simp ↓] theorem erase_applySetting (κ : Mask) (s : State) (c : Cmd) (p st : Nat) (res : List Word)
    (h_fe : κ.fe = true) (h_fields : κ.fields = true) (h_guards : κ.guards = true) (h_out : κ.out = true) :
    erase κ (applySetting s c p st res) = erase κ s := by
  unfold applySetting
  simp [*]

@[simp ↓] theorem erase_emitAlign (κ : Mask) (s : State) (p : Option Nat) (kind item : Nat) (late : Bool) (time : Int) (rate : Int) (lateNs : Nat)
    (h_arrivals : κ.arrivals = true) :
    erase κ (emitAlign s p kind item late time rate lateNs) = erase κ s := by
  unfold emitAlign
  simp [*]

@[simp ↓] theorem erase_emitLane (κ : Mask) (s : State) (lane : Nat) (restored : Bool)
    (h_arrivals : κ.arrivals = true) :
    erase κ (emitLane s lane restored) = erase κ s := by
  unfold emitLane
  simp [*]

@[simp ↓] theorem erase_judgeLane (κ : Mask) (s : State) (lane : Nat)
    (h_lanes : κ.lanes = true) (h_arrivals : κ.arrivals = true) :
    erase κ (judgeLane s lane) = erase κ s := by
  unfold judgeLane
  repeat' (first | (simp [*]; done) | split | (refine erase_foldl _ _ ?_ _ _; intro _ _))

@[simp ↓] theorem erase_sendFrame (κ : Mask) (s : State) (lane typ seqNo payload : Nat)
    (h_out : κ.out = true) :
    erase κ (sendFrame s lane typ seqNo payload) = erase κ s := by
  unfold sendFrame
  simp [*]

@[simp ↓] theorem erase_barrierReady (κ : Mask) (s : State) (p : Nat)
    (h_parts : κ.parts = true) (h_out : κ.out = true) :
    erase κ (barrierReady s p) = erase κ s := by
  unfold barrierReady
  dsimp only
  repeat' (first | (simp [*]; done) | split | (refine (erase_foldl _ _ ?_ _ _).trans ?_) | (intro _ _) | simp [*])

@[simp ↓] theorem erase_countOf (κ : Mask) (s : State) (phys : Nat) (g : TileCount → TileCount)
    (h_tiles : κ.tiles = true) :
    erase κ (countOf s phys g) = erase κ s := by
  unfold countOf
  repeat' (first | (simp [*]; done) | split | (refine erase_foldl _ _ ?_ _ _; intro _ _))

@[simp ↓] theorem erase_foldStep (κ : Mask) (s : State) (phys : Nat) (m : Exec) (syms : List Word)
    (h_guards : κ.guards = true) :
    erase κ (foldStep s phys m syms) = erase κ s := by
  unfold foldStep
  simp [*]

@[simp ↓] theorem erase_freshRun (κ : Mask) (s : State) (phys : List Nat)
    (h_guards : κ.guards = true) :
    erase κ (freshRun s phys) = erase κ s := by
  unfold freshRun
  simp [*]

@[simp ↓] theorem erase_latchFailure (κ : Mask) (s : State) (phys cls : Nat) (word : Dword) (instr : Nat)
    (h_fields : κ.fields = true) (h_guards : κ.guards = true) :
    erase κ (latchFailure s phys cls word instr) = erase κ s := by
  unfold latchFailure
  simp [*]

@[simp ↓] theorem erase_failAgain (κ : Mask) (s : State) (phys cls : Nat) (word : Dword)
    (h_guards : κ.guards = true) :
    erase κ (failAgain s phys cls word) = erase κ s := by
  unfold failAgain
  simp [*]

@[simp ↓] theorem erase_useInjection (κ : Mask) (s : State) (phys : Nat) (m : Exec)
    (h_fields : κ.fields = true) (h_guards : κ.guards = true) :
    erase κ (useInjection s phys m) = erase κ s := by
  unfold useInjection
  simp [*]

@[simp ↓] theorem erase_benchMiss (κ : Mask) (s : State) (phys : Nat)
    (h_fields : κ.fields = true) :
    erase κ (benchMiss s phys) = erase κ s := by
  unfold benchMiss
  simp [*]

@[simp ↓] theorem erase_failVerdict (κ : Mask) (s : State) (c : Contraction) (m : Exec) (v : Verdict) (site : Nat)
    (h_fields : κ.fields = true) (h_guards : κ.guards = true) :
    erase κ (failVerdict s c m v site) = erase κ s := by
  unfold failVerdict
  repeat' (first | (simp [*]; done) | split | (refine erase_foldl _ _ ?_ _ _; intro _ _))

@[simp ↓] theorem erase_countWait (κ : Mask) (s : State) (t cycle wait : Nat)
    (h_guards : κ.guards = true) (h_tiles : κ.tiles = true) :
    erase κ (countWait s t cycle wait) = erase κ s := by
  unfold countWait
  simp [*]

@[simp ↓] theorem erase_pairDisagrees (κ : Mask) (s : State) (t : Nat) (replayed : Bool) (kind cycle expNo : Nat)
    (h_fields : κ.fields = true) (h_guards : κ.guards = true) :
    erase κ (pairDisagrees s t replayed kind cycle expNo) = erase κ s := by
  unfold pairDisagrees
  simp [*]

@[simp ↓] theorem erase_sendExport (κ : Mask) (s : State) (x : Export) (d wait : Nat)
    (h_fields : κ.fields = true) (h_guards : κ.guards = true) (h_out : κ.out = true) :
    erase κ (sendExport s x d wait) = erase κ s := by
  unfold sendExport
  repeat' (first | (simp [*]; done) | split | (refine erase_foldl _ _ ?_ _ _; intro _ _))

@[simp ↓] theorem erase_noteCross (κ : Mask) (s : State) (f log : Nat)
    (h_fields : κ.fields = true) :
    erase κ (noteCross s f log) = erase κ s := by
  unfold noteCross
  simp [*]

@[simp ↓] theorem erase_withhold (κ : Mask) (s : State) (x : Export) (n : Nat)
    (h_fields : κ.fields = true) (h_guards : κ.guards = true) (h_out : κ.out = true) :
    erase κ (withhold s x n) = erase κ s := by
  unfold withhold
  repeat' (first | (simp [*]; done) | split | (refine erase_foldl _ _ ?_ _ _; intro _ _))

@[simp ↓] theorem erase_resendExport (κ : Mask) (s : State) (g : Group) (x : Export) (d : Nat)
    (h_fields : κ.fields = true) (h_guards : κ.guards = true) (h_out : κ.out = true) :
    erase κ (resendExport s g x d) = erase κ s := by
  unfold resendExport
  repeat' (first | (simp [*]; done) | split | (refine erase_foldl _ _ ?_ _ _; intro _ _))

@[simp ↓] theorem erase_passGate (κ : Mask) (s : State) (m : Exec) (x : Export) (n d : Nat)
    (h_fields : κ.fields = true) (h_guards : κ.guards = true) (h_out : κ.out = true) :
    erase κ (passGate s m x n d) = erase κ s := by
  unfold passGate
  repeat' (first | (simp [*]; done) | split | (refine erase_foldl _ _ ?_ _ _; intro _ _))

@[simp ↓] theorem erase_comparePair (κ : Mask) (s : State) (m : Exec) (k : Gated) (e : Nat)
    (h_fields : κ.fields = true) (h_guards : κ.guards = true) (h_out : κ.out = true) :
    erase κ (comparePair s m k e) = erase κ s := by
  unfold comparePair
  simp [*]

@[simp ↓] theorem erase_shadowExport (κ : Mask) (s : State) (m : Exec) (p n d : Nat)
    (h_fields : κ.fields = true) (h_guards : κ.guards = true) (h_out : κ.out = true) :
    erase κ (shadowExport s m p n d) = erase κ s := by
  unfold shadowExport
  repeat' (first | (simp [*]; done) | split | (refine erase_foldl _ _ ?_ _ _; intro _ _))

@[simp ↓] theorem erase_primaryExport (κ : Mask) (s : State) (m : Exec) (k : Gated)
    (h_fields : κ.fields = true) (h_guards : κ.guards = true) (h_out : κ.out = true) :
    erase κ (primaryExport s m k) = erase κ s := by
  unfold primaryExport
  repeat' (first | (simp [*]; done) | split | (refine erase_foldl _ _ ?_ _ _; intro _ _))

@[simp ↓] theorem erase_gateExport (κ : Mask) (s : State) (m : Exec) (x : Export) (d : Nat)
    (h_fields : κ.fields = true) (h_guards : κ.guards = true) (h_tiles : κ.tiles = true) (h_out : κ.out = true) :
    erase κ (gateExport s m x d) = erase κ s := by
  unfold gateExport
  simp [*]

@[simp ↓] theorem erase_writeContexts (κ : Mask) (s : State) (log row : Nat) (covers : Context → Nat → Nat → Bool)
    (h_side : κ.side = true) :
    erase κ (writeContexts s log row covers) = erase κ s := by
  unfold writeContexts
  simp [*]

@[simp ↓] theorem erase_snapshotWrite (κ : Mask) (s : State) (t row : Nat)
    (h_hutch : κ.hutch = true) (h_fields : κ.fields = true) (h_arrivals : κ.arrivals = true) :
    erase κ (snapshotWrite s t row) = erase κ s := by
  unfold snapshotWrite
  dsimp only
  repeat' (first | (simp [*]; done) | split | (refine (erase_foldl _ _ ?_ _ _).trans ?_) | (intro _ _) | simp [*])

@[simp ↓] theorem erase_captureRow (κ : Mask) (s : State) (t row : Nat) (full readBefore : Bool) (old : BitVec 512)
    (h_guards : κ.guards = true) (h_tiles : κ.tiles = true) :
    erase κ (captureRow s t row full readBefore old) = erase κ s := by
  unfold captureRow
  simp [*]

@[simp ↓] theorem erase_rowWritten (κ : Mask) (s : State) (t row : Nat)
    (h_hutch : κ.hutch = true) (h_fields : κ.fields = true) (h_side : κ.side = true) (h_arrivals : κ.arrivals = true) :
    erase κ (rowWritten s t row) = erase κ s := by
  unfold rowWritten
  dsimp only
  repeat' (first | (simp [*]; done) | split | (refine (erase_foldl _ _ ?_ _ _).trans ?_) | (intro _ _) | simp [*])

@[simp ↓] theorem erase_taint (κ : Mask) (s : State) (tile origin : Nat)
    (h_fields : κ.fields = true) (h_guards : κ.guards = true) (h_tiles : κ.tiles = true) :
    erase κ (taint s tile origin) = erase κ s := by
  unfold taint
  dsimp only
  repeat' (first | (simp [*]; done) | split | (refine (erase_foldl _ _ ?_ _ _).trans ?_) | (intro _ _) | simp [*])

@[simp ↓] theorem erase_openFault (κ : Mask) (s : State) (tile cycle : Nat) (m : Exec) (o : OpenContraction)
    (h_fields : κ.fields = true) (h_guards : κ.guards = true) :
    erase κ (openFault s tile cycle m o) = erase κ s := by
  unfold openFault
  simp [*]

@[simp ↓] theorem erase_settlePair (κ : Mask) (s : State) (m : Exec) (p h cycle : Nat)
    (h_fields : κ.fields = true) (h_guards : κ.guards = true) (h_out : κ.out = true) :
    erase κ (settlePair s m p h cycle) = erase κ s := by
  unfold settlePair
  simp [*]

@[simp ↓] theorem erase_pairArrives (κ : Mask) (s : State) (tile cycle : Nat)
    (h_fields : κ.fields = true) (h_guards : κ.guards = true) (h_out : κ.out = true) :
    erase κ (pairArrives s tile cycle) = erase κ s := by
  unfold pairArrives
  repeat' (first | (simp [*]; done) | split | (refine erase_foldl _ _ ?_ _ _; intro _ _))

@[simp ↓] theorem erase_endRerun (κ : Mask) (s : State) (tile cycle : Nat) (m : Exec)
    (h_fields : κ.fields = true) (h_guards : κ.guards = true) (h_out : κ.out = true) :
    erase κ (endRerun s tile cycle m) = erase κ s := by
  unfold endRerun
  dsimp only
  repeat' (first | (simp [*]; done) | split | (refine (erase_foldl _ _ ?_ _ _).trans ?_) | (intro _ _) | simp [*])

@[simp ↓] theorem erase_setGroup (κ : Mask) (s : State) (g : Group)
    (h_groups : κ.groups = true) :
    erase κ (setGroup s g) = erase κ s := by
  unfold setGroup
  simp [*]

@[simp ↓] theorem erase_dropGroup (κ : Mask) (s : State) (id : Nat)
    (h_groups : κ.groups = true) :
    erase κ (dropGroup s id) = erase κ s := by
  unfold dropGroup
  simp [*]

@[simp ↓] theorem erase_addGroup (κ : Mask) (s : State) (g : Group)
    (h_groups : κ.groups = true) :
    erase κ (addGroup s g) = erase κ s := by
  unfold addGroup
  dsimp only
  repeat' (first | (simp [*]; done) | split | (refine (erase_foldl _ _ ?_ _ _).trans ?_) | (intro _ _) | simp [*])

@[simp ↓] theorem erase_seedGroup (κ : Mask) (s : State) (f : Nat) (tiles : List Nat) (failed : List ReplayFail) (trigger : Nat)
    (h_groups : κ.groups = true) :
    erase κ (seedGroup s f tiles failed trigger) = erase κ s := by
  unfold seedGroup
  simp [*]

@[simp ↓] theorem erase_formGroups (κ : Mask) (s : State) (f : Nat)
    (h_groups : κ.groups = true) :
    erase κ (formGroups s f) = erase κ s := by
  unfold formGroups
  simp [*]

@[simp ↓] theorem erase_reserveFor (κ : Mask) (s : State) (log : Nat)
    (h_fields : κ.fields = true) :
    erase κ (reserveFor s log) = erase κ s := by
  unfold reserveFor
  dsimp only
  repeat' (first | (simp [*]; done) | split | (refine (erase_foldl _ _ ?_ _ _).trans ?_) | (intro _ _) | simp [*])

@[simp ↓] theorem erase_reserveAll (κ : Mask) (s : State) (tiles : List Nat)
    (h_fields : κ.fields = true) :
    erase κ (reserveAll s tiles) = erase κ s := by
  unfold reserveAll
  simp [*]

@[simp ↓] theorem erase_restoreOwn (κ : Mask) (s : State) (g : Group)
    (h_out : κ.out = true) :
    erase κ (restoreOwn s g) = erase κ s := by
  unfold restoreOwn
  repeat' (first | (simp [*]; done) | split | (refine erase_foldl _ _ ?_ _ _; intro _ _))

@[simp ↓] theorem erase_runOwn (κ : Mask) (s : State) (g : Group) (st : GroupState)
    (h_guards : κ.guards = true) (h_groups : κ.groups = true) (h_out : κ.out = true) :
    erase κ (runOwn s g st) = erase κ s := by
  unfold runOwn
  simp [*]

@[simp ↓] theorem erase_sendImage (κ : Mask) (s : State) (e : Nat × Nat)
    (h_out : κ.out = true) :
    erase κ (sendImage s e) = erase κ s := by
  unfold sendImage
  simp [*]

@[simp ↓] theorem erase_mapIdle (κ : Mask) (s : State) (g : Group)
    (h_fields : κ.fields = true) :
    erase κ (mapIdle s g) = erase κ s := by
  unfold mapIdle
  simp [*]

@[simp ↓] theorem erase_startCopies (κ : Mask) (s : State) (g : Group)
    (h_fields : κ.fields = true) (h_groups : κ.groups = true) (h_out : κ.out = true) :
    erase κ (startCopies s g) = erase κ s := by
  unfold startCopies
  simp [*]

@[simp ↓] theorem erase_runSpares (κ : Mask) (s : State) (g : Group)
    (h_guards : κ.guards = true) (h_groups : κ.groups = true) (h_out : κ.out = true) :
    erase κ (runSpares s g) = erase κ s := by
  unfold runSpares
  simp [*]

@[simp ↓] theorem erase_ringReplay (κ : Mask) (s : State) (f typ : Nat) (word : Nat)
    (h_fields : κ.fields = true) :
    erase κ (ringReplay s f typ word) = erase κ s := by
  unfold ringReplay
  simp [*]

@[simp ↓] theorem erase_countReplay (κ : Mask) (s : State) (tiles moved : List Nat) (cycles : Nat)
    (h_tiles : κ.tiles = true) :
    erase κ (countReplay s tiles moved cycles) = erase κ s := by
  unfold countReplay
  simp [*]

@[simp ↓] theorem erase_noteTransient (κ : Mask) (s : State) (phys : Nat)
    (h_hutch : κ.hutch = true) (h_fields : κ.fields = true) (h_sched : κ.sched = true) (h_arrivals : κ.arrivals = true) :
    erase κ (noteTransient s phys) = erase κ s := by
  unfold noteTransient
  simp [*]

@[simp ↓] theorem erase_emitReplay (κ : Mask) (s : State) (g : Group) (outcome spare : Nat) (detail : Dword)
    (h_fields : κ.fields = true) (h_arrivals : κ.arrivals = true) :
    erase κ (emitReplay s g outcome spare detail) = erase κ s := by
  unfold emitReplay
  simp [*]

@[simp ↓] theorem erase_noteTransients (κ : Mask) (s : State) (g : Group) (again : List ReplayFail)
    (h_hutch : κ.hutch = true) (h_fields : κ.fields = true) (h_sched : κ.sched = true) (h_arrivals : κ.arrivals = true) :
    erase κ (noteTransients s g again) = erase κ s := by
  unfold noteTransients
  repeat' (first | (simp [*]; done) | split | (refine erase_foldl _ _ ?_ _ _; intro _ _))

@[simp ↓] theorem erase_passSame (κ : Mask) (s : State) (g : Group)
    (h_hutch : κ.hutch = true) (h_fields : κ.fields = true) (h_groups : κ.groups = true) (h_sched : κ.sched = true) (h_arrivals : κ.arrivals = true) :
    erase κ (passSame s g) = erase κ s := by
  unfold passSame
  simp [*]

@[simp ↓] theorem erase_checkerFault (κ : Mask) (s : State) (r : ReplayFail) (severity word : Nat)
    (h_hutch : κ.hutch = true) (h_parts : κ.parts = true) (h_sig : κ.sig = true) (h_arrivals : κ.arrivals = true) :
    erase κ (checkerFault s r severity word) = erase κ s := by
  unfold checkerFault
  simp [*]

@[simp ↓] theorem erase_quarantineFailed (κ : Mask) (s : State) (fails : List ReplayFail)
    (h_hutch : κ.hutch = true) (h_parts : κ.parts = true) (h_sig : κ.sig = true) (h_arrivals : κ.arrivals = true) :
    erase κ (quarantineFailed s fails) = erase κ s := by
  unfold quarantineFailed
  simp [*]

@[simp ↓] theorem erase_suspectLost (κ : Mask) (s : State) (g : Group) (p : Nat)
    (h_hutch : κ.hutch = true) (h_fields : κ.fields = true) (h_sched : κ.sched = true) (h_arrivals : κ.arrivals = true) :
    erase κ (suspectLost s g p) = erase κ s := by
  unfold suspectLost
  simp [*]

@[simp ↓] theorem erase_loseGroup (κ : Mask) (s : State) (g : Group) (outcome spare : Nat) (suspects : List Nat) (detail : Dword)
    (h_hutch : κ.hutch = true) (h_parts : κ.parts = true) (h_fields : κ.fields = true) (h_guards : κ.guards = true) (h_groups : κ.groups = true) (h_hang : κ.hang = true) (h_sched : κ.sched = true) (h_sig : κ.sig = true) (h_arrivals : κ.arrivals = true) :
    erase κ (loseGroup s g outcome spare suspects detail) = erase κ s := by
  unfold loseGroup
  simp [*]

@[simp ↓] theorem erase_moveToSpares (κ : Mask) (s : State) (g : Group) (again : List ReplayFail)
    (h_hutch : κ.hutch = true) (h_parts : κ.parts = true) (h_fields : κ.fields = true) (h_guards : κ.guards = true) (h_groups : κ.groups = true) (h_hang : κ.hang = true) (h_sched : κ.sched = true) (h_sig : κ.sig = true) (h_out : κ.out = true) (h_arrivals : κ.arrivals = true) :
    erase κ (moveToSpares s g again) = erase κ s := by
  unfold moveToSpares
  simp [*]

@[simp ↓] theorem erase_startGroup (κ : Mask) (s : State) (g : Group)
    (h_hutch : κ.hutch = true) (h_parts : κ.parts = true) (h_fields : κ.fields = true) (h_guards : κ.guards = true) (h_groups : κ.groups = true) (h_hang : κ.hang = true) (h_sched : κ.sched = true) (h_sig : κ.sig = true) (h_out : κ.out = true) (h_arrivals : κ.arrivals = true) :
    erase κ (startGroup s g) = erase κ s := by
  unfold startGroup
  simp [*]

@[simp ↓] theorem erase_startWaiting (κ : Mask) (s : State) (f c : Nat)
    (h_hutch : κ.hutch = true) (h_parts : κ.parts = true) (h_fields : κ.fields = true) (h_guards : κ.guards = true) (h_groups : κ.groups = true) (h_hang : κ.hang = true) (h_sched : κ.sched = true) (h_sig : κ.sig = true) (h_out : κ.out = true) (h_arrivals : κ.arrivals = true) :
    erase κ (startWaiting s f c) = erase κ s := by
  unfold startWaiting
  repeat' (first | (simp [*]; done) | split | (refine erase_foldl _ _ ?_ _ _; intro _ _))

@[simp ↓] theorem erase_startSpares (κ : Mask) (s : State) (f c : Nat)
    (h_fields : κ.fields = true) (h_groups : κ.groups = true) (h_out : κ.out = true) :
    erase κ (startSpares s f c) = erase κ s := by
  unfold startSpares
  repeat' (first | (simp [*]; done) | split | (refine erase_foldl _ _ ?_ _ _; intro _ _))

@[simp ↓] theorem erase_claimInstall (κ : Mask) (s : State) (f pos u : Nat)
    (h_fields : κ.fields = true) :
    erase κ (claimInstall s f pos u) = erase κ s := by
  unfold claimInstall
  simp [*]

@[simp ↓] theorem erase_settleMoved (κ : Mask) (s : State) (g : Group) (word : Nat) (seqNo : Nat) (e : Nat × Nat)
    (h_hutch : κ.hutch = true) (h_parts : κ.parts = true) (h_fields : κ.fields = true) (h_sched : κ.sched = true) (h_sig : κ.sig = true) (h_arrivals : κ.arrivals = true) :
    erase κ (settleMoved s g word seqNo e) = erase κ s := by
  unfold settleMoved
  repeat' (first | (simp [*]; done) | split | (refine erase_foldl _ _ ?_ _ _; intro _ _))

@[simp ↓] theorem erase_passSpare (κ : Mask) (s : State) (g : Group)
    (h_hutch : κ.hutch = true) (h_parts : κ.parts = true) (h_fields : κ.fields = true) (h_groups : κ.groups = true) (h_sched : κ.sched = true) (h_sig : κ.sig = true) (h_arrivals : κ.arrivals = true) :
    erase κ (passSpare s g) = erase κ s := by
  unfold passSpare
  simp [*]

@[simp ↓] theorem erase_noteFailed (κ : Mask) (s : State) (f t : Nat)
    (h_fields : κ.fields = true) :
    erase κ (noteFailed s f t) = erase κ s := by
  unfold noteFailed
  repeat' (first | (simp [*]; done) | split | (refine erase_foldl _ _ ?_ _ _; intro _ _))

@[simp ↓] theorem erase_latchGuard (κ : Mask) (s : State) (f t : Nat)
    (h_free : κ.free = true) (h_fields : κ.fields = true) :
    erase κ (latchGuard s f t) = erase κ s := by
  unfold latchGuard
  simp [*]

@[simp ↓] theorem erase_routerFault (κ : Mask) (s : State) (f : Nat) (d : SourceDetail)
    (h_hutch : κ.hutch = true) (h_parts : κ.parts = true) (h_fields : κ.fields = true) (h_guards : κ.guards = true) (h_hang : κ.hang = true) (h_arrivals : κ.arrivals = true) :
    erase κ (routerFault s f d) = erase κ s := by
  unfold routerFault
  simp [*]

@[simp ↓] theorem erase_latchRouter (κ : Mask) (s : State) (f : Nat) (d : SourceDetail)
    (h_hutch : κ.hutch = true) (h_parts : κ.parts = true) (h_fields : κ.fields = true) (h_guards : κ.guards = true) (h_hang : κ.hang = true) (h_arrivals : κ.arrivals = true) :
    erase κ (latchRouter s f d) = erase κ s := by
  unfold latchRouter
  simp [*]

@[simp ↓] theorem erase_recallExport (κ : Mask) (s : State) (f t cycle : Nat) (r : Nat × Nat × List Word)
    (h_fields : κ.fields = true) (h_out : κ.out = true) :
    erase κ (recallExport s f t cycle r) = erase κ s := by
  unfold recallExport
  simp [*]

@[simp ↓] theorem erase_droopSignal (κ : Mask) (s : State) (f cycle : Nat)
    (h_fields : κ.fields = true) (h_out : κ.out = true) :
    erase κ (droopSignal s f cycle) = erase κ s := by
  unfold droopSignal
  dsimp only
  repeat' (first | (simp [*]; done) | split | (refine (erase_foldl _ _ ?_ _ _).trans ?_) | (intro _ _) | simp [*])

@[simp ↓] theorem erase_stormCheck (κ : Mask) (s : State) (f rootCount cycle : Nat) (droop : Bool)
    (h_fields : κ.fields = true) (h_out : κ.out = true) :
    erase κ (stormCheck s f rootCount cycle droop) = erase κ s := by
  unfold stormCheck
  simp [*]

@[simp ↓] theorem erase_retireNow (κ : Mask) (s : State) (t row : Nat)
    (h_hutch : κ.hutch = true) (h_fields : κ.fields = true) (h_arrivals : κ.arrivals = true) :
    erase κ (retireNow s t row) = erase κ s := by
  unfold retireNow
  split
  · rename_i u h
    exact erase_retireRow κ s u _ _ _ _ h_hutch h_arrivals h
  · simp [*]

@[simp ↓] theorem erase_retireAtSeam (κ : Mask) (s : State) (t row : Nat)
    (h_fields : κ.fields = true) :
    erase κ (retireAtSeam s t row) = erase κ s := by
  unfold retireAtSeam
  simp [*]

@[simp ↓] theorem erase_raiseSram (κ : Mask) (s : State) (t cls loc : Nat)
    (h_free : κ.free = true) (h_fields : κ.fields = true) (h_guards : κ.guards = true) :
    erase κ (raiseSram s t cls loc) = erase κ s := by
  unfold raiseSram
  dsimp only
  repeat' (first | (simp [*]; done) | split | (refine (erase_foldl _ _ ?_ _ _).trans ?_) | (intro _ _) | simp [*])

@[simp ↓] theorem erase_retireWorn (κ : Mask) (s : State) (t row : Nat)
    (h_hutch : κ.hutch = true) (h_fields : κ.fields = true) (h_arrivals : κ.arrivals = true) :
    erase κ (retireWorn s t row) = erase κ s := by
  unfold retireWorn
  simp [*]

@[simp ↓] theorem erase_sramWorn (κ : Mask) (s : State) (t row cls : Nat) (instr : Bool)
    (h_hutch : κ.hutch = true) (h_fields : κ.fields = true) (h_arrivals : κ.arrivals = true) :
    erase κ (sramWorn s t row cls instr) = erase κ s := by
  unfold sramWorn
  simp [*]

@[simp ↓] theorem erase_cancelVcore (κ : Mask) (s : State) (f : Nat)
    (h_arb : κ.arb = true) :
    erase κ (cancelVcore s f) = erase κ s := by
  unfold cancelVcore
  simp [*]

@[simp ↓] theorem erase_abortChange (κ : Mask) (s : State) (f : Nat)
    (h_fields : κ.fields = true) (h_arb : κ.arb = true) (h_arrivals : κ.arrivals = true) :
    erase κ (abortChange s f) = erase κ s := by
  unfold abortChange
  dsimp only
  repeat' (first | (simp [*]; done) | split | (refine (erase_foldl _ _ ?_ _ _).trans ?_) | (intro _ _) | simp [*])

@[simp ↓] theorem erase_emitDroop (κ : Mask) (s : State) (f lowestMv : Nat)
    (h_fields : κ.fields = true) (h_arrivals : κ.arrivals = true) :
    erase κ (emitDroop s f lowestMv) = erase κ s := by
  unfold emitDroop
  simp [*]

@[simp ↓] theorem erase_forgetCmd (κ : Mask) (s : State) (c : Cmd)
    (h_fe : κ.fe = true) (h_parts : κ.parts = true) (h_fields : κ.fields = true) (h_side : κ.side = true) (h_hang : κ.hang = true) :
    erase κ (forgetCmd s c) = erase κ s := by
  unfold forgetCmd
  simp [*]

@[simp ↓] theorem erase_abortCmd (κ : Mask) (s : State) (c : Cmd)
    (h_fe : κ.fe = true) (h_parts : κ.parts = true) (h_fields : κ.fields = true) (h_side : κ.side = true) (h_hang : κ.hang = true) (h_out : κ.out = true) :
    erase κ (abortCmd s c) = erase κ s := by
  unfold abortCmd
  simp [*]

@[simp ↓] theorem erase_endOp (κ : Mask) (s : State) (o : Op)
    (h_fe : κ.fe = true) (h_arrivals : κ.arrivals = true) :
    erase κ (endOp s o) = erase κ s := by
  unfold endOp
  simp [*]

@[simp ↓] theorem erase_endOps (κ : Mask) (s : State) (l : List Op)
    (h_fe : κ.fe = true) (h_fields : κ.fields = true) (h_arrivals : κ.arrivals = true) :
    erase κ (endOps s l) = erase κ s := by
  unfold endOps
  simp [*]

@[simp ↓] theorem erase_captureDump (κ : Mask) (s : State) (t level cause : Nat) (fs : List Nat)
    (h_free : κ.free = true) (h_drawer : κ.drawer = true) (h_arrivals : κ.arrivals = true) :
    erase κ (captureDump s t level cause fs).1 = erase κ s := by
  unfold captureDump
  repeat' (first | (simp [*]; done) | split | rfl)

@[simp ↓] theorem erase_dumpOfReset (κ : Mask) (s : State) (r : ResetRun)
    (h_free : κ.free = true) (h_drawer : κ.drawer = true) (h_arrivals : κ.arrivals = true) :
    erase κ (dumpOfReset s r).1 = erase κ s := by
  unfold dumpOfReset
  repeat' (first | (simp [*]; done) | split | rfl)

@[simp ↓] theorem erase_holdOthers (κ : Mask) (s : State) (p : Nat) (others : List Nat)
    (h_fe : κ.fe = true) (h_hutch : κ.hutch = true) (h_parts : κ.parts = true) (h_fields : κ.fields = true) (h_guards : κ.guards = true) (h_tiles : κ.tiles = true) (h_groups : κ.groups = true) (h_side : κ.side = true) (h_hang : κ.hang = true) (h_sched : κ.sched = true) (h_sig : κ.sig = true) (h_out : κ.out = true) (h_arrivals : κ.arrivals = true) :
    erase κ (holdOthers s p others) = erase κ s := by
  unfold holdOthers
  simp [*]

@[simp ↓] theorem erase_dropPart (κ : Mask) (s : State) (r : ResetRun) (p : Nat)
    (h_fe : κ.fe = true) (h_hutch : κ.hutch = true) (h_parts : κ.parts = true) (h_fields : κ.fields = true) (h_guards : κ.guards = true) (h_tiles : κ.tiles = true) (h_groups : κ.groups = true) (h_side : κ.side = true) (h_hang : κ.hang = true) (h_sched : κ.sched = true) (h_sig : κ.sig = true) (h_out : κ.out = true) (h_arrivals : κ.arrivals = true) :
    erase κ (dropPart s r p) = erase κ s := by
  unfold dropPart
  simp [*]

@[simp ↓] theorem erase_stopFields (κ : Mask) (s : State) (r : ResetRun)
    (h_fe : κ.fe = true) (h_hutch : κ.hutch = true) (h_parts : κ.parts = true) (h_fields : κ.fields = true) (h_guards : κ.guards = true) (h_tiles : κ.tiles = true) (h_groups : κ.groups = true) (h_side : κ.side = true) (h_hang : κ.hang = true) (h_sched : κ.sched = true) (h_sig : κ.sig = true) (h_out : κ.out = true) (h_arrivals : κ.arrivals = true) :
    erase κ (stopFields s r) = erase κ s := by
  unfold stopFields
  simp [*]

@[simp ↓] theorem erase_endQuiesce (κ : Mask) (s : State)
    (h_fe : κ.fe = true) (h_hang : κ.hang = true) (h_status : κ.status = true) :
    erase κ (endQuiesce s) = erase κ s := by
  unfold endQuiesce
  simp [*]

@[simp ↓] theorem erase_clearQueueFlags (κ : Mask) (s : State) (dom : Nat)
    (h_fe : κ.fe = true) :
    erase κ (clearQueueFlags s dom) = erase κ s := by
  unfold clearQueueFlags
  simp [*]

@[simp ↓] theorem erase_startReset (κ : Mask) (s : State) (r : ResetRun) (rest : List ResetRun)
    (h_free : κ.free = true) (h_fe : κ.fe = true) (h_drawer : κ.drawer = true) (h_hutch : κ.hutch = true) (h_parts : κ.parts = true) (h_fields : κ.fields = true) (h_guards : κ.guards = true) (h_tiles : κ.tiles = true) (h_groups : κ.groups = true) (h_side : κ.side = true) (h_hang : κ.hang = true) (h_sched : κ.sched = true) (h_sig : κ.sig = true) (h_out : κ.out = true) (h_status : κ.status = true) (h_arrivals : κ.arrivals = true) (h_gens : κ.gens = true) :
    erase κ (startReset s r rest) = erase κ s := by
  unfold startReset
  simp [*]

@[simp ↓] theorem erase_badDoorbell (κ : Mask) (s : State) (q : Nat)
    (h_fe : κ.fe = true) :
    erase κ (badDoorbell s q) = erase κ s := by
  unfold badDoorbell
  simp [*]

@[simp ↓] theorem erase_ringSq (κ : Mask) (s : State) (t qn value : Nat)
    (h_fe : κ.fe = true) :
    erase κ (ringSq s t qn value) = erase κ s := by
  unfold ringSq
  repeat' (first | (simp [*]; done) | split | (refine erase_foldl _ _ ?_ _ _; intro _ _))

@[simp ↓] theorem erase_ringCq (κ : Mask) (s : State) (t qn value : Nat)
    (h_fe : κ.fe = true) :
    erase κ (ringCq s t qn value) = erase κ s := by
  unfold ringCq
  repeat' (first | (simp [*]; done) | split | (refine erase_foldl _ _ ?_ _ _; intro _ _))

@[simp ↓] theorem erase_clearDbBad (κ : Mask) (s : State) (t qn value : Nat)
    (h_fe : κ.fe = true) :
    erase κ (clearDbBad s t qn value) = erase κ s := by
  unfold clearDbBad
  repeat' (first | (simp [*]; done) | split | (refine erase_foldl _ _ ?_ _ _; intro _ _))

@[simp ↓] theorem erase_writeLegacy (κ : Mask) (s : State) (t value : Nat)
    (h_regs : κ.regs = true) :
    erase κ (writeLegacy s t value) = erase κ s := by
  unfold writeLegacy
  simp [*]

@[simp ↓] theorem erase_writeStatusIrq (κ : Mask) (s : State) (t value : Nat)
    (h_regs : κ.regs = true) :
    erase κ (writeStatusIrq s t value) = erase κ s := by
  unfold writeStatusIrq
  simp [*]

@[simp ↓] theorem erase_writeCfg (κ : Mask) (s : State) (t value : Nat)
    (h_regs : κ.regs = true) :
    erase κ (writeCfg s t value) = erase κ s := by
  unfold writeCfg
  simp [*]

@[simp ↓] theorem erase_writeWallLow (κ : Mask) (s : State) (t : Nat) (value : Word)
    (h_regs : κ.regs = true) :
    erase κ (writeWallLow s t value) = erase κ s := by
  unfold writeWallLow
  simp [*]

@[simp ↓] theorem erase_writeWallHigh (κ : Mask) (s : State) (t : Nat) (value : Word)
    (h_regs : κ.regs = true) (h_arrivals : κ.arrivals = true) :
    erase κ (writeWallHigh s t value) = erase κ s := by
  unfold writeWallHigh
  repeat' (first | (simp [*]; done) | split | (refine erase_foldl _ _ ?_ _ _; intro _ _))

@[simp ↓] theorem erase_writeHostHb (κ : Mask) (s : State) (t : Nat)
    (h_hang : κ.hang = true) :
    erase κ (writeHostHb s t) = erase κ s := by
  unfold writeHostHb
  simp [*]

@[simp ↓] theorem erase_writeLogAdv (κ : Mask) (s : State) (t value : Nat)
    (h_cab : κ.cab = true) :
    erase κ (writeLogAdv s t value) = erase κ s := by
  unfold writeLogAdv
  simp [*]

@[simp ↓] theorem erase_writeLogStat (κ : Mask) (s : State) (t value : Nat)
    (h_cab : κ.cab = true) :
    erase κ (writeLogStat s t value) = erase κ s := by
  unfold writeLogStat
  simp [*]

@[simp ↓] theorem erase_writeSlot0 (κ : Mask) (s : State) (t n v : Nat)
    (h_fe : κ.fe = true) :
    erase κ (writeSlot0 s t n v) = erase κ s := by
  unfold writeSlot0
  simp [*]

@[simp ↓] theorem erase_writeSlotN (κ : Mask) (s : State) (t n word v : Nat)
    (h_fe : κ.fe = true) :
    erase κ (writeSlotN s t n word v) = erase κ s := by
  unfold writeSlotN
  simp [*]

@[simp ↓] theorem erase_writeAperture (κ : Mask) (s : State) (t off size : Nat) (value : Word)
    (h_fe : κ.fe = true) (h_regs : κ.regs = true) (h_cab : κ.cab = true) (h_hang : κ.hang = true) (h_arrivals : κ.arrivals = true) :
    erase κ (writeAperture s t off size value) = erase κ s := by
  unfold writeAperture
  simp [*]

@[simp ↓] theorem erase_emitPinFault (κ : Mask) (s : State) (p : PinId) (driven high : Bool) (action retries : Nat)
    (h_arrivals : κ.arrivals = true) :
    erase κ (emitPinFault s p driven high action retries) = erase κ s := by
  unfold emitPinFault
  simp [*]

@[simp ↓] theorem erase_declarePinFault (κ : Mask) (s : State) (p : PinId) (driven high : Bool)
    (h_tray : κ.tray = true) (h_out : κ.out = true) (h_status : κ.status = true) (h_arrivals : κ.arrivals = true) :
    erase κ (declarePinFault s p driven high) = erase κ s := by
  unfold declarePinFault
  simp [*]

@[simp ↓] theorem erase_settlePinFault (κ : Mask) (s : State)
    (h_status : κ.status = true) :
    erase κ (settlePinFault s) = erase κ s := by
  unfold settlePinFault
  simp [*]

@[simp ↓] theorem erase_bringNorUp (κ : Mask) (s : State) (fails : Nat)
    (h_tray : κ.tray = true) :
    erase κ (bringNorUp s fails) = erase κ s := by
  unfold bringNorUp
  simp [*]

@[simp ↓] theorem erase_attachRun (κ : Mask) (s : State) (f p corner seq handle : Nat)
    (h_fields : κ.fields = true) (h_sched : κ.sched = true) :
    erase κ (attachRun s f p corner seq handle) = erase κ s := by
  unfold attachRun
  repeat' (first | (simp [*]; done) | split | rfl)

@[simp ↓] theorem erase_startTest (κ : Mask) (s : State) (f slot : Nat) (w : BenchWait) (t : TestStart)
    (h_fields : κ.fields = true) (h_guards : κ.guards = true) (h_arrivals : κ.arrivals = true) :
    erase κ (startTest s f slot w t) = erase κ s := by
  unfold startTest
  simp [*]

@[simp ↓] theorem erase_startSegment (κ : Mask) (s : State) (f : Nat) (e : Nat × BenchSlot)
    (h_fields : κ.fields = true) (h_guards : κ.guards = true) (h_out : κ.out = true) :
    erase κ (startSegment s f e) = erase κ s := by
  unfold startSegment
  simp [*]

@[simp ↓] theorem erase_openWindow (κ : Mask) (s : State) (f : Nat)
    (h_fields : κ.fields = true) (h_guards : κ.guards = true) (h_out : κ.out = true) :
    erase κ (openWindow s f) = erase κ s := by
  unfold openWindow
  simp [*]

@[simp ↓] theorem erase_endTest (κ : Mask) (s : State) (f slot result : Nat)
    (h_fe : κ.fe = true) (h_hutch : κ.hutch = true) (h_parts : κ.parts = true) (h_fields : κ.fields = true) (h_guards : κ.guards = true) (h_hang : κ.hang = true) (h_arb : κ.arb = true) (h_sched : κ.sched = true) (h_sig : κ.sig = true) (h_out : κ.out = true) (h_arrivals : κ.arrivals = true) :
    erase κ (endTest s f slot result) = erase κ s := by
  unfold endTest
  dsimp only
  repeat' (first | (simp [*]; done) | split | (refine (erase_foldl _ _ ?_ _ _).trans ?_) | (intro _ _) | simp [*])

@[simp ↓] theorem erase_recordFmax (κ : Mask) (s : State) (f p mhz : Nat)
    (h_hutch : κ.hutch = true) :
    erase κ (recordFmax s f p mhz) = erase κ s := by
  unfold recordFmax
  simp [*]

@[simp ↓] theorem erase_setSlotB (κ : Mask) (s : State) (f slot : Nat) (b : BenchSlot)
    (h_fields : κ.fields = true) :
    erase κ (setSlotB s f slot b) = erase κ s := by
  unfold setSlotB
  simp [*]

@[simp ↓] theorem erase_segmentPassed (κ : Mask) (s : State) (f slot : Nat) (b : BenchSlot)
    (h_fe : κ.fe = true) (h_hutch : κ.hutch = true) (h_parts : κ.parts = true) (h_fields : κ.fields = true) (h_guards : κ.guards = true) (h_hang : κ.hang = true) (h_arb : κ.arb = true) (h_sched : κ.sched = true) (h_sig : κ.sig = true) (h_out : κ.out = true) (h_arrivals : κ.arrivals = true) :
    erase κ (segmentPassed s f slot b) = erase κ s := by
  unfold segmentPassed
  simp [*]

@[simp ↓] theorem erase_segmentFailed (κ : Mask) (s : State) (f slot : Nat) (b : BenchSlot)
    (h_fe : κ.fe = true) (h_hutch : κ.hutch = true) (h_parts : κ.parts = true) (h_fields : κ.fields = true) (h_guards : κ.guards = true) (h_hang : κ.hang = true) (h_arb : κ.arb = true) (h_sched : κ.sched = true) (h_sig : κ.sig = true) (h_out : κ.out = true) (h_arrivals : κ.arrivals = true) :
    erase κ (segmentFailed s f slot b) = erase κ s := by
  unfold segmentFailed
  simp [*]

@[simp ↓] theorem erase_droopedSegment (κ : Mask) (s : State) (f slot : Nat) (b : BenchSlot)
    (h_fe : κ.fe = true) (h_hutch : κ.hutch = true) (h_parts : κ.parts = true) (h_fields : κ.fields = true) (h_guards : κ.guards = true) (h_hang : κ.hang = true) (h_arb : κ.arb = true) (h_sched : κ.sched = true) (h_sig : κ.sig = true) (h_out : κ.out = true) (h_arrivals : κ.arrivals = true) :
    erase κ (droopedSegment s f slot b) = erase κ s := by
  unfold droopedSegment
  simp [*]

@[simp ↓] theorem erase_firmwareDown (κ : Mask) (s : State)
    (h_tray : κ.tray = true) (h_hang : κ.hang = true) :
    erase κ (firmwareDown s) = erase κ s := by
  unfold firmwareDown
  simp [*]

@[simp ↓] theorem erase_noteExcess (κ : Mask) (s : State) (f kind : Nat)
    (h_fields : κ.fields = true) :
    erase κ (noteExcess s f kind) = erase κ s := by
  unfold noteExcess
  simp [*]

@[simp ↓] theorem erase_calibrate (κ : Mask) (s : State) (z page : Nat) (amps : Rat)
    (h_fields : κ.fields = true) :
    erase κ (calibrate s z page amps) = erase κ s := by
  unfold calibrate
  simp [*]

@[simp ↓] theorem erase_failSegment (κ : Mask) (s : State) (z : Nat)
    (h_fields : κ.fields = true) (h_arb : κ.arb = true) (h_out : κ.out = true) (h_status : κ.status = true) (h_arrivals : κ.arrivals = true) :
    erase κ (failSegment s z) = erase κ s := by
  unfold failSegment
  simp [*]

@[simp ↓] theorem erase_passOver (κ : Mask) (s : State) (z : Nat) (turn : PmbusTurn)
    (h_fields : κ.fields = true) (h_arb : κ.arb = true) :
    erase κ (passOver s z turn) = erase κ s := by
  unfold passOver
  repeat' (first | (simp [*]; done) | split | (refine erase_foldl _ _ ?_ _ _; intro _ _))

@[simp ↓] theorem erase_failSlot (κ : Mask) (s : State) (z : Nat) (turn : PmbusTurn)
    (h_fields : κ.fields = true) (h_arb : κ.arb = true) (h_out : κ.out = true) (h_status : κ.status = true) (h_arrivals : κ.arrivals = true) :
    erase κ (failSlot s z turn) = erase κ s := by
  unfold failSlot
  dsimp only
  repeat' (first | (simp [*]; done) | split | rfl)

@[simp ↓] theorem erase_wroteVcore (κ : Mask) (s : State) (f mv : Nat)
    (h_fields : κ.fields = true) :
    erase κ (wroteVcore s f mv) = erase κ s := by
  unfold wroteVcore
  simp [*]

theorem erase_slotDone (κ : Mask) (s t : State) (z : Nat) (turn : PmbusTurn) (reply : PmbusReply)
    (h_fields : κ.fields = true) (h_arb : κ.arb = true) (h_out : κ.out = true)
    (h : slotDone s z turn reply = some t) : erase κ t = erase κ s := by
  unfold slotDone at h
  dsimp only at h
  split at h
  all_goals first | (cases h; done) | (cases h; repeat' (first | (simp [*]; done) | split))

@[simp ↓] theorem erase_emitZone (κ : Mask) (s : State) (z : Nat) (level : Bool)
    (h_arrivals : κ.arrivals = true) :
    erase κ (emitZone s z level) = erase κ s := by
  unfold emitZone
  simp [*]

@[simp ↓] theorem erase_setPgood (κ : Mask) (s : State) (z : Nat) (v : Bool)
    (h_arb : κ.arb = true) :
    erase κ (setPgood s z v) = erase κ s := by
  unfold setPgood
  simp [*]

@[simp ↓] theorem erase_excludeLost (κ : Mask) (s : State) (fs : List Nat)
    (h_fields : κ.fields = true) (h_boot : κ.boot = true) (h_out : κ.out = true) (h_status : κ.status = true) (h_arrivals : κ.arrivals = true) :
    erase κ (excludeLost s fs) = erase κ s := by
  unfold excludeLost
  simp [*]

@[simp ↓] theorem erase_stopWardens (κ : Mask) (s : State) (fs : List Nat)
    (h_parts : κ.parts = true) (h_fields : κ.fields = true) (h_guards : κ.guards = true) (h_hang : κ.hang = true) (h_arrivals : κ.arrivals = true) :
    erase κ (stopWardens s fs) = erase κ s := by
  unfold stopWardens
  simp [*]

@[simp ↓] theorem erase_startWarden (κ : Mask) (s : State) (f : Nat)
    (h_fields : κ.fields = true) :
    erase κ (startWarden s f) = erase κ s := by
  unfold startWarden
  simp [*]

@[simp ↓] theorem erase_setRailLimit (κ : Mask) (s : State) (rail lim : Nat)
    (h_parts : κ.parts = true) (h_fields : κ.fields = true) (h_arrivals : κ.arrivals = true) :
    erase κ (setRailLimit s rail lim) = erase κ s := by
  unfold setRailLimit
  dsimp only
  repeat' (first | (simp [*]; done) | split | (refine (erase_foldl _ _ ?_ _ _).trans ?_) | (intro _ _) | simp [*])

@[simp ↓] theorem erase_startSpots (κ : Mask) (s : State) (f : Nat)
    (h_fields : κ.fields = true) (h_out : κ.out = true) :
    erase κ (startSpots s f) = erase κ s := by
  unfold startSpots
  dsimp only
  repeat' (first | (simp [*]; done) | split | (refine (erase_foldl _ _ ?_ _ _).trans ?_) | (intro _ _) | simp [*])

@[simp ↓] theorem erase_noteHolds (κ : Mask) (s : State) (f : Nat)
    (h_fields : κ.fields = true) :
    erase κ (noteHolds s f) = erase κ s := by
  unfold noteHolds
  simp [*]

@[simp ↓] theorem erase_arriveAtSeam (κ : Mask) (s : State) (f cycles : Nat) (taps : List EngineTap)
    (h_fe : κ.fe = true) (h_hutch : κ.hutch = true) (h_parts : κ.parts = true) (h_fields : κ.fields = true) (h_guards : κ.guards = true) (h_tiles : κ.tiles = true) (h_groups : κ.groups = true) (h_hang : κ.hang = true) (h_sched : κ.sched = true) (h_sig : κ.sig = true) (h_out : κ.out = true) (h_arrivals : κ.arrivals = true) :
    erase κ (arriveAtSeam s f cycles taps) = erase κ s := by
  unfold arriveAtSeam
  dsimp only
  repeat' (first | (simp [*]; done) | split | (refine (erase_foldl _ _ ?_ _ _).trans ?_) | (intro _ _) | simp [*])

@[simp ↓] theorem erase_arriveForGood (κ : Mask) (s : State) (p f cycles : Nat)
    (h_fe : κ.fe = true) (h_hutch : κ.hutch = true) (h_parts : κ.parts = true) (h_fields : κ.fields = true) (h_guards : κ.guards = true) (h_tiles : κ.tiles = true) (h_groups : κ.groups = true) (h_side : κ.side = true) (h_hang : κ.hang = true) (h_sched : κ.sched = true) (h_sig : κ.sig = true) (h_out : κ.out = true) (h_arrivals : κ.arrivals = true) :
    erase κ (arriveForGood s p f cycles) = erase κ s := by
  unfold arriveForGood
  simp [*]

@[simp ↓] theorem erase_loseImage (κ : Mask) (s : State) (g : Group) (again : List ReplayFail)
    (h_hutch : κ.hutch = true) (h_parts : κ.parts = true) (h_fields : κ.fields = true) (h_guards : κ.guards = true) (h_groups : κ.groups = true) (h_hang : κ.hang = true) (h_sched : κ.sched = true) (h_sig : κ.sig = true) (h_arrivals : κ.arrivals = true) :
    erase κ (loseImage s g again) = erase κ s := by
  unfold loseImage
  simp [*]

@[simp ↓] theorem erase_groupCopyDone (κ : Mask) (s : State) (g : Group) (e : Nat × Nat) (ok : Bool) (cycles : Nat)
    (h_hutch : κ.hutch = true) (h_parts : κ.parts = true) (h_fields : κ.fields = true) (h_guards : κ.guards = true) (h_groups : κ.groups = true) (h_hang : κ.hang = true) (h_sched : κ.sched = true) (h_sig : κ.sig = true) (h_out : κ.out = true) (h_arrivals : κ.arrivals = true) :
    erase κ (groupCopyDone s g e ok cycles) = erase κ s := by
  unfold groupCopyDone
  simp [*]

@[simp ↓] theorem erase_imageTo (κ : Mask) (s : State) (f src dst : Nat)
    (h_out : κ.out = true) :
    erase κ (imageTo s f src dst) = erase κ s := by
  unfold imageTo
  simp [*]

theorem erase_seamCopyDone (κ : Mask) (s t : State) (f target : Nat) (ok : Bool) (h_fields : κ.fields = true) (h_out : κ.out = true)
    (h : seamCopyDone s f target ok = some t) : erase κ t = erase κ s := by
  unfold seamCopyDone at h
  split at h
  · cases h; simp [*]
  · cases h; simp [*]
  · cases h

@[simp ↓] theorem erase_spotSpareFailed (κ : Mask) (s : State) (f : Nat) (c : Spot) (cls : Nat) (word : Dword)
    (h_hutch : κ.hutch = true) (h_fields : κ.fields = true) (h_guards : κ.guards = true) (h_sched : κ.sched = true) (h_arrivals : κ.arrivals = true) :
    erase κ (spotSpareFailed s f c cls word) = erase κ s := by
  unfold spotSpareFailed
  simp [*]

@[simp ↓] theorem erase_spotMismatch (κ : Mask) (s : State) (f : Nat) (c : Spot) (cycles : Nat)
    (h_hutch : κ.hutch = true) (h_parts : κ.parts = true) (h_fields : κ.fields = true) (h_guards : κ.guards = true) (h_hang : κ.hang = true) (h_sched : κ.sched = true) (h_arrivals : κ.arrivals = true) :
    erase κ (spotMismatch s f c cycles) = erase κ s := by
  unfold spotMismatch
  simp [*]

@[simp ↓] theorem erase_setContexts (κ : Mask) (s : State) (l : List Context)
    (h_side : κ.side = true) :
    erase κ (setContexts s l) = erase κ s := by
  unfold setContexts
  simp [*]

@[simp ↓] theorem erase_putContext (κ : Mask) (s : State) (c : Context)
    (h_side : κ.side = true) :
    erase κ (putContext s c) = erase κ s := by
  unfold putContext
  simp [*]

@[simp ↓] theorem erase_emitDigest (κ : Mask) (s : State) (typ : Nat) (c : Context) (other : Nat) (word : Dword)
    (h_arrivals : κ.arrivals = true) :
    erase κ (emitDigest s typ c other word) = erase κ s := by
  unfold emitDigest
  simp [*]

@[simp ↓] theorem erase_sendExchange (κ : Mask) (s : State) (c : Context) (typ : Nat) (matches_ : Bool)
    (h_out : κ.out = true) :
    erase κ (sendExchange s c typ matches_) = erase κ s := by
  unfold sendExchange
  simp [*]

@[simp ↓] theorem erase_answerCmds (κ : Mask) (s : State) (c : Context) (cmds : List (Nat × Nat)) (status : Nat)
    (h_fe : κ.fe = true) (h_out : κ.out = true) :
    erase κ (answerCmds s c cmds status) = erase κ s := by
  unfold answerCmds
  repeat' (first | (simp [*]; done) | split | (refine erase_foldl _ _ ?_ _ _; intro _ _))

@[simp ↓] theorem erase_leaveComparisons (κ : Mask) (s : State) (c : Context) (status : Nat)
    (h_fe : κ.fe = true) (h_side : κ.side = true) (h_out : κ.out = true) :
    erase κ (leaveComparisons s c status) = erase κ s := by
  unfold leaveComparisons
  simp [*]

@[simp ↓] theorem erase_expelContext (κ : Mask) (s : State) (c : Context) (other : Nat) (word : Dword)
    (h_fe : κ.fe = true) (h_side : κ.side = true) (h_out : κ.out = true) (h_arrivals : κ.arrivals = true) :
    erase κ (expelContext s c other word) = erase κ s := by
  unfold expelContext
  simp [*]

@[simp ↓] theorem erase_expelFinding (κ : Mask) (s : State) (c : Context) (word : Dword) (seqNo : Nat)
    (h_free : κ.free = true) (h_parts : κ.parts = true) (h_sig : κ.sig = true) :
    erase κ (expelFinding s c word seqNo) = erase κ s := by
  unfold expelFinding
  simp [*]

@[simp ↓] theorem erase_expelByRule (κ : Mask) (s : State) (c : Context) (outcome other : Nat) (remote : Bool)
    (h_free : κ.free = true) (h_fe : κ.fe = true) (h_parts : κ.parts = true) (h_side : κ.side = true) (h_sig : κ.sig = true) (h_out : κ.out = true) (h_arrivals : κ.arrivals = true) :
    erase κ (expelByRule s c outcome other remote) = erase κ s := by
  unfold expelByRule
  simp [*]

@[simp ↓] theorem erase_slackFigures (κ : Mask) (s : State) (f c : Nat)
    (h_parts : κ.parts = true) (h_fields : κ.fields = true) (h_arrivals : κ.arrivals = true) :
    erase κ (slackFigures s f c) = erase κ s := by
  unfold slackFigures
  dsimp only
  repeat' (first | (simp [*]; done) | split | (refine (erase_foldl _ _ ?_ _ _).trans ?_) | (intro _ _) | simp [*])

@[simp ↓] theorem erase_chargeSlack (κ : Mask) (s : State) (f heldCycles : Nat)
    (h_parts : κ.parts = true) (h_fields : κ.fields = true) (h_arrivals : κ.arrivals = true) :
    erase κ (chargeSlack s f heldCycles) = erase κ s := by
  unfold chargeSlack
  dsimp only
  repeat' (first | (simp [*]; done) | split | (refine (erase_foldl _ _ ?_ _ _).trans ?_) | (intro _ _) | simp [*])

@[simp ↓] theorem erase_chargeHolds (κ : Mask) (s : State)
    (h_parts : κ.parts = true) (h_fields : κ.fields = true) (h_arrivals : κ.arrivals = true) :
    erase κ (chargeHolds s) = erase κ s := by
  unfold chargeHolds
  simp [*]

@[simp ↓] theorem erase_endToken (κ : Mask) (s : State) (f : Nat)
    (h_fields : κ.fields = true) (h_arrivals : κ.arrivals = true) :
    erase κ (endToken s f) = erase κ s := by
  unfold endToken
  simp [*]

@[simp ↓] theorem erase_noteDisturbed (κ : Mask) (s : State) (f heldCycles : Nat) (moved : Bool)
    (h_fields : κ.fields = true) :
    erase κ (noteDisturbed s f heldCycles moved) = erase κ s := by
  unfold noteDisturbed
  simp [*]

@[simp ↓] theorem erase_settleBorder (κ : Mask) (s : State) (f : Nat) (busy : List Nat)
    (h_hutch : κ.hutch = true) (h_parts : κ.parts = true) (h_fields : κ.fields = true) (h_guards : κ.guards = true) (h_hang : κ.hang = true) (h_arrivals : κ.arrivals = true) :
    erase κ (settleBorder s f busy) = erase κ s := by
  unfold settleBorder
  simp [*]

@[simp ↓] theorem erase_finishQuarantine (κ : Mask) (s : State) (c : Claim) (f st : Nat) (serving : Nat)
    (h_fe : κ.fe = true) (h_out : κ.out = true) :
    erase κ (finishQuarantine s c f st serving) = erase κ s := by
  unfold finishQuarantine
  repeat' (first | (simp [*]; done) | split | (refine erase_foldl _ _ ?_ _ _; intro _ _))

@[simp ↓] theorem erase_keepClaim (κ : Mask) (s : State) (f : Nat) (c : Claim)
    (h_fields : κ.fields = true) :
    erase κ (keepClaim s f c) = erase κ s := by
  unfold keepClaim
  simp [*]

@[simp ↓] theorem erase_retryClaim (κ : Mask) (s : State) (f : Nat) (c : Claim)
    (h_fe : κ.fe = true) (h_fields : κ.fields = true) (h_out : κ.out = true) :
    erase κ (retryClaim s f c) = erase κ s := by
  unfold retryClaim
  repeat' (first | (simp [*]; done) | split | (refine erase_foldl _ _ ?_ _ _; intro _ _))

@[simp ↓] theorem erase_processClaim (κ : Mask) (s : State) (f : Nat) (busy : List Nat) (acc : List Accepted) (c : Claim)
    (h_fe : κ.fe = true) (h_hutch : κ.hutch = true) (h_fields : κ.fields = true) (h_side : κ.side = true) (h_hang : κ.hang = true) (h_out : κ.out = true) (h_arrivals : κ.arrivals = true) :
    erase κ (processClaim s f busy acc c).1 = erase κ s := by
  unfold processClaim
  dsimp only
  repeat' (first | (simp [*]; done) | split | rfl)

@[simp ↓] theorem erase_processClaims (κ : Mask) (s : State) (f : Nat)
    (h_fe : κ.fe = true) (h_hutch : κ.hutch = true) (h_fields : κ.fields = true) (h_side : κ.side = true) (h_hang : κ.hang = true) (h_out : κ.out = true) (h_arrivals : κ.arrivals = true) :
    erase κ (processClaims s f).1 = erase κ s := by
  unfold processClaims
  refine (erase_foldl_fst κ _ ?_ _ _).trans ?_
  · intro a x
    simp [*]
  · simp [*]

@[simp ↓] theorem erase_benchSwap (κ : Mask) (s : State) (f : Nat) (acc : List Accepted) (e : Nat × BenchSlot)
    (h_hutch : κ.hutch = true) (h_fields : κ.fields = true) (h_guards : κ.guards = true) (h_side : κ.side = true) (h_arrivals : κ.arrivals = true) :
    erase κ (benchSwap s f acc e).1 = erase κ s := by
  unfold benchSwap
  dsimp only
  repeat' (first | (simp [*]; done) | split | rfl)

@[simp ↓] theorem erase_benchConclude (κ : Mask) (s : State) (f : Nat) (e : Nat × BenchSlot)
    (h_fe : κ.fe = true) (h_hutch : κ.hutch = true) (h_parts : κ.parts = true) (h_fields : κ.fields = true) (h_guards : κ.guards = true) (h_sched : κ.sched = true) (h_sig : κ.sig = true) (h_out : κ.out = true) (h_arrivals : κ.arrivals = true) :
    erase κ (benchConclude s f e) = erase κ s := by
  unfold benchConclude
  dsimp only
  repeat' (first | (simp [*]; done) | split | (refine (erase_foldl _ _ ?_ _ _).trans ?_) | (intro _ _) | simp [*])

@[simp ↓] theorem erase_clearDuplicates (κ : Mask) (s : State) (f : Nat) (acc : List Accepted)
    (h_arrivals : κ.arrivals = true) :
    erase κ (clearDuplicates s f acc) = erase κ s := by
  unfold clearDuplicates
  simp [*]

@[simp ↓] theorem erase_epochSwitch (κ : Mask) (s : State) (f : Nat) (acc : List Accepted)
    (h_fe : κ.fe = true) (h_fields : κ.fields = true) (h_out : κ.out = true) (h_arrivals : κ.arrivals = true) :
    erase κ (epochSwitch s f acc) = erase κ s := by
  unfold epochSwitch
  simp [*]

@[simp ↓] theorem erase_supersedeSpots (κ : Mask) (s : State) (f : Nat) (acc : List Accepted)
    (h_hutch : κ.hutch = true) (h_fields : κ.fields = true) (h_arrivals : κ.arrivals = true) :
    erase κ (supersedeSpots s f acc) = erase κ s := by
  unfold supersedeSpots
  dsimp only
  repeat' (first | (simp [*]; done) | split | (refine (erase_foldl _ _ ?_ _ _).trans ?_) | (intro _ _) | simp [*])

@[simp ↓] theorem erase_switchClock (κ : Mask) (s : State) (f new cause : Nat) (c : Option FreqChange)
    (h_fields : κ.fields = true) (h_arrivals : κ.arrivals = true) :
    erase κ (switchClock s f new cause c) = erase κ s := by
  unfold switchClock
  simp [*]

@[simp ↓] theorem erase_clockOrder (κ : Mask) (s : State) (f : Nat)
    (h_fields : κ.fields = true) (h_arb : κ.arb = true) (h_arrivals : κ.arrivals = true) :
    erase κ (clockOrder s f) = erase κ s := by
  unfold clockOrder
  dsimp only
  repeat' (first | (simp [*]; done) | split | (refine (erase_foldl _ _ ?_ _ _).trans ?_) | (intro _ _) | simp [*])

@[simp ↓] theorem erase_chainToken (κ : Mask) (s : State) (log : Nat) (payload : List Word)
    (h_side : κ.side = true) (h_arrivals : κ.arrivals = true) :
    erase κ (chainToken s log payload) = erase κ s := by
  unfold chainToken
  dsimp only
  repeat' (first | (simp [*]; done) | split | (refine (erase_foldl _ _ ?_ _ _).trans ?_) | (intro _ _) | simp [*])

@[simp ↓] theorem erase_releasePorts (κ : Mask) (s : State) (f : Nat) (held : List (Nat × Option Nat)) (token : Bool)
    (h_side : κ.side = true) (h_out : κ.out = true) (h_arrivals : κ.arrivals = true) :
    erase κ (releasePorts s f held token) = erase κ s := by
  unfold releasePorts
  dsimp only
  repeat' (first | (simp [*]; done) | split | (refine (erase_foldl _ _ ?_ _ _).trans ?_) | (intro _ _) | simp [*])

@[simp ↓] theorem erase_releaseGuards (κ : Mask) (s : State) (f : Nat)
    (h_guards : κ.guards = true) :
    erase κ (releaseGuards s f) = erase κ s := by
  unfold releaseGuards
  simp [*]

@[simp ↓] theorem erase_leaveGroups (κ : Mask) (s : State) (f : Nat)
    (h_fields : κ.fields = true) (h_groups : κ.groups = true) :
    erase κ (leaveGroups s f) = erase κ s := by
  unfold leaveGroups
  simp [*]

@[simp ↓] theorem erase_forgetCopies (κ : Mask) (s : State) (f : Nat)
    (h_fields : κ.fields = true) :
    erase κ (forgetCopies s f) = erase κ s := by
  unfold forgetCopies
  simp [*]

@[simp ↓] theorem erase_startStep (κ : Mask) (s : State) (f heldCycles : Nat) (held : List (Nat × Option Nat))
    (h_fe : κ.fe = true) (h_fields : κ.fields = true) (h_guards : κ.guards = true) (h_groups : κ.groups = true) (h_side : κ.side = true) (h_out : κ.out = true) (h_arrivals : κ.arrivals = true) :
    erase κ (startStep s f heldCycles held) = erase κ s := by
  unfold startStep
  simp [*]

@[simp ↓] theorem erase_deferBusy (κ : Mask) (s : State) (f : Nat) (busy : List Nat)
    (h_fe : κ.fe = true) :
    erase κ (deferBusy s f busy) = erase κ s := by
  unfold deferBusy
  simp [*]

@[simp ↓] theorem erase_passTime (κ : Mask) (s : State)
    (h_now : κ.now = true) (h_parts : κ.parts = true) (h_fields : κ.fields = true) (h_arrivals : κ.arrivals = true) :
    erase κ (passTime s) = erase κ s := by
  unfold passTime
  simp [*]

@[simp ↓] theorem erase_seamActions (κ : Mask) (s : State) (f heldCycles : Nat) (swaps : List (Nat × BenchSlot))
    (h_fe : κ.fe = true) (h_hutch : κ.hutch = true) (h_parts : κ.parts = true) (h_fields : κ.fields = true) (h_guards : κ.guards = true) (h_side : κ.side = true) (h_hang : κ.hang = true) (h_arb : κ.arb = true) (h_sched : κ.sched = true) (h_sig : κ.sig = true) (h_out : κ.out = true) (h_arrivals : κ.arrivals = true) :
    erase κ (seamActions s f heldCycles swaps) = erase κ s := by
  unfold seamActions
  extract_lets busy rows s1 a b s2 s3 s4
  have h1 : erase κ s1 = erase κ s := by simp [s1, *]
  have ha : erase κ b.1 = erase κ s1 := by
    refine (erase_foldl_fst κ _ ?_ swaps a).trans (erase_processClaims κ s1 f h_fe h_hutch h_fields h_side h_hang h_out h_arrivals)
    intro a x
    simp [*]
  have h2 : erase κ s2 = erase κ b.1 := by simp [s2, *]
  have h3 : erase κ s3 = erase κ s2 := erase_foldl _ _ (by intro s e; simp [*]) _ _
  have h4 : erase κ s4 = erase κ s3 := by simp only [s4]; split <;> simp [*]
  clear_value s4 s3 s2 b s1
  split
  · exact h1
  · simp [*]

@[simp ↓] theorem erase_repeatStages (κ : Mask) (s : State) (c : Cmd) (f : Nat)
    (h_fields : κ.fields = true) (h_boot : κ.boot = true) :
    erase κ (repeatStages s c f) = erase κ s := by
  unfold repeatStages
  simp [*]

@[simp ↓] theorem erase_endUnload (κ : Mask) (s : State) (r : ResetRun)
    (h_fe : κ.fe = true) (h_hutch : κ.hutch = true) (h_parts : κ.parts = true) (h_fields : κ.fields = true) (h_guards : κ.guards = true) (h_tiles : κ.tiles = true) (h_groups : κ.groups = true) (h_side : κ.side = true) (h_hang : κ.hang = true) (h_boot : κ.boot = true) (h_sched : κ.sched = true) (h_sig : κ.sig = true) (h_out : κ.out = true) (h_arrivals : κ.arrivals = true) :
    erase κ (endUnload s r) = erase κ s := by
  unfold endUnload
  repeat' (first | (simp [*]; done) | split | (refine erase_foldl _ _ ?_ _ _; intro _ _))

@[simp ↓] theorem erase_emitReset (κ : Mask) (s : State) (r : ResetRun) (word : Dword)
    (h_arrivals : κ.arrivals = true) :
    erase κ (emitReset s r word) = erase κ s := by
  unfold emitReset
  simp [*]

@[simp ↓] theorem erase_emitTrip (κ : Mask) (s : State) (k : Trip) (seconds broken : Nat)
    (h_arrivals : κ.arrivals = true) :
    erase κ (emitTrip s k seconds broken) = erase κ s := by
  unfold emitTrip
  simp [*]

@[simp ↓] theorem erase_sendTrips (κ : Mask) (s : State)
    (h_arb : κ.arb = true) (h_arrivals : κ.arrivals = true) :
    erase κ (sendTrips s) = erase κ s := by
  unfold sendTrips
  refine (erase_foldl _ _ (by intro s k; simp [emitTrip, *]) _ _).trans ?_
  simp [*]

@[simp ↓] theorem erase_hangLoss (κ : Mask) (s : State) (f cause : Nat)
    (h_parts : κ.parts = true) (h_fields : κ.fields = true) (h_guards : κ.guards = true) (h_hang : κ.hang = true) :
    erase κ (hangLoss s f cause) = erase κ s := by
  unfold hangLoss
  simp [*]

@[simp ↓] theorem erase_reissue (κ : Mask) (s : State) (f slot : Nat)
    (h_fields : κ.fields = true) :
    erase κ (reissue s f slot) = erase κ s := by
  unfold reissue
  repeat' (first | (simp [*]; done) | split | (refine erase_foldl _ _ ?_ _ _; intro _ _))

@[simp ↓] theorem erase_resetWarden (κ : Mask) (s : State) (f : Nat)
    (h_parts : κ.parts = true) (h_fields : κ.fields = true) (h_guards : κ.guards = true) (h_hang : κ.hang = true) (h_arrivals : κ.arrivals = true) :
    erase κ (resetWarden s f) = erase κ s := by
  unfold resetWarden
  simp [*]

@[simp ↓] theorem erase_lateTrips (κ : Mask) (s : State)
    (h_parts : κ.parts = true) (h_fields : κ.fields = true) (h_guards : κ.guards = true) (h_hang : κ.hang = true) (h_arb : κ.arb = true) (h_arrivals : κ.arrivals = true) :
    erase κ (lateTrips s) = erase κ s := by
  unfold lateTrips
  simp [*]

@[simp ↓] theorem erase_setTherm (κ : Mask) (s : State) (f : Nat) (t : Thermal)
    (h_fields : κ.fields = true) (h_arb : κ.arb = true) :
    erase κ (setTherm s f t) = erase κ s := by
  unfold setTherm
  simp [*]

@[simp ↓] theorem erase_setThermWarn (κ : Mask) (s : State)
    (h_out : κ.out = true) (h_status : κ.status = true) :
    erase κ (setThermWarn s) = erase κ s := by
  unfold setThermWarn
  simp [*]

@[simp ↓] theorem erase_emitThermBand (κ : Mask) (s : State) (f old new : Nat) (rate : Bool)
    (h_fields : κ.fields = true) (h_arb : κ.arb = true) (h_arrivals : κ.arrivals = true) :
    erase κ (emitThermBand s f old new rate) = erase κ s := by
  unfold emitThermBand
  simp [*]

@[simp ↓] theorem erase_setBand (κ : Mask) (s : State) (f new : Nat) (reads : Bool)
    (h_fields : κ.fields = true) (h_arb : κ.arb = true) (h_out : κ.out = true) (h_status : κ.status = true) (h_arrivals : κ.arrivals = true) :
    erase κ (setBand s f new reads) = erase κ s := by
  unfold setBand
  simp [*]

@[simp ↓] theorem erase_noteRise (κ : Mask) (s : State) (f : Nat)
    (h_fields : κ.fields = true) (h_arb : κ.arb = true) (h_arrivals : κ.arrivals = true) :
    erase κ (noteRise s f) = erase κ s := by
  unfold noteRise
  dsimp only
  repeat' (first | (simp [*]; done) | split | (refine (erase_foldl _ _ ?_ _ _).trans ?_) | (intro _ _) | simp [*])

@[simp ↓] theorem erase_noteCool (κ : Mask) (s : State) (f : Nat)
    (h_fields : κ.fields = true) (h_arb : κ.arb = true) :
    erase κ (noteCool s f) = erase κ s := by
  unfold noteCool
  dsimp only
  repeat' (first | (simp [*]; done) | split | (refine (erase_foldl _ _ ?_ _ _).trans ?_) | (intro _ _) | simp [*])

@[simp ↓] theorem erase_emitSensorFault (κ : Mask) (s : State) (f d : Nat) (r : Option Int) (before : Int) (x : Thermal) (reseeded : Bool)
    (h_fields : κ.fields = true) (h_arrivals : κ.arrivals = true) :
    erase κ (emitSensorFault s f d r before x reseeded) = erase κ s := by
  unfold emitSensorFault
  simp [*]

@[simp ↓] theorem erase_readDiode (κ : Mask) (s : State) (f d : Nat) (r : Option Int) (others : List (Nat × Option Int))
    (h_fields : κ.fields = true) (h_arb : κ.arb = true) (h_out : κ.out = true) (h_status : κ.status = true) (h_arrivals : κ.arrivals = true) :
    erase κ (readDiode s f d r others) = erase κ s := by
  unfold readDiode
  simp [*]

@[simp ↓] theorem erase_readAll (κ : Mask) (s : State) (f : Nat) (readings : List (Option Int))
    (h_fields : κ.fields = true) (h_arb : κ.arb = true) (h_out : κ.out = true) (h_status : κ.status = true) (h_arrivals : κ.arrivals = true) :
    erase κ (readAll s f readings) = erase κ s := by
  unfold readAll
  dsimp only
  repeat' (first | (simp [*]; done) | split | (refine (erase_foldl _ _ ?_ _ _).trans ?_) | (intro _ _) | simp [*])

@[simp ↓] theorem erase_latchTrip (κ : Mask) (s : State) (t : TripSource) (parts : Nat)
    (h_arb : κ.arb = true) (h_out : κ.out = true) (h_status : κ.status = true) :
    erase κ (latchTrip s t parts) = erase κ s := by
  unfold latchTrip
  simp [*]

@[simp ↓] theorem erase_stopHard (κ : Mask) (s : State) (fs : List Nat)
    (h_fields : κ.fields = true) :
    erase κ (stopHard s fs) = erase κ s := by
  unfold stopHard
  simp [*]

@[simp ↓] theorem erase_leaveWave (κ : Mask) (s : State) (fs : List Nat)
    (h_boot : κ.boot = true) :
    erase κ (leaveWave s fs) = erase κ s := by
  unfold leaveWave
  simp [*]

@[simp ↓] theorem erase_loseHub (κ : Mask) (s : State)
    (h_fe : κ.fe = true) (h_regs : κ.regs = true) (h_cab : κ.cab = true) (h_arm : κ.arm = true) (h_svc : κ.svc = true) (h_hutch : κ.hutch = true) (h_side : κ.side = true) (h_hang : κ.hang = true) (h_arb : κ.arb = true) (h_sched : κ.sched = true) (h_sig : κ.sig = true) (h_capCeil : κ.capCeil = true) (h_cap : κ.cap = true) :
    erase κ (loseHub s) = erase κ s := by
  unfold loseHub
  simp [*]

@[simp ↓] theorem erase_releaseTrip (κ : Mask) (s : State) (t : TripSource)
    (h_arb : κ.arb = true) :
    erase κ (releaseTrip s t) = erase κ s := by
  unfold releaseTrip
  simp [*]

@[simp ↓] theorem erase_restartZone (κ : Mask) (s : State) (z : Nat)
    (h_fields : κ.fields = true) :
    erase κ (restartZone s z) = erase κ s := by
  unfold restartZone
  simp [*]

@[simp ↓] theorem erase_restartHub (κ : Mask) (s : State)
    (h_free : κ.free = true) (h_arm : κ.arm = true) (h_fields : κ.fields = true) (h_hang : κ.hang = true) (h_arb : κ.arb = true) (h_arrivals : κ.arrivals = true) (h_gens : κ.gens = true) :
    erase κ (restartHub s) = erase κ s := by
  unfold restartHub
  simp [*]

@[simp ↓] theorem erase_seedTherm (κ : Mask) (s : State) (f : Nat) (rs : List (Option Int)) (cold : Bool)
    (h_fields : κ.fields = true) (h_arb : κ.arb = true) (h_out : κ.out = true) (h_status : κ.status = true) (h_arrivals : κ.arrivals = true) :
    erase κ (seedTherm s f rs cold) = erase κ s := by
  unfold seedTherm
  dsimp only
  repeat' (first | (simp [*]; done) | split | (refine (erase_foldl _ _ ?_ _ _).trans ?_) | (intro _ _) | simp [*])

@[simp ↓] theorem erase_recovered (κ : Mask) (s : State) (norOk : Bool)
    (h_tray : κ.tray = true) (h_nor : κ.nor = true) (h_cab : κ.cab = true) (h_hutch : κ.hutch = true) (h_fields : κ.fields = true) (h_boot : κ.boot = true) (h_arrivals : κ.arrivals = true) (h_aCounter : κ.aCounter = true) :
    erase κ (recovered s norOk) = erase κ s := by
  unfold recovered
  dsimp only
  repeat' (first | (simp [*]; done) | split | (refine (erase_foldl _ _ ?_ _ _).trans ?_) | (intro _ _) | simp [*])

@[simp ↓] theorem erase_waferFails (κ : Mask) (s : State) (cause ms : Nat)
    (h_nor : κ.nor = true) (h_cab : κ.cab = true) (h_svc : κ.svc = true) (h_hutch : κ.hutch = true) (h_boot : κ.boot = true) (h_out : κ.out = true) (h_status : κ.status = true) (h_arrivals : κ.arrivals = true) :
    erase κ (waferFails s cause ms) = erase κ s := by
  unfold waferFails
  simp [*]

@[simp ↓] theorem erase_authenticate (κ : Mask) (s : State) (unsealed : Bool)
    (h_free : κ.free = true) (h_arm : κ.arm = true) (h_hang : κ.hang = true) :
    erase κ (authenticate s unsealed) = erase κ s := by
  unfold authenticate
  simp [*]

@[simp ↓] theorem erase_enterStage (κ : Mask) (s : State) (n : Nat)
    (h_boot : κ.boot = true) :
    erase κ (enterStage s n) = erase κ s := by
  unfold enterStage
  simp [*]

@[simp ↓] theorem erase_endWaferStage (κ : Mask) (s : State) (found : StageFound)
    (h_free : κ.free = true) (h_tray : κ.tray = true) (h_nor : κ.nor = true) (h_cab : κ.cab = true) (h_arm : κ.arm = true) (h_hutch : κ.hutch = true) (h_fields : κ.fields = true) (h_hang : κ.hang = true) (h_boot : κ.boot = true) (h_out : κ.out = true) (h_status : κ.status = true) (h_arrivals : κ.arrivals = true) :
    erase κ (endWaferStage s found) = erase κ s := by
  unfold endWaferStage
  simp [*]

@[simp ↓] theorem erase_wardenUp (κ : Mask) (s : State) (f : Nat) (diodes : List (Option Int))
    (h_fields : κ.fields = true) (h_arb : κ.arb = true) (h_out : κ.out = true) (h_status : κ.status = true) (h_arrivals : κ.arrivals = true) :
    erase κ (wardenUp s f diodes) = erase κ s := by
  unfold wardenUp
  simp [*]

@[simp ↓] theorem erase_endS2 (κ : Mask) (s : State) (found : StageFound) (fs : List Nat)
    (h_nor : κ.nor = true) (h_cab : κ.cab = true) (h_hutch : κ.hutch = true) (h_fields : κ.fields = true) (h_arb : κ.arb = true) (h_boot : κ.boot = true) (h_out : κ.out = true) (h_status : κ.status = true) (h_arrivals : κ.arrivals = true) :
    erase κ (endS2 s found fs) = erase κ s := by
  unfold endS2
  simp [*]

@[simp ↓] theorem erase_trainLinks (κ : Mask) (s : State) (found : StageFound)
    (h_tray : κ.tray = true) (h_hutch : κ.hutch = true) (h_parts : κ.parts = true) (h_fields : κ.fields = true) (h_guards : κ.guards = true) (h_lanes : κ.lanes = true) (h_hang : κ.hang = true) (h_arrivals : κ.arrivals = true) :
    erase κ (trainLinks s found) = erase κ s := by
  unfold trainLinks
  simp [*]

@[simp ↓] theorem erase_offerReduced (κ : Mask) (failed : List Nat) (s : State) (f : Nat)
    (h_hutch : κ.hutch = true) (h_fields : κ.fields = true) (h_arb : κ.arb = true) (h_arrivals : κ.arrivals = true) :
    erase κ (offerReduced failed s f) = erase κ s := by
  unfold offerReduced
  simp [*]

@[simp ↓] theorem erase_endS3 (κ : Mask) (s : State) (found : StageFound) (fs : List Nat)
    (h_tray : κ.tray = true) (h_nor : κ.nor = true) (h_cab : κ.cab = true) (h_hutch : κ.hutch = true) (h_parts : κ.parts = true) (h_fields : κ.fields = true) (h_guards : κ.guards = true) (h_lanes : κ.lanes = true) (h_hang : κ.hang = true) (h_arb : κ.arb = true) (h_boot : κ.boot = true) (h_out : κ.out = true) (h_status : κ.status = true) (h_arrivals : κ.arrivals = true) :
    erase κ (endS3 s found fs) = erase κ s := by
  unfold endS3
  simp [*]

@[simp ↓] theorem erase_endS4 (κ : Mask) (s : State) (found : StageFound) (fs : List Nat)
    (h_nor : κ.nor = true) (h_cab : κ.cab = true) (h_hutch : κ.hutch = true) (h_fields : κ.fields = true) (h_arb : κ.arb = true) (h_boot : κ.boot = true) (h_out : κ.out = true) (h_status : κ.status = true) (h_arrivals : κ.arrivals = true) :
    erase κ (endS4 s found fs) = erase κ s := by
  unfold endS4
  extract_lets step a bad s1 excl good s2 s3 s4
  have ha : erase κ a.1 = erase κ s := by
    refine (erase_foldl_fst κ step ?_ _ _).trans rfl
    intro a r
    simp only [step]
    split
    · rename_i t h
      exact erase_retireRow κ _ t _ _ _ _ h_hutch h_arrivals h
    · simp [*]
  have h1 : erase κ s1 = erase κ a.1 := erase_foldl _ _ (by intro s e; simp [*]) _ _
  have h3 : erase κ s3 = erase κ s1 := by simp [s3, s2, *]
  have h4 : erase κ s4 = erase κ s3 := erase_foldl _ _ (by intro s e; simp [*]) _ _
  clear_value s4 s3 s1 a
  simp [*]

@[simp ↓] theorem erase_lowerTile (κ : Mask) (s : State) (t mhz : Nat)
    (h_hutch : κ.hutch = true) (h_arrivals : κ.arrivals = true) :
    erase κ (lowerTile s t mhz) = erase κ s := by
  unfold lowerTile
  simp [*]

@[simp ↓] theorem erase_markOutlier (κ : Mask) (s : State) (t : Nat)
    (h_hutch : κ.hutch = true) (h_fields : κ.fields = true) (h_arrivals : κ.arrivals = true) :
    erase κ (markOutlier s t) = erase κ s := by
  unfold markOutlier
  simp [*]

@[simp ↓] theorem erase_endS5 (κ : Mask) (s : State) (found : StageFound) (fs : List Nat)
    (h_nor : κ.nor = true) (h_cab : κ.cab = true) (h_hutch : κ.hutch = true) (h_fields : κ.fields = true) (h_boot : κ.boot = true) (h_out : κ.out = true) (h_status : κ.status = true) (h_arrivals : κ.arrivals = true) :
    erase κ (endS5 s found fs) = erase κ s := by
  unfold endS5
  simp [*]

@[simp ↓] theorem erase_endS6 (κ : Mask) (s : State) (found : StageFound) (fs : List Nat)
    (h_nor : κ.nor = true) (h_cab : κ.cab = true) (h_hutch : κ.hutch = true) (h_fields : κ.fields = true) (h_arb : κ.arb = true) (h_boot : κ.boot = true) (h_out : κ.out = true) (h_status : κ.status = true) (h_arrivals : κ.arrivals = true) :
    erase κ (endS6 s found fs) = erase κ s := by
  unfold endS6
  simp [*]

@[simp ↓] theorem erase_nextWaveStage (κ : Mask) (s : State)
    (h_boot : κ.boot = true) :
    erase κ (nextWaveStage s) = erase κ s := by
  unfold nextWaveStage
  simp [*]

@[simp ↓] theorem erase_endWaveStage (κ : Mask) (s : State) (found : StageFound)
    (h_nor : κ.nor = true) (h_cab : κ.cab = true) (h_hutch : κ.hutch = true) (h_fields : κ.fields = true) (h_arb : κ.arb = true) (h_boot : κ.boot = true) (h_out : κ.out = true) (h_status : κ.status = true) (h_arrivals : κ.arrivals = true) :
    erase κ (endWaveStage s found) = erase κ s := by
  unfold endWaveStage
  simp [*]

@[simp ↓] theorem erase_endRedo (κ : Mask) (s : State) (found : StageFound)
    (h_tray : κ.tray = true) (h_nor : κ.nor = true) (h_cab : κ.cab = true) (h_hutch : κ.hutch = true) (h_parts : κ.parts = true) (h_fields : κ.fields = true) (h_guards : κ.guards = true) (h_lanes : κ.lanes = true) (h_hang : κ.hang = true) (h_arb : κ.arb = true) (h_boot : κ.boot = true) (h_out : κ.out = true) (h_status : κ.status = true) (h_arrivals : κ.arrivals = true) :
    erase κ (endRedo s found) = erase κ s := by
  unfold endRedo
  simp [*]

@[simp ↓] theorem erase_startTestRails (κ : Mask) (s : State) (f : Nat)
    (h_fields : κ.fields = true) (h_arb : κ.arb = true) :
    erase κ (startTestRails s f) = erase κ s := by
  unfold startTestRails
  simp [*]

@[simp ↓] theorem erase_startWave (κ : Mask) (s : State) (fs deferred : List Nat) (stage w : Nat)
    (h_fields : κ.fields = true) (h_arb : κ.arb = true) (h_boot : κ.boot = true) (h_out : κ.out = true) (h_status : κ.status = true) :
    erase κ (startWave s fs deferred stage w) = erase κ s := by
  unfold startWave
  simp [*]

@[simp ↓] theorem erase_clearThrough (κ : Mask) (s : State) (n : Nat)
    (h_nor : κ.nor = true) (h_cab : κ.cab = true) :
    erase κ (clearThrough s n) = erase κ s := by
  unfold clearThrough
  simp [*]

@[simp ↓] theorem erase_quarantineIdle (κ : Mask) (s : State) (c : Cmd) (f p pos reason : Nat)
    (h_fe : κ.fe = true) (h_hutch : κ.hutch = true) (h_parts : κ.parts = true) (h_fields : κ.fields = true) (h_side : κ.side = true) (h_out : κ.out = true) (h_arrivals : κ.arrivals = true) :
    erase κ (quarantineIdle s c f p pos reason) = erase κ s := by
  unfold quarantineIdle
  repeat' (first | (simp [*]; done) | split | (refine erase_foldl _ _ ?_ _ _; intro _ _))

@[simp ↓] theorem erase_quarantineRunning (κ : Mask) (s : State) (c : Cmd) (f p pos reason : Nat)
    (h_fe : κ.fe = true) (h_fields : κ.fields = true) (h_out : κ.out = true) :
    erase κ (quarantineRunning s c f p pos reason) = erase κ s := by
  unfold quarantineRunning
  repeat' (first | (simp [*]; done) | split | (refine erase_foldl _ _ ?_ _ _; intro _ _))

@[simp ↓] theorem erase_quarantineTile (κ : Mask) (s : State) (c : Cmd) (f p reason : Nat)
    (h_fe : κ.fe = true) (h_hutch : κ.hutch = true) (h_parts : κ.parts = true) (h_fields : κ.fields = true) (h_guards : κ.guards = true) (h_side : κ.side = true) (h_sched : κ.sched = true) (h_sig : κ.sig = true) (h_out : κ.out = true) (h_arrivals : κ.arrivals = true) :
    erase κ (quarantineTile s c f p reason) = erase κ s := by
  unfold quarantineTile
  dsimp only
  repeat' (first | (simp [*]; done) | split | (refine (erase_foldl _ _ ?_ _ _).trans ?_) | (intro _ _) | simp [*])

@[simp ↓] theorem erase_quarantineRow (κ : Mask) (s : State) (c : Cmd) (f p row : Nat)
    (h_fe : κ.fe = true) (h_hutch : κ.hutch = true) (h_parts : κ.parts = true) (h_fields : κ.fields = true) (h_guards : κ.guards = true) (h_side : κ.side = true) (h_hang : κ.hang = true) (h_sched : κ.sched = true) (h_sig : κ.sig = true) (h_out : κ.out = true) (h_arrivals : κ.arrivals = true) :
    erase κ (quarantineRow s c f p row) = erase κ s := by
  unfold quarantineRow
  simp [*]

@[simp ↓] theorem erase_quarantineLink (κ : Mask) (s : State) (c : Cmd) (f p edge : Nat)
    (h_fe : κ.fe = true) (h_hutch : κ.hutch = true) (h_parts : κ.parts = true) (h_fields : κ.fields = true) (h_guards : κ.guards = true) (h_hang : κ.hang = true) (h_out : κ.out = true) (h_arrivals : κ.arrivals = true) :
    erase κ (quarantineLink s c f p edge) = erase κ s := by
  unfold quarantineLink
  simp [*]

@[simp ↓] theorem erase_quarantineSlot (κ : Mask) (s : State) (c : Cmd) (f k : Nat)
    (h_fe : κ.fe = true) (h_hutch : κ.hutch = true) (h_parts : κ.parts = true) (h_fields : κ.fields = true) (h_guards : κ.guards = true) (h_hang : κ.hang = true) (h_out : κ.out = true) (h_arrivals : κ.arrivals = true) :
    erase κ (quarantineSlot s c f k) = erase κ s := by
  unfold quarantineSlot
  simp [*]

@[simp ↓] theorem erase_quarantinePhase (κ : Mask) (s : State) (c : Cmd) (z ph : Nat)
    (h_fe : κ.fe = true) (h_hutch : κ.hutch = true) (h_arb : κ.arb = true) (h_out : κ.out = true) (h_arrivals : κ.arrivals = true) :
    erase κ (quarantinePhase s c z ph) = erase κ s := by
  unfold quarantinePhase
  simp [*]

@[simp ↓] theorem erase_releaseAtSeam (κ : Mask) (s : State) (c : Cmd) (f kind p idx left : Nat)
    (h_fe : κ.fe = true) (h_hutch : κ.hutch = true) (h_parts : κ.parts = true) (h_fields : κ.fields = true) (h_guards : κ.guards = true) (h_hang : κ.hang = true) (h_out : κ.out = true) (h_arrivals : κ.arrivals = true) :
    erase κ (releaseAtSeam s c f kind p idx left) = erase κ s := by
  unfold releaseAtSeam
  simp [*]

@[simp ↓] theorem erase_scrubWork (κ : Mask) (s : State) (t : Nat) (fs : List Nat)
    (h_fe : κ.fe = true) (h_hutch : κ.hutch = true) (h_parts : κ.parts = true) (h_fields : κ.fields = true) (h_guards : κ.guards = true) (h_side : κ.side = true) (h_sched : κ.sched = true) (h_sig : κ.sig = true) (h_out : κ.out = true) (h_arrivals : κ.arrivals = true) :
    erase κ (scrubWork s t fs) = erase κ s := by
  unfold scrubWork
  dsimp only
  repeat' (first | (simp [*]; done) | split | (refine (erase_foldl _ _ ?_ _ _).trans ?_) | (intro _ _) | simp [*])

@[simp ↓] theorem erase_zeroTiles (κ : Mask) (s : State) (fs : List Nat)
    (h_fields : κ.fields = true) (h_guards : κ.guards = true) (h_tiles : κ.tiles = true) :
    erase κ (zeroTiles s fs) = erase κ s := by
  unfold zeroTiles
  simp [*]

@[simp ↓] theorem erase_consoleRefuse (κ : Mask) (s : State)
    (h_out : κ.out = true) :
    erase κ (consoleRefuse s) = erase κ s := by
  unfold consoleRefuse
  simp [*]

@[simp ↓] theorem erase_queueRecords (κ : Mask) (s : State) (n : Nat)
    (h_side : κ.side = true) :
    erase κ (queueRecords s n) = erase κ s := by
  unfold queueRecords
  simp [*]

@[simp ↓] theorem erase_baseline (κ : Mask) (s : State) (k : Context) (own : Report) (rs : List Report) (word : Nat → Dword)
    (h_nor : κ.nor = true) (h_side : κ.side = true) (h_arrivals : κ.arrivals = true) :
    erase κ (baseline s k own rs word) = erase κ s := by
  unfold baseline
  simp [*]

@[simp ↓] theorem erase_suspend (κ : Mask) (no : Nat) (s : State) (d : Context)
    (h_fe : κ.fe = true) (h_side : κ.side = true) (h_out : κ.out = true) :
    erase κ (suspend no s d) = erase κ s := by
  unfold suspend
  simp [*]

@[simp ↓] theorem erase_noMajority (κ : Mask) (s : State) (k : Context) (word : Nat → Dword)
    (h_fe : κ.fe = true) (h_side : κ.side = true) (h_out : κ.out = true) (h_arrivals : κ.arrivals = true) :
    erase κ (noMajority s k word) = erase κ s := by
  unfold noMajority
  simp [*]

@[simp ↓] theorem erase_dropOdd (κ : Mask) (s : State) (k : Context) (odd : List Report)
    (h_side : κ.side = true) :
    erase κ (dropOdd s k odd) = erase κ s := by
  unfold dropOdd
  simp [*]

@[simp ↓] theorem erase_adjudicate (κ : Mask) (s : State) (k : Context) (own : Report) (rs : List Report)
    (h_free : κ.free = true) (h_fe : κ.fe = true) (h_nor : κ.nor = true) (h_parts : κ.parts = true) (h_side : κ.side = true) (h_sig : κ.sig = true) (h_out : κ.out = true) (h_arrivals : κ.arrivals = true) :
    erase κ (adjudicate s k own rs) = erase κ s := by
  unfold adjudicate
  dsimp only
  repeat' (first | (simp [*]; done) | split | (refine (erase_foldl _ _ ?_ _ _).trans ?_) | (intro _ _) | simp [*])

end Sys2Proof.Machine
end

