-- ==== Sys2Proof/Laws/State.lean ====
section
/-! SUPPORT. What the updates of State do: one lemma per field per update, true by rfl; and the laws of tables (an entry reads
back what was stored, other entries stay, the keys stay in rising order). -/

namespace Sys2Proof.Machine

/-! ### Tables -/

theorem tfind_tset_same {α : Type} (t : Table α) (k : Nat) (v : α) : tfind (tset t k v) k = some v := by
  induction t with
  | nil => simp [tset, tfind]
  | cons e r ih =>
    obtain ⟨a, w⟩ := e
    simp only [tset]
    split
    · simp [tfind]
    · split
      · simp [tfind]
      · rename_i h _
        rw [tfind, if_neg (Ne.symm h)]
        exact ih

theorem tfind_tset_other {α : Type} (t : Table α) (k j : Nat) (v : α) (h : j ≠ k) : tfind (tset t k v) j = tfind t j := by
  induction t with
  | nil => simp [tset, tfind, Ne.symm h]
  | cons e r ih =>
    obtain ⟨a, w⟩ := e
    simp only [tset]
    split
    · rename_i hk
      subst hk
      simp [tfind, Ne.symm h]
    · split
      · simp [tfind, Ne.symm h]
      · simp only [tfind]
        split
        · rfl
        · exact ih

@[simp] theorem tget_tset_same {α : Type} (t : Table α) (d : α) (k : Nat) (v : α) : tget (tset t k v) d k = v := by
  simp [tget, tfind_tset_same]

theorem tget_tset_other {α : Type} (t : Table α) (d : α) (k j : Nat) (v : α) (h : j ≠ k) :
    tget (tset t k v) d j = tget t d j := by
  simp [tget, tfind_tset_other t k j v h]

theorem tget_tset {α : Type} (t : Table α) (d : α) (k j : Nat) (v : α) :
    tget (tset t k v) d j = if j = k then v else tget t d j := by
  split
  · rename_i h
    rw [h, tget_tset_same]
  · rename_i h
    exact tget_tset_other t d k j v h

@[simp] theorem tfind_nil {α : Type} (k : Nat) : tfind ([] : Table α) k = none := rfl
@[simp] theorem tget_nil {α : Type} (d : α) (k : Nat) : tget ([] : Table α) d k = d := rfl

theorem tsorted_tail {α : Type} (e : Nat × α) (r : Table α) (h : tsorted (e :: r) = true) : tsorted r = true := by
  cases r with
  | nil => rfl
  | cons b r => simp only [tsorted, Bool.and_eq_true] at h; exact h.2

/-- Storing an entry keeps the keys rising. -/
theorem tsorted_tset {α : Type} (t : Table α) (k : Nat) (v : α) (h : tsorted t = true) : tsorted (tset t k v) = true := by
  induction t with
  | nil => rfl
  | cons e r ih =>
    obtain ⟨a, w⟩ := e
    have ihr := ih (tsorted_tail _ _ h)
    simp only [tset]
    split
    · rename_i hk
      subst hk
      cases r with
      | nil => rfl
      | cons b r => simpa [tsorted] using h
    · split
      · rename_i hk
        simp only [tsorted, Bool.and_eq_true, decide_eq_true_eq]
        exact ⟨hk, h⟩
      · rename_i hk hl
        cases r with
        | nil =>
          simp only [tset, tsorted, Bool.and_true, decide_eq_true_eq]
          omega
        | cons b r =>
          obtain ⟨c, u⟩ := b
          simp only [tsorted, Bool.and_eq_true, decide_eq_true_eq] at h
          simp only [tset] at ihr ⊢
          split
          · rename_i hc
            subst hc
            simp only [tsorted, Bool.and_eq_true, decide_eq_true_eq]
            refine ⟨by omega, ?_⟩
            simpa [tset] using ihr
          · split
            · simp only [tsorted, Bool.and_eq_true, decide_eq_true_eq]
              exact ⟨by omega, by assumption, h.2⟩
            · rename_i h1 h2
              rw [if_neg h1, if_neg h2] at ihr
              simp only [tsorted, Bool.and_eq_true, decide_eq_true_eq]
              exact ⟨h.1, ihr⟩

/-! ### What an accessor reads after its own update -/

@[simp] theorem fieldOf_setField (s : State) (f : Nat) (x : Field) : fieldOf (setField s f x) f = x := by
  simp [fieldOf, setField]
theorem fieldOf_setField_other (s : State) (f g : Nat) (x : Field) (h : g ≠ f) :
    fieldOf (setField s f x) g = fieldOf s g := by
  simp [fieldOf, setField, tget_tset_other _ _ _ _ _ h]
@[simp] theorem fieldOf_modField (s : State) (f : Nat) (g : Field → Field) : fieldOf (modField s f g) f = g (fieldOf s f) := by
  simp [modField]
theorem fieldOf_modField_other (s : State) (f j : Nat) (g : Field → Field) (h : j ≠ f) :
    fieldOf (modField s f g) j = fieldOf s j := fieldOf_setField_other s f j _ h
@[simp] theorem partOf_setPart (s : State) (p : Nat) (x : Part) : partOf (setPart s p x) p = some x := by
  simp [partOf, setPart, tfind_tset_same]
theorem partOf_setPart_other (s : State) (p q : Nat) (x : Part) (h : q ≠ p) : partOf (setPart s p x) q = partOf s q := by
  simp [partOf, setPart, tfind_tset_other _ _ _ _ h]
@[simp] theorem guardOf_setGuard (s : State) (t : Nat) (x : Guard) : guardOf (setGuard s t x) t = x := by
  simp [guardOf, setGuard]
theorem guardOf_setGuard_other (s : State) (t u : Nat) (x : Guard) (h : u ≠ t) :
    guardOf (setGuard s t x) u = guardOf s u := by
  simp [guardOf, setGuard, tget_tset_other _ _ _ _ _ h]
@[simp] theorem slotOf_setSlot (s : State) (q : Nat) (x : QSlot) : slotOf (setSlot s q x) q = x := by
  simp [slotOf, setSlot]
theorem slotOf_setSlot_other (s : State) (q r : Nat) (x : QSlot) (h : r ≠ q) : slotOf (setSlot s q x) r = slotOf s r := by
  simp [slotOf, setSlot, tget_tset_other _ _ _ _ _ h]
@[simp] theorem laneOf_modLane (s : State) (l : Nat) (g : Lane → Lane) : laneOf (modLane s l g) l = g (laneOf s l) := by
  simp [laneOf, modLane]
@[simp] theorem cursorOf_modCursor (s : State) (t : Nat) (g : Cursor → Cursor) :
    cursorOf (modCursor s t g) t = g (cursorOf s t) := by
  simp [cursorOf, modCursor]
@[simp] theorem genOf_bumpGen (s : State) (d : Nat) : genOf (bumpGen s d) d = genOf s d + 1 := by
  simp [genOf, bumpGen]

/-! ### One lemma per field per update -/

@[simp] theorem setField_pending (s : State) (f : Nat) (x : Field) : (setField s f x).pending = s.pending := rfl
@[simp] theorem setField_free (s : State) (f : Nat) (x : Field) : (setField s f x).free = s.free := rfl
@[simp] theorem setField_feed (s : State) (f : Nat) (x : Field) : (setField s f x).feed = s.feed := rfl
@[simp] theorem setField_now (s : State) (f : Nat) (x : Field) : (setField s f x).now = s.now := rfl
@[simp] theorem setField_mfg (s : State) (f : Nat) (x : Field) : (setField s f x).mfg = s.mfg := rfl
@[simp] theorem setField_fe (s : State) (f : Nat) (x : Field) : (setField s f x).fe = s.fe := rfl
@[simp] theorem setField_regs (s : State) (f : Nat) (x : Field) : (setField s f x).regs = s.regs := rfl
@[simp] theorem setField_tray (s : State) (f : Nat) (x : Field) : (setField s f x).tray = s.tray := rfl
@[simp] theorem setField_panel (s : State) (f : Nat) (x : Field) : (setField s f x).panel = s.panel := rfl
@[simp] theorem setField_nor (s : State) (f : Nat) (x : Field) : (setField s f x).nor = s.nor := rfl
@[simp] theorem setField_cab (s : State) (f : Nat) (x : Field) : (setField s f x).cab = s.cab := rfl
@[simp] theorem setField_drawer (s : State) (f : Nat) (x : Field) : (setField s f x).drawer = s.drawer := rfl
@[simp] theorem setField_arm (s : State) (f : Nat) (x : Field) : (setField s f x).arm = s.arm := rfl
@[simp] theorem setField_svc (s : State) (f : Nat) (x : Field) : (setField s f x).svc = s.svc := rfl
@[simp] theorem setField_hutch (s : State) (f : Nat) (x : Field) : (setField s f x).hutch = s.hutch := rfl
@[simp] theorem setField_parts (s : State) (f : Nat) (x : Field) : (setField s f x).parts = s.parts := rfl
@[simp] theorem setField_fields (s : State) (f : Nat) (x : Field) : (setField s f x).fields = tset s.fields f x := rfl
@[simp] theorem setField_guards (s : State) (f : Nat) (x : Field) : (setField s f x).guards = s.guards := rfl
@[simp] theorem setField_tiles (s : State) (f : Nat) (x : Field) : (setField s f x).tiles = s.tiles := rfl
@[simp] theorem setField_groups (s : State) (f : Nat) (x : Field) : (setField s f x).groups = s.groups := rfl
@[simp] theorem setField_side (s : State) (f : Nat) (x : Field) : (setField s f x).side = s.side := rfl
@[simp] theorem setField_lanes (s : State) (f : Nat) (x : Field) : (setField s f x).lanes = s.lanes := rfl
@[simp] theorem setField_hang (s : State) (f : Nat) (x : Field) : (setField s f x).hang = s.hang := rfl
@[simp] theorem setField_arb (s : State) (f : Nat) (x : Field) : (setField s f x).arb = s.arb := rfl
@[simp] theorem setField_boot (s : State) (f : Nat) (x : Field) : (setField s f x).boot = s.boot := rfl
@[simp] theorem setField_sched (s : State) (f : Nat) (x : Field) : (setField s f x).sched = s.sched := rfl
@[simp] theorem setField_sig (s : State) (f : Nat) (x : Field) : (setField s f x).sig = s.sig := rfl
@[simp] theorem setField_storms (s : State) (f : Nat) (x : Field) : (setField s f x).storms = s.storms := rfl
@[simp] theorem setField_out (s : State) (f : Nat) (x : Field) : (setField s f x).out = s.out := rfl

@[simp] theorem modField_pending (s : State) (f : Nat) (g : Field → Field) : (modField s f g).pending = s.pending := rfl
@[simp] theorem modField_free (s : State) (f : Nat) (g : Field → Field) : (modField s f g).free = s.free := rfl
@[simp] theorem modField_feed (s : State) (f : Nat) (g : Field → Field) : (modField s f g).feed = s.feed := rfl
@[simp] theorem modField_now (s : State) (f : Nat) (g : Field → Field) : (modField s f g).now = s.now := rfl
@[simp] theorem modField_mfg (s : State) (f : Nat) (g : Field → Field) : (modField s f g).mfg = s.mfg := rfl
@[simp] theorem modField_fe (s : State) (f : Nat) (g : Field → Field) : (modField s f g).fe = s.fe := rfl
@[simp] theorem modField_regs (s : State) (f : Nat) (g : Field → Field) : (modField s f g).regs = s.regs := rfl
@[simp] theorem modField_tray (s : State) (f : Nat) (g : Field → Field) : (modField s f g).tray = s.tray := rfl
@[simp] theorem modField_panel (s : State) (f : Nat) (g : Field → Field) : (modField s f g).panel = s.panel := rfl
@[simp] theorem modField_nor (s : State) (f : Nat) (g : Field → Field) : (modField s f g).nor = s.nor := rfl
@[simp] theorem modField_cab (s : State) (f : Nat) (g : Field → Field) : (modField s f g).cab = s.cab := rfl
@[simp] theorem modField_drawer (s : State) (f : Nat) (g : Field → Field) : (modField s f g).drawer = s.drawer := rfl
@[simp] theorem modField_arm (s : State) (f : Nat) (g : Field → Field) : (modField s f g).arm = s.arm := rfl
@[simp] theorem modField_svc (s : State) (f : Nat) (g : Field → Field) : (modField s f g).svc = s.svc := rfl
@[simp] theorem modField_hutch (s : State) (f : Nat) (g : Field → Field) : (modField s f g).hutch = s.hutch := rfl
@[simp] theorem modField_parts (s : State) (f : Nat) (g : Field → Field) : (modField s f g).parts = s.parts := rfl
@[simp] theorem modField_fields (s : State) (f : Nat) (g : Field → Field) : (modField s f g).fields = tset s.fields f (g (fieldOf s f)) := rfl
@[simp] theorem modField_guards (s : State) (f : Nat) (g : Field → Field) : (modField s f g).guards = s.guards := rfl
@[simp] theorem modField_tiles (s : State) (f : Nat) (g : Field → Field) : (modField s f g).tiles = s.tiles := rfl
@[simp] theorem modField_groups (s : State) (f : Nat) (g : Field → Field) : (modField s f g).groups = s.groups := rfl
@[simp] theorem modField_side (s : State) (f : Nat) (g : Field → Field) : (modField s f g).side = s.side := rfl
@[simp] theorem modField_lanes (s : State) (f : Nat) (g : Field → Field) : (modField s f g).lanes = s.lanes := rfl
@[simp] theorem modField_hang (s : State) (f : Nat) (g : Field → Field) : (modField s f g).hang = s.hang := rfl
@[simp] theorem modField_arb (s : State) (f : Nat) (g : Field → Field) : (modField s f g).arb = s.arb := rfl
@[simp] theorem modField_boot (s : State) (f : Nat) (g : Field → Field) : (modField s f g).boot = s.boot := rfl
@[simp] theorem modField_sched (s : State) (f : Nat) (g : Field → Field) : (modField s f g).sched = s.sched := rfl
@[simp] theorem modField_sig (s : State) (f : Nat) (g : Field → Field) : (modField s f g).sig = s.sig := rfl
@[simp] theorem modField_storms (s : State) (f : Nat) (g : Field → Field) : (modField s f g).storms = s.storms := rfl
@[simp] theorem modField_out (s : State) (f : Nat) (g : Field → Field) : (modField s f g).out = s.out := rfl

@[simp] theorem setPart_pending (s : State) (p : Nat) (x : Part) : (setPart s p x).pending = s.pending := rfl
@[simp] theorem setPart_free (s : State) (p : Nat) (x : Part) : (setPart s p x).free = s.free := rfl
@[simp] theorem setPart_feed (s : State) (p : Nat) (x : Part) : (setPart s p x).feed = s.feed := rfl
@[simp] theorem setPart_now (s : State) (p : Nat) (x : Part) : (setPart s p x).now = s.now := rfl
@[simp] theorem setPart_mfg (s : State) (p : Nat) (x : Part) : (setPart s p x).mfg = s.mfg := rfl
@[simp] theorem setPart_fe (s : State) (p : Nat) (x : Part) : (setPart s p x).fe = s.fe := rfl
@[simp] theorem setPart_regs (s : State) (p : Nat) (x : Part) : (setPart s p x).regs = s.regs := rfl
@[simp] theorem setPart_tray (s : State) (p : Nat) (x : Part) : (setPart s p x).tray = s.tray := rfl
@[simp] theorem setPart_panel (s : State) (p : Nat) (x : Part) : (setPart s p x).panel = s.panel := rfl
@[simp] theorem setPart_nor (s : State) (p : Nat) (x : Part) : (setPart s p x).nor = s.nor := rfl
@[simp] theorem setPart_cab (s : State) (p : Nat) (x : Part) : (setPart s p x).cab = s.cab := rfl
@[simp] theorem setPart_drawer (s : State) (p : Nat) (x : Part) : (setPart s p x).drawer = s.drawer := rfl
@[simp] theorem setPart_arm (s : State) (p : Nat) (x : Part) : (setPart s p x).arm = s.arm := rfl
@[simp] theorem setPart_svc (s : State) (p : Nat) (x : Part) : (setPart s p x).svc = s.svc := rfl
@[simp] theorem setPart_hutch (s : State) (p : Nat) (x : Part) : (setPart s p x).hutch = s.hutch := rfl
@[simp] theorem setPart_parts (s : State) (p : Nat) (x : Part) : (setPart s p x).parts = tset s.parts p x := rfl
@[simp] theorem setPart_fields (s : State) (p : Nat) (x : Part) : (setPart s p x).fields = s.fields := rfl
@[simp] theorem setPart_guards (s : State) (p : Nat) (x : Part) : (setPart s p x).guards = s.guards := rfl
@[simp] theorem setPart_tiles (s : State) (p : Nat) (x : Part) : (setPart s p x).tiles = s.tiles := rfl
@[simp] theorem setPart_groups (s : State) (p : Nat) (x : Part) : (setPart s p x).groups = s.groups := rfl
@[simp] theorem setPart_side (s : State) (p : Nat) (x : Part) : (setPart s p x).side = s.side := rfl
@[simp] theorem setPart_lanes (s : State) (p : Nat) (x : Part) : (setPart s p x).lanes = s.lanes := rfl
@[simp] theorem setPart_hang (s : State) (p : Nat) (x : Part) : (setPart s p x).hang = s.hang := rfl
@[simp] theorem setPart_arb (s : State) (p : Nat) (x : Part) : (setPart s p x).arb = s.arb := rfl
@[simp] theorem setPart_boot (s : State) (p : Nat) (x : Part) : (setPart s p x).boot = s.boot := rfl
@[simp] theorem setPart_sched (s : State) (p : Nat) (x : Part) : (setPart s p x).sched = s.sched := rfl
@[simp] theorem setPart_sig (s : State) (p : Nat) (x : Part) : (setPart s p x).sig = s.sig := rfl
@[simp] theorem setPart_storms (s : State) (p : Nat) (x : Part) : (setPart s p x).storms = s.storms := rfl
@[simp] theorem setPart_out (s : State) (p : Nat) (x : Part) : (setPart s p x).out = s.out := rfl

@[simp] theorem setGuard_pending (s : State) (t : Nat) (x : Guard) : (setGuard s t x).pending = s.pending := rfl
@[simp] theorem setGuard_free (s : State) (t : Nat) (x : Guard) : (setGuard s t x).free = s.free := rfl
@[simp] theorem setGuard_feed (s : State) (t : Nat) (x : Guard) : (setGuard s t x).feed = s.feed := rfl
@[simp] theorem setGuard_now (s : State) (t : Nat) (x : Guard) : (setGuard s t x).now = s.now := rfl
@[simp] theorem setGuard_mfg (s : State) (t : Nat) (x : Guard) : (setGuard s t x).mfg = s.mfg := rfl
@[simp] theorem setGuard_fe (s : State) (t : Nat) (x : Guard) : (setGuard s t x).fe = s.fe := rfl
@[simp] theorem setGuard_regs (s : State) (t : Nat) (x : Guard) : (setGuard s t x).regs = s.regs := rfl
@[simp] theorem setGuard_tray (s : State) (t : Nat) (x : Guard) : (setGuard s t x).tray = s.tray := rfl
@[simp] theorem setGuard_panel (s : State) (t : Nat) (x : Guard) : (setGuard s t x).panel = s.panel := rfl
@[simp] theorem setGuard_nor (s : State) (t : Nat) (x : Guard) : (setGuard s t x).nor = s.nor := rfl
@[simp] theorem setGuard_cab (s : State) (t : Nat) (x : Guard) : (setGuard s t x).cab = s.cab := rfl
@[simp] theorem setGuard_drawer (s : State) (t : Nat) (x : Guard) : (setGuard s t x).drawer = s.drawer := rfl
@[simp] theorem setGuard_arm (s : State) (t : Nat) (x : Guard) : (setGuard s t x).arm = s.arm := rfl
@[simp] theorem setGuard_svc (s : State) (t : Nat) (x : Guard) : (setGuard s t x).svc = s.svc := rfl
@[simp] theorem setGuard_hutch (s : State) (t : Nat) (x : Guard) : (setGuard s t x).hutch = s.hutch := rfl
@[simp] theorem setGuard_parts (s : State) (t : Nat) (x : Guard) : (setGuard s t x).parts = s.parts := rfl
@[simp] theorem setGuard_fields (s : State) (t : Nat) (x : Guard) : (setGuard s t x).fields = s.fields := rfl
@[simp] theorem setGuard_guards (s : State) (t : Nat) (x : Guard) : (setGuard s t x).guards = tset s.guards t x := rfl
@[simp] theorem setGuard_tiles (s : State) (t : Nat) (x : Guard) : (setGuard s t x).tiles = s.tiles := rfl
@[simp] theorem setGuard_groups (s : State) (t : Nat) (x : Guard) : (setGuard s t x).groups = s.groups := rfl
@[simp] theorem setGuard_side (s : State) (t : Nat) (x : Guard) : (setGuard s t x).side = s.side := rfl
@[simp] theorem setGuard_lanes (s : State) (t : Nat) (x : Guard) : (setGuard s t x).lanes = s.lanes := rfl
@[simp] theorem setGuard_hang (s : State) (t : Nat) (x : Guard) : (setGuard s t x).hang = s.hang := rfl
@[simp] theorem setGuard_arb (s : State) (t : Nat) (x : Guard) : (setGuard s t x).arb = s.arb := rfl
@[simp] theorem setGuard_boot (s : State) (t : Nat) (x : Guard) : (setGuard s t x).boot = s.boot := rfl
@[simp] theorem setGuard_sched (s : State) (t : Nat) (x : Guard) : (setGuard s t x).sched = s.sched := rfl
@[simp] theorem setGuard_sig (s : State) (t : Nat) (x : Guard) : (setGuard s t x).sig = s.sig := rfl
@[simp] theorem setGuard_storms (s : State) (t : Nat) (x : Guard) : (setGuard s t x).storms = s.storms := rfl
@[simp] theorem setGuard_out (s : State) (t : Nat) (x : Guard) : (setGuard s t x).out = s.out := rfl

@[simp] theorem modGuard_pending (s : State) (t : Nat) (g : Guard → Guard) : (modGuard s t g).pending = s.pending := rfl
@[simp] theorem modGuard_free (s : State) (t : Nat) (g : Guard → Guard) : (modGuard s t g).free = s.free := rfl
@[simp] theorem modGuard_feed (s : State) (t : Nat) (g : Guard → Guard) : (modGuard s t g).feed = s.feed := rfl
@[simp] theorem modGuard_now (s : State) (t : Nat) (g : Guard → Guard) : (modGuard s t g).now = s.now := rfl
@[simp] theorem modGuard_mfg (s : State) (t : Nat) (g : Guard → Guard) : (modGuard s t g).mfg = s.mfg := rfl
@[simp] theorem modGuard_fe (s : State) (t : Nat) (g : Guard → Guard) : (modGuard s t g).fe = s.fe := rfl
@[simp] theorem modGuard_regs (s : State) (t : Nat) (g : Guard → Guard) : (modGuard s t g).regs = s.regs := rfl
@[simp] theorem modGuard_tray (s : State) (t : Nat) (g : Guard → Guard) : (modGuard s t g).tray = s.tray := rfl
@[simp] theorem modGuard_panel (s : State) (t : Nat) (g : Guard → Guard) : (modGuard s t g).panel = s.panel := rfl
@[simp] theorem modGuard_nor (s : State) (t : Nat) (g : Guard → Guard) : (modGuard s t g).nor = s.nor := rfl
@[simp] theorem modGuard_cab (s : State) (t : Nat) (g : Guard → Guard) : (modGuard s t g).cab = s.cab := rfl
@[simp] theorem modGuard_drawer (s : State) (t : Nat) (g : Guard → Guard) : (modGuard s t g).drawer = s.drawer := rfl
@[simp] theorem modGuard_arm (s : State) (t : Nat) (g : Guard → Guard) : (modGuard s t g).arm = s.arm := rfl
@[simp] theorem modGuard_svc (s : State) (t : Nat) (g : Guard → Guard) : (modGuard s t g).svc = s.svc := rfl
@[simp] theorem modGuard_hutch (s : State) (t : Nat) (g : Guard → Guard) : (modGuard s t g).hutch = s.hutch := rfl
@[simp] theorem modGuard_parts (s : State) (t : Nat) (g : Guard → Guard) : (modGuard s t g).parts = s.parts := rfl
@[simp] theorem modGuard_fields (s : State) (t : Nat) (g : Guard → Guard) : (modGuard s t g).fields = s.fields := rfl
@[simp] theorem modGuard_guards (s : State) (t : Nat) (g : Guard → Guard) : (modGuard s t g).guards = tset s.guards t (g (guardOf s t)) := rfl
@[simp] theorem modGuard_tiles (s : State) (t : Nat) (g : Guard → Guard) : (modGuard s t g).tiles = s.tiles := rfl
@[simp] theorem modGuard_groups (s : State) (t : Nat) (g : Guard → Guard) : (modGuard s t g).groups = s.groups := rfl
@[simp] theorem modGuard_side (s : State) (t : Nat) (g : Guard → Guard) : (modGuard s t g).side = s.side := rfl
@[simp] theorem modGuard_lanes (s : State) (t : Nat) (g : Guard → Guard) : (modGuard s t g).lanes = s.lanes := rfl
@[simp] theorem modGuard_hang (s : State) (t : Nat) (g : Guard → Guard) : (modGuard s t g).hang = s.hang := rfl
@[simp] theorem modGuard_arb (s : State) (t : Nat) (g : Guard → Guard) : (modGuard s t g).arb = s.arb := rfl
@[simp] theorem modGuard_boot (s : State) (t : Nat) (g : Guard → Guard) : (modGuard s t g).boot = s.boot := rfl
@[simp] theorem modGuard_sched (s : State) (t : Nat) (g : Guard → Guard) : (modGuard s t g).sched = s.sched := rfl
@[simp] theorem modGuard_sig (s : State) (t : Nat) (g : Guard → Guard) : (modGuard s t g).sig = s.sig := rfl
@[simp] theorem modGuard_storms (s : State) (t : Nat) (g : Guard → Guard) : (modGuard s t g).storms = s.storms := rfl
@[simp] theorem modGuard_out (s : State) (t : Nat) (g : Guard → Guard) : (modGuard s t g).out = s.out := rfl

@[simp] theorem modLive_pending (s : State) (t : Nat) (g : TileCount → TileCount) : (modLive s t g).pending = s.pending := rfl
@[simp] theorem modLive_free (s : State) (t : Nat) (g : TileCount → TileCount) : (modLive s t g).free = s.free := rfl
@[simp] theorem modLive_feed (s : State) (t : Nat) (g : TileCount → TileCount) : (modLive s t g).feed = s.feed := rfl
@[simp] theorem modLive_now (s : State) (t : Nat) (g : TileCount → TileCount) : (modLive s t g).now = s.now := rfl
@[simp] theorem modLive_mfg (s : State) (t : Nat) (g : TileCount → TileCount) : (modLive s t g).mfg = s.mfg := rfl
@[simp] theorem modLive_fe (s : State) (t : Nat) (g : TileCount → TileCount) : (modLive s t g).fe = s.fe := rfl
@[simp] theorem modLive_regs (s : State) (t : Nat) (g : TileCount → TileCount) : (modLive s t g).regs = s.regs := rfl
@[simp] theorem modLive_tray (s : State) (t : Nat) (g : TileCount → TileCount) : (modLive s t g).tray = s.tray := rfl
@[simp] theorem modLive_panel (s : State) (t : Nat) (g : TileCount → TileCount) : (modLive s t g).panel = s.panel := rfl
@[simp] theorem modLive_nor (s : State) (t : Nat) (g : TileCount → TileCount) : (modLive s t g).nor = s.nor := rfl
@[simp] theorem modLive_cab (s : State) (t : Nat) (g : TileCount → TileCount) : (modLive s t g).cab = s.cab := rfl
@[simp] theorem modLive_drawer (s : State) (t : Nat) (g : TileCount → TileCount) : (modLive s t g).drawer = s.drawer := rfl
@[simp] theorem modLive_arm (s : State) (t : Nat) (g : TileCount → TileCount) : (modLive s t g).arm = s.arm := rfl
@[simp] theorem modLive_svc (s : State) (t : Nat) (g : TileCount → TileCount) : (modLive s t g).svc = s.svc := rfl
@[simp] theorem modLive_hutch (s : State) (t : Nat) (g : TileCount → TileCount) : (modLive s t g).hutch = s.hutch := rfl
@[simp] theorem modLive_parts (s : State) (t : Nat) (g : TileCount → TileCount) : (modLive s t g).parts = s.parts := rfl
@[simp] theorem modLive_fields (s : State) (t : Nat) (g : TileCount → TileCount) : (modLive s t g).fields = s.fields := rfl
@[simp] theorem modLive_guards (s : State) (t : Nat) (g : TileCount → TileCount) : (modLive s t g).guards = s.guards := rfl
@[simp] theorem modLive_groups (s : State) (t : Nat) (g : TileCount → TileCount) : (modLive s t g).groups = s.groups := rfl
@[simp] theorem modLive_side (s : State) (t : Nat) (g : TileCount → TileCount) : (modLive s t g).side = s.side := rfl
@[simp] theorem modLive_lanes (s : State) (t : Nat) (g : TileCount → TileCount) : (modLive s t g).lanes = s.lanes := rfl
@[simp] theorem modLive_hang (s : State) (t : Nat) (g : TileCount → TileCount) : (modLive s t g).hang = s.hang := rfl
@[simp] theorem modLive_arb (s : State) (t : Nat) (g : TileCount → TileCount) : (modLive s t g).arb = s.arb := rfl
@[simp] theorem modLive_boot (s : State) (t : Nat) (g : TileCount → TileCount) : (modLive s t g).boot = s.boot := rfl
@[simp] theorem modLive_sched (s : State) (t : Nat) (g : TileCount → TileCount) : (modLive s t g).sched = s.sched := rfl
@[simp] theorem modLive_sig (s : State) (t : Nat) (g : TileCount → TileCount) : (modLive s t g).sig = s.sig := rfl
@[simp] theorem modLive_storms (s : State) (t : Nat) (g : TileCount → TileCount) : (modLive s t g).storms = s.storms := rfl
@[simp] theorem modLive_out (s : State) (t : Nat) (g : TileCount → TileCount) : (modLive s t g).out = s.out := rfl

@[simp] theorem setSlot_pending (s : State) (q : Nat) (x : QSlot) : (setSlot s q x).pending = s.pending := rfl
@[simp] theorem setSlot_free (s : State) (q : Nat) (x : QSlot) : (setSlot s q x).free = s.free := rfl
@[simp] theorem setSlot_feed (s : State) (q : Nat) (x : QSlot) : (setSlot s q x).feed = s.feed := rfl
@[simp] theorem setSlot_now (s : State) (q : Nat) (x : QSlot) : (setSlot s q x).now = s.now := rfl
@[simp] theorem setSlot_mfg (s : State) (q : Nat) (x : QSlot) : (setSlot s q x).mfg = s.mfg := rfl
@[simp] theorem setSlot_regs (s : State) (q : Nat) (x : QSlot) : (setSlot s q x).regs = s.regs := rfl
@[simp] theorem setSlot_tray (s : State) (q : Nat) (x : QSlot) : (setSlot s q x).tray = s.tray := rfl
@[simp] theorem setSlot_panel (s : State) (q : Nat) (x : QSlot) : (setSlot s q x).panel = s.panel := rfl
@[simp] theorem setSlot_nor (s : State) (q : Nat) (x : QSlot) : (setSlot s q x).nor = s.nor := rfl
@[simp] theorem setSlot_cab (s : State) (q : Nat) (x : QSlot) : (setSlot s q x).cab = s.cab := rfl
@[simp] theorem setSlot_drawer (s : State) (q : Nat) (x : QSlot) : (setSlot s q x).drawer = s.drawer := rfl
@[simp] theorem setSlot_arm (s : State) (q : Nat) (x : QSlot) : (setSlot s q x).arm = s.arm := rfl
@[simp] theorem setSlot_svc (s : State) (q : Nat) (x : QSlot) : (setSlot s q x).svc = s.svc := rfl
@[simp] theorem setSlot_hutch (s : State) (q : Nat) (x : QSlot) : (setSlot s q x).hutch = s.hutch := rfl
@[simp] theorem setSlot_parts (s : State) (q : Nat) (x : QSlot) : (setSlot s q x).parts = s.parts := rfl
@[simp] theorem setSlot_fields (s : State) (q : Nat) (x : QSlot) : (setSlot s q x).fields = s.fields := rfl
@[simp] theorem setSlot_guards (s : State) (q : Nat) (x : QSlot) : (setSlot s q x).guards = s.guards := rfl
@[simp] theorem setSlot_tiles (s : State) (q : Nat) (x : QSlot) : (setSlot s q x).tiles = s.tiles := rfl
@[simp] theorem setSlot_groups (s : State) (q : Nat) (x : QSlot) : (setSlot s q x).groups = s.groups := rfl
@[simp] theorem setSlot_side (s : State) (q : Nat) (x : QSlot) : (setSlot s q x).side = s.side := rfl
@[simp] theorem setSlot_lanes (s : State) (q : Nat) (x : QSlot) : (setSlot s q x).lanes = s.lanes := rfl
@[simp] theorem setSlot_hang (s : State) (q : Nat) (x : QSlot) : (setSlot s q x).hang = s.hang := rfl
@[simp] theorem setSlot_arb (s : State) (q : Nat) (x : QSlot) : (setSlot s q x).arb = s.arb := rfl
@[simp] theorem setSlot_boot (s : State) (q : Nat) (x : QSlot) : (setSlot s q x).boot = s.boot := rfl
@[simp] theorem setSlot_sched (s : State) (q : Nat) (x : QSlot) : (setSlot s q x).sched = s.sched := rfl
@[simp] theorem setSlot_sig (s : State) (q : Nat) (x : QSlot) : (setSlot s q x).sig = s.sig := rfl
@[simp] theorem setSlot_storms (s : State) (q : Nat) (x : QSlot) : (setSlot s q x).storms = s.storms := rfl
@[simp] theorem setSlot_out (s : State) (q : Nat) (x : QSlot) : (setSlot s q x).out = s.out := rfl

@[simp] theorem modSlot_pending (s : State) (q : Nat) (g : QSlot → QSlot) : (modSlot s q g).pending = s.pending := rfl
@[simp] theorem modSlot_free (s : State) (q : Nat) (g : QSlot → QSlot) : (modSlot s q g).free = s.free := rfl
@[simp] theorem modSlot_feed (s : State) (q : Nat) (g : QSlot → QSlot) : (modSlot s q g).feed = s.feed := rfl
@[simp] theorem modSlot_now (s : State) (q : Nat) (g : QSlot → QSlot) : (modSlot s q g).now = s.now := rfl
@[simp] theorem modSlot_mfg (s : State) (q : Nat) (g : QSlot → QSlot) : (modSlot s q g).mfg = s.mfg := rfl
@[simp] theorem modSlot_regs (s : State) (q : Nat) (g : QSlot → QSlot) : (modSlot s q g).regs = s.regs := rfl
@[simp] theorem modSlot_tray (s : State) (q : Nat) (g : QSlot → QSlot) : (modSlot s q g).tray = s.tray := rfl
@[simp] theorem modSlot_panel (s : State) (q : Nat) (g : QSlot → QSlot) : (modSlot s q g).panel = s.panel := rfl
@[simp] theorem modSlot_nor (s : State) (q : Nat) (g : QSlot → QSlot) : (modSlot s q g).nor = s.nor := rfl
@[simp] theorem modSlot_cab (s : State) (q : Nat) (g : QSlot → QSlot) : (modSlot s q g).cab = s.cab := rfl
@[simp] theorem modSlot_drawer (s : State) (q : Nat) (g : QSlot → QSlot) : (modSlot s q g).drawer = s.drawer := rfl
@[simp] theorem modSlot_arm (s : State) (q : Nat) (g : QSlot → QSlot) : (modSlot s q g).arm = s.arm := rfl
@[simp] theorem modSlot_svc (s : State) (q : Nat) (g : QSlot → QSlot) : (modSlot s q g).svc = s.svc := rfl
@[simp] theorem modSlot_hutch (s : State) (q : Nat) (g : QSlot → QSlot) : (modSlot s q g).hutch = s.hutch := rfl
@[simp] theorem modSlot_parts (s : State) (q : Nat) (g : QSlot → QSlot) : (modSlot s q g).parts = s.parts := rfl
@[simp] theorem modSlot_fields (s : State) (q : Nat) (g : QSlot → QSlot) : (modSlot s q g).fields = s.fields := rfl
@[simp] theorem modSlot_guards (s : State) (q : Nat) (g : QSlot → QSlot) : (modSlot s q g).guards = s.guards := rfl
@[simp] theorem modSlot_tiles (s : State) (q : Nat) (g : QSlot → QSlot) : (modSlot s q g).tiles = s.tiles := rfl
@[simp] theorem modSlot_groups (s : State) (q : Nat) (g : QSlot → QSlot) : (modSlot s q g).groups = s.groups := rfl
@[simp] theorem modSlot_side (s : State) (q : Nat) (g : QSlot → QSlot) : (modSlot s q g).side = s.side := rfl
@[simp] theorem modSlot_lanes (s : State) (q : Nat) (g : QSlot → QSlot) : (modSlot s q g).lanes = s.lanes := rfl
@[simp] theorem modSlot_hang (s : State) (q : Nat) (g : QSlot → QSlot) : (modSlot s q g).hang = s.hang := rfl
@[simp] theorem modSlot_arb (s : State) (q : Nat) (g : QSlot → QSlot) : (modSlot s q g).arb = s.arb := rfl
@[simp] theorem modSlot_boot (s : State) (q : Nat) (g : QSlot → QSlot) : (modSlot s q g).boot = s.boot := rfl
@[simp] theorem modSlot_sched (s : State) (q : Nat) (g : QSlot → QSlot) : (modSlot s q g).sched = s.sched := rfl
@[simp] theorem modSlot_sig (s : State) (q : Nat) (g : QSlot → QSlot) : (modSlot s q g).sig = s.sig := rfl
@[simp] theorem modSlot_storms (s : State) (q : Nat) (g : QSlot → QSlot) : (modSlot s q g).storms = s.storms := rfl
@[simp] theorem modSlot_out (s : State) (q : Nat) (g : QSlot → QSlot) : (modSlot s q g).out = s.out := rfl

@[simp] theorem modLane_pending (s : State) (l : Nat) (g : Lane → Lane) : (modLane s l g).pending = s.pending := rfl
@[simp] theorem modLane_free (s : State) (l : Nat) (g : Lane → Lane) : (modLane s l g).free = s.free := rfl
@[simp] theorem modLane_feed (s : State) (l : Nat) (g : Lane → Lane) : (modLane s l g).feed = s.feed := rfl
@[simp] theorem modLane_now (s : State) (l : Nat) (g : Lane → Lane) : (modLane s l g).now = s.now := rfl
@[simp] theorem modLane_mfg (s : State) (l : Nat) (g : Lane → Lane) : (modLane s l g).mfg = s.mfg := rfl
@[simp] theorem modLane_fe (s : State) (l : Nat) (g : Lane → Lane) : (modLane s l g).fe = s.fe := rfl
@[simp] theorem modLane_regs (s : State) (l : Nat) (g : Lane → Lane) : (modLane s l g).regs = s.regs := rfl
@[simp] theorem modLane_tray (s : State) (l : Nat) (g : Lane → Lane) : (modLane s l g).tray = s.tray := rfl
@[simp] theorem modLane_panel (s : State) (l : Nat) (g : Lane → Lane) : (modLane s l g).panel = s.panel := rfl
@[simp] theorem modLane_nor (s : State) (l : Nat) (g : Lane → Lane) : (modLane s l g).nor = s.nor := rfl
@[simp] theorem modLane_cab (s : State) (l : Nat) (g : Lane → Lane) : (modLane s l g).cab = s.cab := rfl
@[simp] theorem modLane_drawer (s : State) (l : Nat) (g : Lane → Lane) : (modLane s l g).drawer = s.drawer := rfl
@[simp] theorem modLane_arm (s : State) (l : Nat) (g : Lane → Lane) : (modLane s l g).arm = s.arm := rfl
@[simp] theorem modLane_svc (s : State) (l : Nat) (g : Lane → Lane) : (modLane s l g).svc = s.svc := rfl
@[simp] theorem modLane_hutch (s : State) (l : Nat) (g : Lane → Lane) : (modLane s l g).hutch = s.hutch := rfl
@[simp] theorem modLane_parts (s : State) (l : Nat) (g : Lane → Lane) : (modLane s l g).parts = s.parts := rfl
@[simp] theorem modLane_fields (s : State) (l : Nat) (g : Lane → Lane) : (modLane s l g).fields = s.fields := rfl
@[simp] theorem modLane_guards (s : State) (l : Nat) (g : Lane → Lane) : (modLane s l g).guards = s.guards := rfl
@[simp] theorem modLane_tiles (s : State) (l : Nat) (g : Lane → Lane) : (modLane s l g).tiles = s.tiles := rfl
@[simp] theorem modLane_groups (s : State) (l : Nat) (g : Lane → Lane) : (modLane s l g).groups = s.groups := rfl
@[simp] theorem modLane_side (s : State) (l : Nat) (g : Lane → Lane) : (modLane s l g).side = s.side := rfl
@[simp] theorem modLane_lanes (s : State) (l : Nat) (g : Lane → Lane) : (modLane s l g).lanes = tset s.lanes l (g (laneOf s l)) := rfl
@[simp] theorem modLane_hang (s : State) (l : Nat) (g : Lane → Lane) : (modLane s l g).hang = s.hang := rfl
@[simp] theorem modLane_arb (s : State) (l : Nat) (g : Lane → Lane) : (modLane s l g).arb = s.arb := rfl
@[simp] theorem modLane_boot (s : State) (l : Nat) (g : Lane → Lane) : (modLane s l g).boot = s.boot := rfl
@[simp] theorem modLane_sched (s : State) (l : Nat) (g : Lane → Lane) : (modLane s l g).sched = s.sched := rfl
@[simp] theorem modLane_sig (s : State) (l : Nat) (g : Lane → Lane) : (modLane s l g).sig = s.sig := rfl
@[simp] theorem modLane_storms (s : State) (l : Nat) (g : Lane → Lane) : (modLane s l g).storms = s.storms := rfl
@[simp] theorem modLane_out (s : State) (l : Nat) (g : Lane → Lane) : (modLane s l g).out = s.out := rfl

@[simp] theorem modCursor_pending (s : State) (t : Nat) (g : Cursor → Cursor) : (modCursor s t g).pending = s.pending := rfl
@[simp] theorem modCursor_free (s : State) (t : Nat) (g : Cursor → Cursor) : (modCursor s t g).free = s.free := rfl
@[simp] theorem modCursor_feed (s : State) (t : Nat) (g : Cursor → Cursor) : (modCursor s t g).feed = s.feed := rfl
@[simp] theorem modCursor_now (s : State) (t : Nat) (g : Cursor → Cursor) : (modCursor s t g).now = s.now := rfl
@[simp] theorem modCursor_mfg (s : State) (t : Nat) (g : Cursor → Cursor) : (modCursor s t g).mfg = s.mfg := rfl
@[simp] theorem modCursor_fe (s : State) (t : Nat) (g : Cursor → Cursor) : (modCursor s t g).fe = s.fe := rfl
@[simp] theorem modCursor_regs (s : State) (t : Nat) (g : Cursor → Cursor) : (modCursor s t g).regs = s.regs := rfl
@[simp] theorem modCursor_tray (s : State) (t : Nat) (g : Cursor → Cursor) : (modCursor s t g).tray = s.tray := rfl
@[simp] theorem modCursor_panel (s : State) (t : Nat) (g : Cursor → Cursor) : (modCursor s t g).panel = s.panel := rfl
@[simp] theorem modCursor_nor (s : State) (t : Nat) (g : Cursor → Cursor) : (modCursor s t g).nor = s.nor := rfl
@[simp] theorem modCursor_drawer (s : State) (t : Nat) (g : Cursor → Cursor) : (modCursor s t g).drawer = s.drawer := rfl
@[simp] theorem modCursor_arm (s : State) (t : Nat) (g : Cursor → Cursor) : (modCursor s t g).arm = s.arm := rfl
@[simp] theorem modCursor_svc (s : State) (t : Nat) (g : Cursor → Cursor) : (modCursor s t g).svc = s.svc := rfl
@[simp] theorem modCursor_hutch (s : State) (t : Nat) (g : Cursor → Cursor) : (modCursor s t g).hutch = s.hutch := rfl
@[simp] theorem modCursor_parts (s : State) (t : Nat) (g : Cursor → Cursor) : (modCursor s t g).parts = s.parts := rfl
@[simp] theorem modCursor_fields (s : State) (t : Nat) (g : Cursor → Cursor) : (modCursor s t g).fields = s.fields := rfl
@[simp] theorem modCursor_guards (s : State) (t : Nat) (g : Cursor → Cursor) : (modCursor s t g).guards = s.guards := rfl
@[simp] theorem modCursor_tiles (s : State) (t : Nat) (g : Cursor → Cursor) : (modCursor s t g).tiles = s.tiles := rfl
@[simp] theorem modCursor_groups (s : State) (t : Nat) (g : Cursor → Cursor) : (modCursor s t g).groups = s.groups := rfl
@[simp] theorem modCursor_side (s : State) (t : Nat) (g : Cursor → Cursor) : (modCursor s t g).side = s.side := rfl
@[simp] theorem modCursor_lanes (s : State) (t : Nat) (g : Cursor → Cursor) : (modCursor s t g).lanes = s.lanes := rfl
@[simp] theorem modCursor_hang (s : State) (t : Nat) (g : Cursor → Cursor) : (modCursor s t g).hang = s.hang := rfl
@[simp] theorem modCursor_arb (s : State) (t : Nat) (g : Cursor → Cursor) : (modCursor s t g).arb = s.arb := rfl
@[simp] theorem modCursor_boot (s : State) (t : Nat) (g : Cursor → Cursor) : (modCursor s t g).boot = s.boot := rfl
@[simp] theorem modCursor_sched (s : State) (t : Nat) (g : Cursor → Cursor) : (modCursor s t g).sched = s.sched := rfl
@[simp] theorem modCursor_sig (s : State) (t : Nat) (g : Cursor → Cursor) : (modCursor s t g).sig = s.sig := rfl
@[simp] theorem modCursor_storms (s : State) (t : Nat) (g : Cursor → Cursor) : (modCursor s t g).storms = s.storms := rfl
@[simp] theorem modCursor_out (s : State) (t : Nat) (g : Cursor → Cursor) : (modCursor s t g).out = s.out := rfl

@[simp] theorem setPin_pending (s : State) (p : PinId) (x : Pin) : (setPin s p x).pending = s.pending := rfl
@[simp] theorem setPin_free (s : State) (p : PinId) (x : Pin) : (setPin s p x).free = s.free := rfl
@[simp] theorem setPin_feed (s : State) (p : PinId) (x : Pin) : (setPin s p x).feed = s.feed := rfl
@[simp] theorem setPin_now (s : State) (p : PinId) (x : Pin) : (setPin s p x).now = s.now := rfl
@[simp] theorem setPin_mfg (s : State) (p : PinId) (x : Pin) : (setPin s p x).mfg = s.mfg := rfl
@[simp] theorem setPin_fe (s : State) (p : PinId) (x : Pin) : (setPin s p x).fe = s.fe := rfl
@[simp] theorem setPin_regs (s : State) (p : PinId) (x : Pin) : (setPin s p x).regs = s.regs := rfl
@[simp] theorem setPin_panel (s : State) (p : PinId) (x : Pin) : (setPin s p x).panel = s.panel := rfl
@[simp] theorem setPin_nor (s : State) (p : PinId) (x : Pin) : (setPin s p x).nor = s.nor := rfl
@[simp] theorem setPin_cab (s : State) (p : PinId) (x : Pin) : (setPin s p x).cab = s.cab := rfl
@[simp] theorem setPin_drawer (s : State) (p : PinId) (x : Pin) : (setPin s p x).drawer = s.drawer := rfl
@[simp] theorem setPin_arm (s : State) (p : PinId) (x : Pin) : (setPin s p x).arm = s.arm := rfl
@[simp] theorem setPin_svc (s : State) (p : PinId) (x : Pin) : (setPin s p x).svc = s.svc := rfl
@[simp] theorem setPin_hutch (s : State) (p : PinId) (x : Pin) : (setPin s p x).hutch = s.hutch := rfl
@[simp] theorem setPin_parts (s : State) (p : PinId) (x : Pin) : (setPin s p x).parts = s.parts := rfl
@[simp] theorem setPin_fields (s : State) (p : PinId) (x : Pin) : (setPin s p x).fields = s.fields := rfl
@[simp] theorem setPin_guards (s : State) (p : PinId) (x : Pin) : (setPin s p x).guards = s.guards := rfl
@[simp] theorem setPin_tiles (s : State) (p : PinId) (x : Pin) : (setPin s p x).tiles = s.tiles := rfl
@[simp] theorem setPin_groups (s : State) (p : PinId) (x : Pin) : (setPin s p x).groups = s.groups := rfl
@[simp] theorem setPin_side (s : State) (p : PinId) (x : Pin) : (setPin s p x).side = s.side := rfl
@[simp] theorem setPin_lanes (s : State) (p : PinId) (x : Pin) : (setPin s p x).lanes = s.lanes := rfl
@[simp] theorem setPin_hang (s : State) (p : PinId) (x : Pin) : (setPin s p x).hang = s.hang := rfl
@[simp] theorem setPin_arb (s : State) (p : PinId) (x : Pin) : (setPin s p x).arb = s.arb := rfl
@[simp] theorem setPin_boot (s : State) (p : PinId) (x : Pin) : (setPin s p x).boot = s.boot := rfl
@[simp] theorem setPin_sched (s : State) (p : PinId) (x : Pin) : (setPin s p x).sched = s.sched := rfl
@[simp] theorem setPin_sig (s : State) (p : PinId) (x : Pin) : (setPin s p x).sig = s.sig := rfl
@[simp] theorem setPin_storms (s : State) (p : PinId) (x : Pin) : (setPin s p x).storms = s.storms := rfl
@[simp] theorem setPin_out (s : State) (p : PinId) (x : Pin) : (setPin s p x).out = s.out := rfl

@[simp] theorem drive_pending (s : State) (o : Out) : (drive s o).pending = s.pending := rfl
@[simp] theorem drive_free (s : State) (o : Out) : (drive s o).free = s.free := rfl
@[simp] theorem drive_feed (s : State) (o : Out) : (drive s o).feed = s.feed := rfl
@[simp] theorem drive_now (s : State) (o : Out) : (drive s o).now = s.now := rfl
@[simp] theorem drive_mfg (s : State) (o : Out) : (drive s o).mfg = s.mfg := rfl
@[simp] theorem drive_fe (s : State) (o : Out) : (drive s o).fe = s.fe := rfl
@[simp] theorem drive_regs (s : State) (o : Out) : (drive s o).regs = s.regs := rfl
@[simp] theorem drive_tray (s : State) (o : Out) : (drive s o).tray = s.tray := rfl
@[simp] theorem drive_panel (s : State) (o : Out) : (drive s o).panel = s.panel := rfl
@[simp] theorem drive_nor (s : State) (o : Out) : (drive s o).nor = s.nor := rfl
@[simp] theorem drive_cab (s : State) (o : Out) : (drive s o).cab = s.cab := rfl
@[simp] theorem drive_drawer (s : State) (o : Out) : (drive s o).drawer = s.drawer := rfl
@[simp] theorem drive_arm (s : State) (o : Out) : (drive s o).arm = s.arm := rfl
@[simp] theorem drive_svc (s : State) (o : Out) : (drive s o).svc = s.svc := rfl
@[simp] theorem drive_hutch (s : State) (o : Out) : (drive s o).hutch = s.hutch := rfl
@[simp] theorem drive_parts (s : State) (o : Out) : (drive s o).parts = s.parts := rfl
@[simp] theorem drive_fields (s : State) (o : Out) : (drive s o).fields = s.fields := rfl
@[simp] theorem drive_guards (s : State) (o : Out) : (drive s o).guards = s.guards := rfl
@[simp] theorem drive_tiles (s : State) (o : Out) : (drive s o).tiles = s.tiles := rfl
@[simp] theorem drive_groups (s : State) (o : Out) : (drive s o).groups = s.groups := rfl
@[simp] theorem drive_side (s : State) (o : Out) : (drive s o).side = s.side := rfl
@[simp] theorem drive_lanes (s : State) (o : Out) : (drive s o).lanes = s.lanes := rfl
@[simp] theorem drive_hang (s : State) (o : Out) : (drive s o).hang = s.hang := rfl
@[simp] theorem drive_arb (s : State) (o : Out) : (drive s o).arb = s.arb := rfl
@[simp] theorem drive_boot (s : State) (o : Out) : (drive s o).boot = s.boot := rfl
@[simp] theorem drive_sched (s : State) (o : Out) : (drive s o).sched = s.sched := rfl
@[simp] theorem drive_sig (s : State) (o : Out) : (drive s o).sig = s.sig := rfl
@[simp] theorem drive_storms (s : State) (o : Out) : (drive s o).storms = s.storms := rfl
@[simp] theorem drive_out (s : State) (o : Out) : (drive s o).out = o :: s.out := rfl

@[simp] theorem advFree_pending (s : State) : (advFree s).pending = s.pending := rfl
@[simp] theorem advFree_free (s : State) : (advFree s).free = s.free + 1 := rfl
@[simp] theorem advFree_feed (s : State) : (advFree s).feed = s.feed := rfl
@[simp] theorem advFree_now (s : State) : (advFree s).now = s.now := rfl
@[simp] theorem advFree_mfg (s : State) : (advFree s).mfg = s.mfg := rfl
@[simp] theorem advFree_fe (s : State) : (advFree s).fe = s.fe := rfl
@[simp] theorem advFree_regs (s : State) : (advFree s).regs = s.regs := rfl
@[simp] theorem advFree_tray (s : State) : (advFree s).tray = s.tray := rfl
@[simp] theorem advFree_panel (s : State) : (advFree s).panel = s.panel := rfl
@[simp] theorem advFree_nor (s : State) : (advFree s).nor = s.nor := rfl
@[simp] theorem advFree_cab (s : State) : (advFree s).cab = s.cab := rfl
@[simp] theorem advFree_drawer (s : State) : (advFree s).drawer = s.drawer := rfl
@[simp] theorem advFree_arm (s : State) : (advFree s).arm = s.arm := rfl
@[simp] theorem advFree_svc (s : State) : (advFree s).svc = s.svc := rfl
@[simp] theorem advFree_hutch (s : State) : (advFree s).hutch = s.hutch := rfl
@[simp] theorem advFree_parts (s : State) : (advFree s).parts = s.parts := rfl
@[simp] theorem advFree_fields (s : State) : (advFree s).fields = s.fields := rfl
@[simp] theorem advFree_guards (s : State) : (advFree s).guards = s.guards := rfl
@[simp] theorem advFree_tiles (s : State) : (advFree s).tiles = s.tiles := rfl
@[simp] theorem advFree_groups (s : State) : (advFree s).groups = s.groups := rfl
@[simp] theorem advFree_side (s : State) : (advFree s).side = s.side := rfl
@[simp] theorem advFree_lanes (s : State) : (advFree s).lanes = s.lanes := rfl
@[simp] theorem advFree_hang (s : State) : (advFree s).hang = s.hang := rfl
@[simp] theorem advFree_arb (s : State) : (advFree s).arb = s.arb := rfl
@[simp] theorem advFree_boot (s : State) : (advFree s).boot = s.boot := rfl
@[simp] theorem advFree_sched (s : State) : (advFree s).sched = s.sched := rfl
@[simp] theorem advFree_sig (s : State) : (advFree s).sig = s.sig := rfl
@[simp] theorem advFree_storms (s : State) : (advFree s).storms = s.storms := rfl
@[simp] theorem advFree_out (s : State) : (advFree s).out = s.out := rfl

@[simp] theorem bumpGen_pending (s : State) (d : Nat) : (bumpGen s d).pending = s.pending := rfl
@[simp] theorem bumpGen_free (s : State) (d : Nat) : (bumpGen s d).free = s.free := rfl
@[simp] theorem bumpGen_feed (s : State) (d : Nat) : (bumpGen s d).feed = s.feed := rfl
@[simp] theorem bumpGen_now (s : State) (d : Nat) : (bumpGen s d).now = s.now := rfl
@[simp] theorem bumpGen_mfg (s : State) (d : Nat) : (bumpGen s d).mfg = s.mfg := rfl
@[simp] theorem bumpGen_fe (s : State) (d : Nat) : (bumpGen s d).fe = s.fe := rfl
@[simp] theorem bumpGen_regs (s : State) (d : Nat) : (bumpGen s d).regs = s.regs := rfl
@[simp] theorem bumpGen_tray (s : State) (d : Nat) : (bumpGen s d).tray = s.tray := rfl
@[simp] theorem bumpGen_panel (s : State) (d : Nat) : (bumpGen s d).panel = s.panel := rfl
@[simp] theorem bumpGen_nor (s : State) (d : Nat) : (bumpGen s d).nor = s.nor := rfl
@[simp] theorem bumpGen_cab (s : State) (d : Nat) : (bumpGen s d).cab = s.cab := rfl
@[simp] theorem bumpGen_drawer (s : State) (d : Nat) : (bumpGen s d).drawer = s.drawer := rfl
@[simp] theorem bumpGen_arm (s : State) (d : Nat) : (bumpGen s d).arm = s.arm := rfl
@[simp] theorem bumpGen_svc (s : State) (d : Nat) : (bumpGen s d).svc = s.svc := rfl
@[simp] theorem bumpGen_hutch (s : State) (d : Nat) : (bumpGen s d).hutch = s.hutch := rfl
@[simp] theorem bumpGen_parts (s : State) (d : Nat) : (bumpGen s d).parts = s.parts := rfl
@[simp] theorem bumpGen_fields (s : State) (d : Nat) : (bumpGen s d).fields = s.fields := rfl
@[simp] theorem bumpGen_guards (s : State) (d : Nat) : (bumpGen s d).guards = s.guards := rfl
@[simp] theorem bumpGen_tiles (s : State) (d : Nat) : (bumpGen s d).tiles = s.tiles := rfl
@[simp] theorem bumpGen_groups (s : State) (d : Nat) : (bumpGen s d).groups = s.groups := rfl
@[simp] theorem bumpGen_side (s : State) (d : Nat) : (bumpGen s d).side = s.side := rfl
@[simp] theorem bumpGen_lanes (s : State) (d : Nat) : (bumpGen s d).lanes = s.lanes := rfl
@[simp] theorem bumpGen_arb (s : State) (d : Nat) : (bumpGen s d).arb = s.arb := rfl
@[simp] theorem bumpGen_boot (s : State) (d : Nat) : (bumpGen s d).boot = s.boot := rfl
@[simp] theorem bumpGen_sched (s : State) (d : Nat) : (bumpGen s d).sched = s.sched := rfl
@[simp] theorem bumpGen_sig (s : State) (d : Nat) : (bumpGen s d).sig = s.sig := rfl
@[simp] theorem bumpGen_storms (s : State) (d : Nat) : (bumpGen s d).storms = s.storms := rfl
@[simp] theorem bumpGen_out (s : State) (d : Nat) : (bumpGen s d).out = s.out := rfl

@[simp] theorem clearStatus_pending (s : State) (m : BitVec 16) : (clearStatus s m).pending = s.pending := rfl
@[simp] theorem clearStatus_free (s : State) (m : BitVec 16) : (clearStatus s m).free = s.free := rfl
@[simp] theorem clearStatus_feed (s : State) (m : BitVec 16) : (clearStatus s m).feed = s.feed := rfl
@[simp] theorem clearStatus_now (s : State) (m : BitVec 16) : (clearStatus s m).now = s.now := rfl
@[simp] theorem clearStatus_mfg (s : State) (m : BitVec 16) : (clearStatus s m).mfg = s.mfg := rfl
@[simp] theorem clearStatus_fe (s : State) (m : BitVec 16) : (clearStatus s m).fe = s.fe := rfl
@[simp] theorem clearStatus_regs (s : State) (m : BitVec 16) : (clearStatus s m).regs = s.regs := rfl
@[simp] theorem clearStatus_panel (s : State) (m : BitVec 16) : (clearStatus s m).panel = s.panel := rfl
@[simp] theorem clearStatus_nor (s : State) (m : BitVec 16) : (clearStatus s m).nor = s.nor := rfl
@[simp] theorem clearStatus_cab (s : State) (m : BitVec 16) : (clearStatus s m).cab = s.cab := rfl
@[simp] theorem clearStatus_drawer (s : State) (m : BitVec 16) : (clearStatus s m).drawer = s.drawer := rfl
@[simp] theorem clearStatus_arm (s : State) (m : BitVec 16) : (clearStatus s m).arm = s.arm := rfl
@[simp] theorem clearStatus_svc (s : State) (m : BitVec 16) : (clearStatus s m).svc = s.svc := rfl
@[simp] theorem clearStatus_hutch (s : State) (m : BitVec 16) : (clearStatus s m).hutch = s.hutch := rfl
@[simp] theorem clearStatus_parts (s : State) (m : BitVec 16) : (clearStatus s m).parts = s.parts := rfl
@[simp] theorem clearStatus_fields (s : State) (m : BitVec 16) : (clearStatus s m).fields = s.fields := rfl
@[simp] theorem clearStatus_guards (s : State) (m : BitVec 16) : (clearStatus s m).guards = s.guards := rfl
@[simp] theorem clearStatus_tiles (s : State) (m : BitVec 16) : (clearStatus s m).tiles = s.tiles := rfl
@[simp] theorem clearStatus_groups (s : State) (m : BitVec 16) : (clearStatus s m).groups = s.groups := rfl
@[simp] theorem clearStatus_side (s : State) (m : BitVec 16) : (clearStatus s m).side = s.side := rfl
@[simp] theorem clearStatus_lanes (s : State) (m : BitVec 16) : (clearStatus s m).lanes = s.lanes := rfl
@[simp] theorem clearStatus_hang (s : State) (m : BitVec 16) : (clearStatus s m).hang = s.hang := rfl
@[simp] theorem clearStatus_arb (s : State) (m : BitVec 16) : (clearStatus s m).arb = s.arb := rfl
@[simp] theorem clearStatus_boot (s : State) (m : BitVec 16) : (clearStatus s m).boot = s.boot := rfl
@[simp] theorem clearStatus_sched (s : State) (m : BitVec 16) : (clearStatus s m).sched = s.sched := rfl
@[simp] theorem clearStatus_sig (s : State) (m : BitVec 16) : (clearStatus s m).sig = s.sig := rfl
@[simp] theorem clearStatus_storms (s : State) (m : BitVec 16) : (clearStatus s m).storms = s.storms := rfl
@[simp] theorem clearStatus_out (s : State) (m : BitVec 16) : (clearStatus s m).out = s.out := rfl

@[simp] theorem modImg_pending (s : State) (g : HutchImage → HutchImage) : (modImg s g).pending = s.pending := rfl
@[simp] theorem modImg_free (s : State) (g : HutchImage → HutchImage) : (modImg s g).free = s.free := rfl
@[simp] theorem modImg_feed (s : State) (g : HutchImage → HutchImage) : (modImg s g).feed = s.feed := rfl
@[simp] theorem modImg_now (s : State) (g : HutchImage → HutchImage) : (modImg s g).now = s.now := rfl
@[simp] theorem modImg_mfg (s : State) (g : HutchImage → HutchImage) : (modImg s g).mfg = s.mfg := rfl
@[simp] theorem modImg_fe (s : State) (g : HutchImage → HutchImage) : (modImg s g).fe = s.fe := rfl
@[simp] theorem modImg_regs (s : State) (g : HutchImage → HutchImage) : (modImg s g).regs = s.regs := rfl
@[simp] theorem modImg_tray (s : State) (g : HutchImage → HutchImage) : (modImg s g).tray = s.tray := rfl
@[simp] theorem modImg_panel (s : State) (g : HutchImage → HutchImage) : (modImg s g).panel = s.panel := rfl
@[simp] theorem modImg_nor (s : State) (g : HutchImage → HutchImage) : (modImg s g).nor = s.nor := rfl
@[simp] theorem modImg_cab (s : State) (g : HutchImage → HutchImage) : (modImg s g).cab = s.cab := rfl
@[simp] theorem modImg_drawer (s : State) (g : HutchImage → HutchImage) : (modImg s g).drawer = s.drawer := rfl
@[simp] theorem modImg_arm (s : State) (g : HutchImage → HutchImage) : (modImg s g).arm = s.arm := rfl
@[simp] theorem modImg_svc (s : State) (g : HutchImage → HutchImage) : (modImg s g).svc = s.svc := rfl
@[simp] theorem modImg_parts (s : State) (g : HutchImage → HutchImage) : (modImg s g).parts = s.parts := rfl
@[simp] theorem modImg_fields (s : State) (g : HutchImage → HutchImage) : (modImg s g).fields = s.fields := rfl
@[simp] theorem modImg_guards (s : State) (g : HutchImage → HutchImage) : (modImg s g).guards = s.guards := rfl
@[simp] theorem modImg_tiles (s : State) (g : HutchImage → HutchImage) : (modImg s g).tiles = s.tiles := rfl
@[simp] theorem modImg_groups (s : State) (g : HutchImage → HutchImage) : (modImg s g).groups = s.groups := rfl
@[simp] theorem modImg_side (s : State) (g : HutchImage → HutchImage) : (modImg s g).side = s.side := rfl
@[simp] theorem modImg_lanes (s : State) (g : HutchImage → HutchImage) : (modImg s g).lanes = s.lanes := rfl
@[simp] theorem modImg_hang (s : State) (g : HutchImage → HutchImage) : (modImg s g).hang = s.hang := rfl
@[simp] theorem modImg_arb (s : State) (g : HutchImage → HutchImage) : (modImg s g).arb = s.arb := rfl
@[simp] theorem modImg_boot (s : State) (g : HutchImage → HutchImage) : (modImg s g).boot = s.boot := rfl
@[simp] theorem modImg_sched (s : State) (g : HutchImage → HutchImage) : (modImg s g).sched = s.sched := rfl
@[simp] theorem modImg_sig (s : State) (g : HutchImage → HutchImage) : (modImg s g).sig = s.sig := rfl
@[simp] theorem modImg_storms (s : State) (g : HutchImage → HutchImage) : (modImg s g).storms = s.storms := rfl
@[simp] theorem modImg_out (s : State) (g : HutchImage → HutchImage) : (modImg s g).out = s.out := rfl

end Sys2Proof.Machine
end

