-- ==== Sys2Proof/Laws/Ops.lean ====
section
/-! SUPPORT. What the shared operations answer: the guards of an event, completions, contexts of the Sideboard, several fields at
once. -/

namespace Sys2Proof.Machine

/-! ### The guards of an event -/

/-- A row whose event can occur only under a condition answers its effect under it and the unchanged state otherwise. -/
theorem whenOk_next (s : State) (c : Bool) (why : String) (u t : State) :
    whenOk s c why u = .next t ↔ (c = true ∧ u = t) ∨ (c = false ∧ s = t) := by
  cases c <;> simp [whenOk, idle]

@[simp] theorem whenOk_true (s : State) (why : String) (t : State) : whenOk s true why t = .next t := rfl
@[simp] theorem whenOk_false (s : State) (why : String) (t : State) : whenOk s false why t = .next s := rfl
@[simp] theorem whenSome_some {α : Type} (s : State) (a : α) (why : String) (k : α → Result) : whenSome s (some a) why k = k a := rfl
@[simp] theorem whenSome_none {α : Type} (s : State) (why : String) (k : α → Result) :
    whenSome s (none : Option α) why k = .next s := rfl

/-- A row over something that must be there answers what the rest answers where it is there, the unchanged state otherwise. -/
theorem whenSome_next {α : Type} (s : State) (o : Option α) (why : String) (k : α → Result) (t : State) :
    whenSome s o why k = .next t ↔ (∃ a, o = some a ∧ k a = .next t) ∨ (o = none ∧ s = t) := by
  cases o <;> simp

/-! ### Commands -/

/-- A running command of an opcode is in flight. -/
theorem runCmd_some (s : State) (q e o : Nat) (c : Cmd) (h : runCmd s q e o = some c) :
    findCmd s q e = some c ∧ c.phase = .running ∧ c.opcode = o := by
  unfold runCmd at h
  split at h
  · split at h
    · simp_all
    · simp at h
  · simp at h

/-- A command in flight has the slot and the entry under which it is found. -/
theorem findCmd_some (s : State) (q e : Nat) (c : Cmd) (h : findCmd s q e = some c) : c.q = q ∧ c.e = e ∧ c ∈ s.fe.flight := by
  unfold findCmd at h
  have h1 := List.find?_some h
  have h2 := List.mem_of_find?_eq_some h
  simp at h1
  exact ⟨h1.1, h1.2, h2⟩

/-- A completion changes the front end and the outputs alone. -/
theorem complete_other (s : State) (c : Cmd) (st : Nat) (res : List Word) :
    ∃ fe out, complete s c st res = { s with fe := fe, out := out } := by
  simp only [complete, completeWith, writeCompletion, dropCmd, modSlot, setSlot, drive]
  repeat' split
  all_goals exact ⟨_, _, rfl⟩

/-- The background phase changes the flight alone. -/
theorem background_other (s : State) (c : Cmd) : ∃ fe, background s c = { s with fe := fe } := ⟨_, rfl⟩

/-! ### Contexts -/

theorem find_map_same {α : Type} (p : α → Bool) (f : α → α) (hp : ∀ x, p (f x) = p x) (l : List α) :
    (l.map f).find? p = (l.find? p).map f := by
  induction l with
  | nil => rfl
  | cons a l ih =>
    simp only [List.map_cons, List.find?_cons, hp]
    split
    · rfl
    · exact ih

/-- A context that is put is found. -/
theorem findContext_putContext (s : State) (k : Context) : findContext (putContext s k) k.tenant k.num = some k := by
  unfold putContext setContexts findContext
  simp only
  split
  · rename_i h
    have : ∀ l : List Context, (l.any fun d => d.tenant == k.tenant && d.num == k.num) = true →
        List.find? (fun c : Context => c.tenant == k.tenant && c.num == k.num)
          (l.map fun d => if (d.tenant == k.tenant && d.num == k.num) = true then k else d) = some k := by
      intro l
      induction l with
      | nil => simp
      | cons a l ih =>
        intro h
        simp only [List.map_cons, List.find?_cons]
        by_cases ha : (a.tenant == k.tenant && a.num == k.num) = true
        · simp [ha]
        · simp only [List.any_cons, ha, Bool.false_or] at h
          simp only [ha, Bool.false_eq_true, if_false]
          exact ih h
    exact this _ h
  · rename_i h
    rw [List.find?_append]
    have : List.find? (fun c : Context => c.tenant == k.tenant && c.num == k.num) s.side.contexts = none := by
      simp only [List.any_eq_true, not_exists, not_and, Bool.not_eq_true] at h
      rw [List.find?_eq_none]
      intro x hx
      simp [h x hx]
    simp [this]

/-- A context found has the tenant and the number under which it is found. -/
theorem findContext_some (s : State) (t n : Nat) (k : Context) (h : findContext s t n = some k) : k.tenant = t ∧ k.num = n := by
  unfold findContext at h
  have h1 := List.find?_some h
  simp at h1
  exact h1

/-- A change of every context that keeps tenants and numbers changes the one found. -/
theorem findContext_setContexts_map (s : State) (f : Context → Context) (hf : ∀ k, (f k).tenant = k.tenant ∧ (f k).num = k.num)
    (t n : Nat) : findContext (setContexts s (s.side.contexts.map f)) t n = (findContext s t n).map f := by
  unfold findContext setContexts
  exact find_map_same _ f (fun x => by simp [hf x]) _

/-- What is found depends on the contexts alone. -/
theorem findContext_side (s u : State) (h : u.side = s.side) (t n : Nat) : findContext u t n = findContext s t n := by
  unfold findContext
  rw [h]

end Sys2Proof.Machine
end

