-- ==== Sys2Proof/Machine/Aperture.lean ====
section
/-! DEFINITION. What a read shows: the register aperture (Tables 19.1 to 19.9, R471 to R478), the field status words (Table 10.2). A read without an effect on the state is no command of the table; these functions
say its answer. -/

namespace Sys2Proof.Machine

/-! ### The aperture -/

def regId (s : State) : Nat := s.mfg.stepping + 3 * 2 ^ 8 + 0x5A03 * 2 ^ 16
def regCfg (s : State) (t : Nat) : Nat := if t = 0 then bit01 s.regs.legacy + bit01 s.regs.statusIrq * 2 else 0
/-- HUB_FW (Table 19.4). -/
def hubFw (s : State) : Bool :=
  match s.hang.hbAt with
  | some t => decide (s.now ≤ t + 2000000)
  | none => false
/-- Table 19.4; for tenants 1-15 every bit but READY, STAGE, STAGE_FAILED, HUB_FW and LOCKED reads 0 (R476). -/
def regStatus (s : State) (t : Nat) : Nat :=
  let tray := s.tray.status.toNat % 2 ^ 13
  (if t = 0 then tray else tray % 2) + waferStage s * 2 ^ 16 + bit01 s.boot.failed * 2 ^ 19 + bit01 (hubFw s) * 2 ^ 20 +
    bit01 (lockInForce s) * 2 ^ 21
/-- Table 19.5. -/
def regAlarm (s : State) (t : Nat) : Nat :=
  if t = 0 then s.arm.active % 256 + s.arm.locked % 256 * 2 ^ 8 + s.arm.highest % 4 * 2 ^ 16 else 0
/-- Table 19.6. -/
def regHubHb (s : State) : Nat := s.hang.hbCount % 65536 + min 255 s.hang.fires * 2 ^ 16

/-- Table 19.7, R477: the generation byte of a domain, 0 where the tenant may not use it. -/
def genByte (s : State) (dom : Nat) (visible : Bool) : Nat :=
  if visible then (genOf s dom).toNat + bit01 (domInReset s dom) * 64 + 128 else 0
def partByte (s : State) (t p : Nat) : Nat :=
  if p < 16 then genByte s (domPart p) (decide (t = 0) || (match partOf s p with | some x => decide (x.tenant = t) | none => false)) else 0
def fieldByte (s : State) (t f : Nat) : Nat :=
  if f < 84 then genByte s (domField f) (decide (t = 0) || decide (fieldTenant s f = some t)) else 0
def fourBytes (b : Nat → Nat) (i : Nat) : Nat := b i + b (i + 1) * 2 ^ 8 + b (i + 2) * 2 ^ 16 + b (i + 3) * 2 ^ 24

/-- The record length in the window (Table 12.7 LENGTH). -/
def windowBytes (c : Cursor) : Nat := if c.ready then 4 * c.copy.length else 0
/-- Table 12.7. -/
def regLogStat (s : State) (t : Nat) : Nat :=
  let c := cursorOf s t
  bit01 c.ready + bit01 c.atEnd * 2 + bit01 c.follow * 4 + bit01 c.lost * 8 + bit01 s.cab.failed * 16 + bit01 s.regs.legacy * 32 +
    windowBytes c * 2 ^ 6 + c.lostCount * 2 ^ 19

/-- Table 19.8: the words of a doorbell group, 0 where no slot serves it (R478). -/
def regDoorbell (s : State) (t qn off : Nat) : Nat :=
  match doorbellSlot s t qn with
  | none => 0
  | some q =>
    let x := slotOf s q
    if off = 8 then bit01 x.enable + bit01 x.draining * 2 + bit01 x.dbBad * 4 + x.badCount % 256 * 2 ^ 8 +
      (genOf s (domQueue x.owner x.qnum)).toNat * 2 ^ 16
    else if off = 12 then x.sqHead + x.cqTail * 2 ^ 16
    else 0

/-- Table 19.9; bits [11:0] of the bases are reserved and read 0 (R8). -/
def regSlot (s : State) (n off : Nat) : Nat :=
  let x := slotOf s n
  if off = 0 then bit01 x.enable + bit01 x.draining * 2 + bit01 x.cfgErr * 4 + x.sqLog2 * 2 ^ 4 + x.cqLog2 * 2 ^ 8 + x.owner * 2 ^ 16 +
    x.qnum * 2 ^ 20 + bit01 x.irqEn * 2 ^ 23
  else if off = 4 then x.vector
  else if off = 8 then x.sqBase.toNat % 2 ^ 32 / 4096 * 4096
  else if off = 12 then x.sqBase.toNat / 2 ^ 32
  else if off = 16 then x.cqBase.toNat % 2 ^ 32 / 4096 * 4096
  else if off = 20 then x.cqBase.toNat / 2 ^ 32
  else if off = 24 then inFlight s n % 2 ^ 14
  else 0

/-- R471, R472, R473: a 32-bit read by a tenant; an offset that is not aligned or reserved, and every read of an aperture that is
not served, shows 0. -/
def regRead (s : State) (t off : Nat) : Word :=
  if !apServed s || decide (off % 4 ≠ 0) then 0
  else w32 (
    if off = 0x0000 then regId s
    else if off = 0x0004 then regCfg s t
    else if off = 0x0008 then regStatus s t
    else if off = 0x000C then regAlarm s t
    else if off = 0x0010 then regHubHb s
    else if off = 0x0100 then s.now % 2 ^ 32
    else if off = 0x0104 then (tget s.regs.shadow 0 t).toNat
    else if off = 0x0114 then (if t = 0 then s.cab.opTime % 2 ^ 32 else 0)
    else if off = 0x0118 then (if t = 0 then (tget s.regs.shadow 0 t).toNat else 0)
    else if off = 0x0200 then genByte s domWafer true
    else if 0x0210 ≤ off ∧ off < 0x0220 then fourBytes (partByte s t) (off - 0x0210)
    else if 0x0240 ≤ off ∧ off < 0x0294 then fourBytes (fieldByte s t) (off - 0x0240)
    else if off = 0x0300 then regLogStat s t
    else if off = 0x0304 then (cursorOf s t).seqNo % 2 ^ 32
    else if off = 0x0308 then (cursorOf s t).seqNo / 2 ^ 32 % 2 ^ 16
    else if 0x1000 ≤ off ∧ off < 0x1080 then regDoorbell s t ((off - 0x1000) / 16) (off % 16)
    else if 0x2000 ≤ off ∧ off < 0x4000 then (if t = 0 then regSlot s ((off - 0x2000) / 64) (off % 64) else 0)
    else if 0xC000 ≤ off ∧ off < 0xE000 then
      (if (cursorOf s t).ready then ((cursorOf s t).copy.getD ((off - 0xC000) / 4) 0).toNat else 0)
    else 0)

/-! ### Field status words (Table 10.2) -/

def fieldStatusWords (s : State) (f : Nat) : List Word :=
  let x := fieldOf s f
  [fsw0 x.episode, fsw1 x.episode, fsw2 x]

end Sys2Proof.Machine
end

