-- ==== Sys2Proof/Certificates/Slice0/Obligations.lean ====
section
/-! DEFINITION. The statements for the provers. A statement over several rows is the conjunction of its parts, each a definition under
`Says`. -/

open Sys2Proof Sys2Proof.Machine

/-! ### The machine as a whole -/

/-- The block's interface: a step takes the command at the front of the queue and runs it on the state with the queue's rest. On an empty queue
(log entry 2, DESIGN CHOICE) a step lets the block timestamp (R12) advance by one nanosecond, over which the charges of the holds in
progress (R174) run on, while the hub feed and the reference clock are there, and changes nothing while one is missing. -/
def Obligations.StepRunsFront : Prop :=
  (∀ (s : State) (c : Instr) (rest : List Instr), s.pending = c :: rest → step s = exec c { s with pending := rest }) ∧
  ∀ s : State, s.pending = [] → step s = .next (if clocked s then chargeHolds { s with now := s.now + 1 } else s)

/-- No command touches the queue of waiting commands or what manufacture fixed: after a step that ran the front command, the queue
is the rest of the queue. -/
def Obligations.StepKeepsQueueAndMfg : Prop :=
  ∀ (s t : State) (c : Instr) (rest : List Instr), s.pending = c :: rest → step s = .next t →
    t.pending = rest ∧ t.mfg = s.mfg

/-- R359, R47: every step keeps the wafer cap and the tray ceiling at 0 or within their ranges. -/
def Obligations.StepKeepsLegalCaps : Prop :=
  ∀ s t : State, LegalCaps s → step s = .next t → LegalCaps t

/-- R327, R329: the commit queue fits its 64 KiB, its records stand in the order of their sequence numbers, and each number is
below the next one to be given; every step keeps that. -/
def Obligations.StepKeepsCommitQueue : Prop :=
  ∀ s t : State, QueueOk s → step s = .next t → QueueOk t

/-- Both invariants hold of the machine right after reset. -/
def Obligations.ResetMeetsInvariants : Prop :=
  LegalCaps State.reset ∧ QueueOk State.reset

/-- The commands with which the hub feed falls: its loss, and the loss of the second of the two zones that supply it (R28). -/
def losesFeed (s : State) : Instr → Bool
  | .hubFeedLoss => true
  | .zonePgoodLoss z => feedGone (setPgood s z false)
  | _ => false

/-- The commands with which a generation counter may change (R286: a reset, the hub restart of a watchdog fire or of a hub trip;
R285: power loss loses them). -/
def mayChangeGenerations (s : State) : Instr → Bool
  | .resetStart => true
  | .hubRestart => true
  | .tripRestart _ _ => true
  | c => losesFeed s c

/-- R286: generations advance only by reset. -/
def Obligations.GenerationsOnlyByReset : Prop :=
  ∀ (s t : State) (c : Instr), mayChangeGenerations s c = false → exec c s = .next t → t.hang.gens = s.hang.gens

/-- R89: no command but COMMAND_FETCH (an accepted A+ command) changes the last accepted A+ counter, but for the hub feed's fall and
rise; and COMMAND_FETCH never lowers it. -/
def Obligations.AplusCounterNeverFalls : Prop :=
  ∀ (s t : State) (c : Instr), losesFeed s c = false → (∀ found, c ≠ .powerOn found) → exec c s = .next t →
    s.cab.aCounter ≤ t.cab.aCounter ∧ ((∀ q ws, c ≠ .commandFetch q ws) → t.cab.aCounter = s.cab.aCounter)

/-! ### The aperture and the front end -/

/-- R71, R72, R478, R481, Table 19.8: a doorbell of an enabled slot stores a value below the ring depth; a value at or above it, or
one that arrives while the slot drains, is ignored and counted; a write of 1 to DB_BAD clears it and the count; a group that no slot
serves changes nothing. -/
def Says.DoorbellWrites : Prop :=
  ∀ (s : State) (t qn : Nat) (v : Word), t < 16 → apServed s = true →
    (∀ q, doorbellSlot s t qn = some q →
      (∀ n, n = v.toNat % 4096 → (slotOf s q).draining = false → n < 2 ^ (slotOf s q).sqLog2 →
        exec (.sqDoorbell t qn v) s = .next (setSlot s q { slotOf s q with sqTail := n })) ∧
      (∀ n, n = v.toNat % 16384 → (slotOf s q).draining = false → n < 2 ^ (slotOf s q).cqLog2 →
        exec (.cqDoorbell t qn v) s = .next (setSlot s q { slotOf s q with cqHead := n })) ∧
      ((slotOf s q).draining = true ∨ 2 ^ (slotOf s q).sqLog2 ≤ v.toNat % 4096 →
        exec (.sqDoorbell t qn v) s = .next (setSlot s q { slotOf s q with
          dbBad := true, badCount := min 255 ((slotOf s q).badCount + 1) })) ∧
      ((slotOf s q).draining = true ∨ 2 ^ (slotOf s q).cqLog2 ≤ v.toNat % 16384 →
        exec (.cqDoorbell t qn v) s = .next (setSlot s q { slotOf s q with
          dbBad := true, badCount := min 255 ((slotOf s q).badCount + 1) })) ∧
      (v.toNat / 4 % 2 = 1 →
        exec (.dbBadClear t qn v) s = .next (setSlot s q { slotOf s q with dbBad := false, badCount := 0 }))) ∧
    (doorbellSlot s t qn = none →
      exec (.sqDoorbell t qn v) s = .next s ∧ exec (.cqDoorbell t qn v) s = .next s ∧ exec (.dbBadClear t qn v) s = .next s)

/-- R475, R101: a write of ZRM_CFG by tenant 0 sets STATUS_IRQ to bit 1, and LEGACY_FMT to bit 0 unless a slot has ENABLE or DRAINING
set, in which case LEGACY_FMT stays; nothing else changes. -/
def Obligations.CfgWrites : Prop :=
  ∀ (s : State) (v : Word) (busy : Bool), apServed s = true →
    busy = s.fe.slots.any (fun e => e.2.enable || e.2.draining) →
    ∀ u, u = { s with regs := { s.regs with
        legacy := if busy then s.regs.legacy else v.getLsbD 0, statusIrq := v.getLsbD 1 } } →
      exec (.legacyFmtWrite 0 v) s = .next u ∧ exec (.statusIrqWrite 0 v) s = .next u ∧
      exec (.registerWrite 0 0x0004 4 v) s = .next u

/-- R479: the low word is held pending; a write of the high word with none pending is ignored. R340: with one pending it commits the
correlation of wall-clock value and block timestamp and clears the pending word. -/
def Says.WallClockWrites : Prop :=
  ∀ (s : State) (v low : Word), apServed s = true →
    exec (.wallclockLoWrite 0 v) s = .next { s with regs := { s.regs with wallLow := some v } } ∧
    (s.regs.wallLow = none → exec (.wallclockHiWrite 0 v) s = .next s) ∧
    (s.regs.wallLow = some low → ∃ t, exec (.wallclockHiWrite 0 v) s = .next t ∧
      t.regs.wallLow = none ∧ t.regs.lastCorr = some (low.toNat + v.toNat * 2 ^ 32, s.now))

/-- R473: a read of the low word of a 64-bit counter latches its high word into the tenant's shadow, and a read of the high word
returns that shadow, whichever low read it stands from. -/
def Obligations.CounterReads : Prop :=
  ∀ (s : State) (t : Nat), t < 16 → apServed s = true →
    (∃ u, exec (.counterLowRead t 0x0100) s = .next u ∧
      u = { s with regs := { s.regs with shadow := tset s.regs.shadow t (w32 (s.now / 2 ^ 32)) } } ∧
      regRead u t 0x0104 = w32 (s.now / 2 ^ 32) ∧ ∀ t', t' ≠ t → regRead u t' 0x0104 = regRead s t' 0x0104) ∧
    (∃ u, exec (.counterLowRead 0 0x0114) s = .next u ∧
      regRead u 0 0x0118 = w32 (s.cab.opTime / 2 ^ 32 + s.cab.cycles * 2 ^ 8)) ∧
    regRead s t 0x0104 = tget s.regs.shadow 0 t ∧ regRead s 0 0x0118 = tget s.regs.shadow 0 0

/-- R310: while host-loss detection is on, a heartbeat write of tenant 0 is counted and ends a loss. Tables 12.7 and R333: a write of 1
to LOST clears it; a write of 1 to ZRM_LOG_ADV leaves the record in the window, and READY falls at once. -/
def Says.LogAndHeartbeatWrites : Prop :=
  ∀ (s : State) (t : Nat) (v : Word), t < 16 → apServed s = true →
    (s.hang.lossOn = true → exec (.hostHbWrite 0 v) s =
      .next { s with hang := { s.hang with hostBeats := s.hang.hostBeats + 1, hostLost := false } }) ∧
    (v.getLsbD 3 = true → exec (.logLostClear t v) s = .next (modCursor s t (fun c => { c with lost := false }))) ∧
    (v.getLsbD 0 = true → (cursorOf s t).ready = true → ∃ u, exec (.logAdvWrite t v) s = .next u ∧
      (cursorOf u t).ready = false ∧ (cursorOf u t).copy = [] ∧ (cursorOf u t).seqNo = (cursorOf s t).seqNo + 1)

/-- R333: where the tenant's cursor has no record in its window and a record visible to the tenant stands at or above it, the copy of
the first such record comes into place and READY rises. -/
def Says.LogWindowFills : Prop :=
  ∀ (s : State) (t : Nat) (r : Rec), apServed s = true → (cursorOf s t).opened = true → (cursorOf s t).ready = false →
    ((cursorOf s t).atEnd = false ∨ (cursorOf s t).follow = true) → visibleFrom s t (cursorOf s t).seqNo = some r →
    ∃ u, exec (.logWindowReady t) s = .next u ∧ (cursorOf u t).ready = true ∧ (cursorOf u t).seqNo = r.seqNo ∧
      (cursorOf u t).copy = windowWords s.regs.legacy t r ∧ (cursorOf s t).seqNo ≤ r.seqNo ∧
      (t ≠ 0 → r.tenant = t ∧ evTenantVisible r.typ = true)

/-- Wall clock, host heartbeat and log window (R310, R333, R340, R479). -/
def Obligations.WallClockHeartbeatAndLogRows : Prop := Says.WallClockWrites ∧ Says.LogAndHeartbeatWrites ∧ Says.LogWindowFills

/-- R480, R481: a write of tenant 0 that sets ENABLE enables an idle slot with a good configuration, its four ring indices 0 and its
first pass writing PHASE = 1; with a bad one it sets CFG_ERR. A write that clears ENABLE of an enabled slot leaves it draining
exactly while commands are in flight. No other slot changes. -/
def Says.SlotEnableDisable : Prop :=
  ∀ (s : State) (n : Nat) (v : Word), n < 128 → apServed s = true →
    (v.getLsbD 0 = true → (slotOf s n).enable = false → (slotOf s n).draining = false →
      ∃ u, exec (.queueEnable 0 n v) s = .next u ∧ (∀ m, m ≠ n → slotOf u m = slotOf s m) ∧
        (slotOk s n (slotFields (slotOf s n) v.toNat) = true →
          (slotOf u n).enable = true ∧ (slotOf u n).cfgErr = false ∧ (slotOf u n).sqHead = 0 ∧ (slotOf u n).sqTail = 0 ∧
          (slotOf u n).cqHead = 0 ∧ (slotOf u n).cqTail = 0 ∧ (slotOf u n).pass = true ∧ (slotOf u n).dbBad = false ∧
          (slotOf u n).badCount = 0) ∧
        (slotOk s n (slotFields (slotOf s n) v.toNat) = false → (slotOf u n).enable = false ∧ (slotOf u n).cfgErr = true)) ∧
    (v.getLsbD 0 = false → (slotOf s n).enable = true →
      exec (.queueDisable 0 n v) s = .next (setSlot s n { slotOf s n with
        enable := false, draining := decide (0 < inFlight s n) }))

/-- Doorbells and queue slots (R71, R72, R478, R480, R481). -/
def Obligations.QueueSlotsAndDoorbells : Prop := Says.DoorbellWrites ∧ Says.SlotEnableDisable

/-- R472: a write of another size or alignment, to a reserved offset or to a read-only register is ignored. R471: so is a write of
the queue slots by a tenant other than 0. -/
def Obligations.IgnoredWrites : Prop :=
  ∀ (s : State) (t off size : Nat) (v : Word), t < 16 →
    (size ≠ 4 ∨ off % 4 ≠ 0 ∨ (0x0300 < off ∧ off < 0x030C) ∨ (0x030C < off ∧ off < 0x1000) ∨ (0x1080 ≤ off ∧ off < 0x2000) ∨
      0x4000 ≤ off ∨ (t ≠ 0 ∧ 0x2000 ≤ off)) →
    exec (.registerWrite t off size v) s = .next s

/-- Table 11.2, R292: a failed submission fetch or completion write of an enabled or draining slot asks for an automatic CTX reset of its queue,
cause 0x0A, unless a reset of the queue is already asked for or running. -/
def Says.QueueFaultAsksReset : Prop :=
  ∀ (s : State) (q : Nat), apServed s = true → ((slotOf s q).enable = true ∨ (slotOf s q).draining = true) →
    ∃ t, exec (.queueFault q) s = .next t ∧ t.hang.gens = s.hang.gens ∧
      (domInReset s (domQueue (slotOf s q).owner (slotOf s q).qnum) = false →
        resetAwaited s (domQueue (slotOf s q).owner (slotOf s q).qnum) = false →
        t.hang.requests = s.hang.requests ++ [{ level := 0, dom := domQueue (slotOf s q).owner (slotOf s q).qnum, cause := 0x0A }])

/-- R79: a command whose slot has the turn, for which the cores and the completion ring have room, which passes the checks 1 to 4, and which
neither checks its domain's generation nor is fenced, is in flight, with its words; the submission head moves on by one entry, modulo the
ring depth. R91: with nothing else in flight and no reset running it executes where its path is the hardware path, else it waits for the
management cores. -/
def Says.FetchAccepts : Prop :=
  ∀ (s : State) (q : Nat) (ws : List Word) (c : Cmd), ws.length = 16 → apServed s = true → s.boot.s1 = true →
    fetchTurn s = some q →
    c = { q := q, e := (slotOf s q).sqHead, words := ws, seqNo := s.fe.nextSeqNo, scopeFrom := (slotOf s q).lastFence } →
    (opFw c.opcode = true → fwRoom s (slotOf s q).owner = true) → (mayNotify c = true → ringRoom s q 2 = true) →
    checks123 s (slotOf s q) c = none → (check4 s c).1 = none → c.genCheck = false → isFence c = false →
    ∃ t d, exec (.commandFetch q ws) s = .next t ∧ findCmd t q (slotOf s q).sqHead = some d ∧
      d.words = ws ∧ (slotOf t q).sqHead = ((slotOf s q).sqHead + 1) % 2 ^ (slotOf s q).sqLog2 ∧
      t.fe.nextSeqNo = s.fe.nextSeqNo + 1 ∧
      (s.fe.flight = [] → s.hang.running = [] → d.phase = if opHw c.opcode then .running else .queuedFw)

/-- R79, Table 3.4, checks 1 to 3: the command completes with the status of the first check that fails. -/
def Says.FetchRejects : Prop :=
  ∀ (s : State) (q : Nat) (ws : List Word) (st : Nat) (c : Cmd), ws.length = 16 → apServed s = true → s.boot.s1 = true →
    fetchTurn s = some q → c = { q := q, e := (slotOf s q).sqHead, words := ws } →
    (opFw c.opcode = true → fwRoom s (slotOf s q).owner = true) → (mayNotify c = true → ringRoom s q 2 = true) → checks123 s (slotOf s q) c = some st →
    ∃ t u d, exec (.commandFetch q ws) s = .next t ∧ t = complete u d st [] ∧ d.words = ws ∧ d.q = q ∧
      d.e = (slotOf s q).sqHead

/-- The fetch of a command, the checks 1 to 3, and a queue fault (R79, R292). -/
def Obligations.FetchAndQueueFault : Prop := Says.FetchAccepts ∧ Says.FetchRejects ∧ Says.QueueFaultAsksReset

/-! ### Map and policy commands -/

/-- The fields of the partition that MAP_GRID DEFINE names (Table 3.7). -/
def definedPart (c : Cmd) : Part :=
  { tenant := c.f 4 16 4, colLo := c.f 4 0 4, colHi := c.f 4 4 4, rowLo := c.f 4 8 3, rowHi := c.f 4 12 3 }

/-- R93: NOP completes with ST_OK and does nothing else. R83, R84: FENCE completes with ST_OK and the number of commands of its scope that
failed. -/
def Says.NopAndFence : Prop :=
  ∀ (s : State) (q e : Nat) (c : Cmd),
    (runCmd s q e opNop = some c → reservedOk c [] = true → exec (.nop q e) s = .next (complete s c stOk [])) ∧
    (runCmd s q e opFence = some c → reservedOk c [(3, 0xFF)] = true →
      exec (.fence q e) s = .next (complete s c stOk [w32 (scopeFailures s c)]))

/-- R72, R77, R101, Table 3.3: a completion. With NOP as the command: eight words stand at the completion tail of its ring, with the status,
TAG, the generation of the target domain, the ring's pass, SLOT, QUEUE, the slot's owner and submission head, operation handle 0 and
five result words of 0, or under LEGACY_FMT the four words of the old layout; with NOTIFY the slot's vector interrupts where it may; the tail
moves on by one entry modulo the ring depth, PHASE inverts where it wraps; the command is in flight no longer; nothing outside the front
end and the outputs changes. -/
def Says.CompletionWritten : Prop :=
  ∀ (s : State) (q e : Nat) (c : Cmd), runCmd s q e opNop = some c → reservedOk c [] = true →
    ∃ t, exec (.nop q e) s = .next t ∧ findCmd t q e = none ∧
      t.out = (if c.notify && (slotOf s c.q).irqEn then [.irq (slotOf s c.q).owner (slotOf s c.q).vector] else []) ++
        .completion c.q (slotOf s c.q).cqTail
        (if s.regs.legacy then legacyWords 0x00 c.tag (slotOf s c.q).pass c.e (slotOf s c.q).qnum (slotOf s c.q).sqHead [] else
          [w32 (0x00 + c.tag * 2 ^ 8 + (genOf s c.dom).toNat * 2 ^ 17 + bit01 (slotOf s c.q).pass * 2 ^ 23 + 0 * 2 ^ 24),
           w32 (c.e + (slotOf s c.q).qnum * 2 ^ 12 + (slotOf s c.q).owner * 2 ^ 15 + (slotOf s c.q).sqHead * 2 ^ 19),
           0, 0, 0, 0, 0, 0]) :: s.out ∧
      (slotOf t c.q).cqTail = ((slotOf s c.q).cqTail + 1) % 2 ^ (slotOf s c.q).cqLog2 ∧
      (slotOf t c.q).pass = (if ((slotOf s c.q).cqTail + 1) % 2 ^ (slotOf s c.q).cqLog2 = 0 then !(slotOf s c.q).pass
        else (slotOf s c.q).pass) ∧
      (∀ r, r ≠ c.q → slotOf t r = slotOf s r) ∧
      erase { fe := true, out := true } t = erase { fe := true, out := true } s

/-- NOP, FENCE and the completion entry. -/
def Obligations.CommandsCompleteInOrder : Prop := Says.NopAndFence ∧ Says.CompletionWritten

/-- R83, R84, R79: a held command starts once nothing is ahead of it that it must wait for: on the hardware path it executes, else it
waits for the management cores; with a failure in the scope of its fence it completes with ST_FENCE_ABORT; with its domain's
generation changed meanwhile it completes with ST_STALE_GEN. -/
def Says.HeldCommandStarts : Prop :=
  ∀ (s : State) (q e : Nat) (c : Cmd), apServed s = true → findCmd s q e = some c → c.phase = .held → mayStart s c = true →
    (isFence c = true → 0 < scopeFailures s c → exec (.orderedCommandStart q e) s =
      .next (complete s c stFenceAbort (if c.opcode = opFence then [w32 (scopeFailures s c)] else []))) ∧
    ((isFence c = false ∨ scopeFailures s c = 0) → genOk s c = false →
      exec (.orderedCommandStart q e) s = .next (complete s c stStaleGen [])) ∧
    ((isFence c = false ∨ scopeFailures s c = 0) → genOk s c = true →
      ∃ t d, exec (.orderedCommandStart q e) s = .next t ∧ findCmd t q e = some d ∧
        d.phase = (if opHw c.opcode then .running else .queuedFw) ∧ d.words = c.words)

/-- R487, R98: while hub firmware is up and one of the four cores is free, a core takes the command whose turn it is. R85: the final
outcome of an accepted operation without NOTIFY only ends its handle; with NOTIFY it is posted as a notification, NOTIF = 1. -/
def Says.CoresAndOutcomes : Prop :=
  (∀ (s : State) (c : Cmd), nextForCores s = some c → apServed s = true → s.hang.fwUp = true →
    (s.fe.flight.filter (fun d => opFw d.opcode && d.phase == .running)).length < 4 → findCmd s c.q c.e = some c →
    ∃ t d, exec .fwCommandDispatch s = .next t ∧ findCmd t c.q c.e = some d ∧ d.phase = .running ∧ d.words = c.words) ∧
  (∀ (s : State) (o : Op) (st : Nat) (res : List Word), apServed s = true →
    s.fe.ops.find? (fun p => p.handle == o.handle && p.final.isSome) = some o → o.final = some (st, res) →
    ∃ t, exec (.operationOutcome o.handle) s = .next t ∧ (∀ p ∈ t.fe.ops, p.handle ≠ o.handle) ∧
      (o.notify = false → t.out = s.out) ∧
      (o.notify = true → s.regs.legacy = false → (slotOf s o.q).irqEn = false →
        t.out = .completion o.q (slotOf s o.q).cqTail (completionWords st o.tag (genOf s o.dom).toNat (slotOf s o.q).pass true o.e
          (slotOf s o.q).qnum (slotOf s o.q).owner (slotOf s o.q).sqHead o.handle res) :: s.out))

/-- Held commands, firmware cores and outcomes. -/
def Obligations.CommandsStartAndEnd : Prop := Says.HeldCommandStarts ∧ Says.CoresAndOutcomes

/-- R95: DEFINE creates a partition of whole fields that belong to no partition, carry the mark of no other tenant, and are in service:
it holds exactly those fields for the named tenant, with no program loaded. -/
def Says.DefineCreatesPartition : Prop :=
  ∀ (s : State) (q e : Nat) (c : Cmd), runCmd s q e opMapGrid = some c → c.f 3 0 2 = 1 → s.regs.legacy = false →
    reservedOk c [(3, 7), (4, 0x000F77FF), (11, 0xFFFFFFFF), (12, 0xFFFFFFFF), (13, 0xFFFFFFFF)] = true →
    partOf s c.part = none → (definedPart c).colLo ≤ (definedPart c).colHi → (definedPart c).colHi ≤ 11 →
    (definedPart c).rowLo ≤ (definedPart c).rowHi → (definedPart c).rowHi ≤ 6 →
    (∀ f ∈ partFields (definedPart c), fieldPart s f = none ∧
      (tget s.cab.marks 0 f = 0 ∨ tget s.cab.marks 0 f = (definedPart c).tenant) ∧ (fieldOf s f).excluded = false ∧
      notReady (fieldOf s f) = false ∧ (s.hutch.img.badSlots.filter (fun b => b.1 == f)).length ≤ 24) →
    ∃ t u, exec (.mapGridDefine q e) s = .next t ∧ t = completeRes u c stOk [] ∧ partOf t c.part = some (definedPart c) ∧
      (∀ p, p ≠ c.part → partOf t p = partOf s p)

/-- R95: DEFINE over a field of another partition, or over one that another tenant has used and that has not been scrubbed since, is
denied; nothing but the completion happens. -/
def Says.DefineDenied : Prop :=
  ∀ (s : State) (q e f : Nat) (c : Cmd), runCmd s q e opMapGrid = some c → c.f 3 0 2 = 1 → s.regs.legacy = false →
    reservedOk c [(3, 7), (4, 0x000F77FF), (11, 0xFFFFFFFF), (12, 0xFFFFFFFF), (13, 0xFFFFFFFF)] = true →
    (definedPart c).colLo ≤ (definedPart c).colHi → (definedPart c).colHi ≤ 11 →
    (definedPart c).rowLo ≤ (definedPart c).rowHi → (definedPart c).rowHi ≤ 6 → f ∈ partFields (definedPart c) →
    ((fieldPart s f).isSome = true ∨
      (tget s.cab.marks 0 f ≠ 0 ∧ tget s.cab.marks 0 f ≠ (definedPart c).tenant)) →
    exec (.mapGridDefine q e) s = .next (complete s c stDenied [])

/-- MAP_GRID DEFINE creates a partition or is denied (R95). -/
def Obligations.DefineCreatesOrDenies : Prop := Says.DefineCreatesPartition ∧ Says.DefineDenied

/-- R245, R256: LOAD on a partition in service with no program, with a directory that is in order and a layout that leaves no tile
missing, loads the program: its identifier is word 9 and its seam tables are the directory's; the mode last set by OPMODE comes into force
(R358). -/
def Obligations.LoadLoadsProgram : Prop :=
  ∀ (s : State) (q e : Nat) (c : Cmd) (x : Part) (dir : List DirEntry), runCmd s q e opMapGrid = some c → c.f 3 0 2 = 0 →
    s.regs.legacy = false → partOf s c.part = some x →
    reservedOk c [(3, 7), (4, 0xFFFFFFFF), (5, 0xFFFFFFFF), (6, 0x7F), (7, 0x03FF03FF), (8, 0xFFFF),
      (9, 0xFFFFFFFF), (11, 0xFFFFFFFF), (12, 0xFFFFFFFF), (13, 0xFFFFFFFF)] = true →
    1 ≤ c.f 6 0 7 → c.f 6 0 7 ≤ 84 → dir.length = c.f 6 0 7 →
    directoryOk (partFields x) (c.f 7 0 10) (c.f 7 16 10) (c.f 8 0 16) dir = true → x.prog = none → x.heldAll = false →
    x.opmode = 0 →
    (∀ f ∈ partFields x, (fieldOf s f).excluded = false ∧ notReady (fieldOf s f) = false ∧ (fieldOf s f).therm.shut = none) →
    (∀ f ∈ partFields x, (loadLayout s f 0 (c.b 3 2 && bitAt x.policy 2)).missing = []) →
    ∃ t y g, exec (.mapGridLoad q e dir) s = .next t ∧ partOf t c.part = some y ∧ y.prog = some g ∧ g.id = c.words.getD 9 0 ∧
      g.seams = dir.foldl (fun m d => tset m d.field (d.entries.map seamOf)) [] ∧ y.opmodeRun = 0 ∧ y.tenant = x.tenant ∧
      partFields y = partFields x

/-- R245, R95, R294: UNMAP of a partition without a program and without a hold completes with 0 fields; of one that is held, or whose
fields with a program all stand still, it drops the program, ends the hold, and leaves the fields idle; where a field with a program
still runs it goes on at the fields' seams, in the background. DISSOLVE of a partition without a program removes it, and reports its
fields; with a program loaded it answers ST_BUSY. -/
def Obligations.UnmapRows : Prop :=
  ∀ (s : State) (q e : Nat) (c : Cmd) (x : Part), runCmd s q e opUnmap = some c → partOf s c.part = some x →
    reservedOk c [(3, 1)] = true →
    (c.b 3 0 = false → x.prog = none → x.heldAll = false → exec (.unmapUnload q e) s = .next (complete s c stOk [0])) ∧
    (c.b 3 0 = false → ((x.prog = none ∧ x.heldAll = true) ∨ (x.prog.isSome = true ∧
        (partFields x).all (fun f => standsStill s f && (x.heldAll || (fieldOf s f).run == .gated)) = true)) →
      ∃ t, exec (.unmapUnload q e) s = .next t ∧ (∀ y, partOf t c.part = some y → y.prog = none ∧ y.heldAll = false ∧
        y.unloading = none) ∧ ∀ f ∈ partFields x, (fieldOf t f).run = .idle) ∧
    (c.b 3 0 = false → x.prog.isSome = true →
      (partFields x).all (fun f => standsStill s f && (x.heldAll || (fieldOf s f).run == .gated)) = false →
      ∃ t y d, exec (.unmapUnload q e) s = .next t ∧ partOf t c.part = some y ∧ y.unloading = some (q, e) ∧ y.prog = x.prog ∧
        findCmd t q e = some d ∧ d.phase = .background ∧ t.out = s.out) ∧
    (c.b 3 0 = true → x.prog = none → ∃ t u, exec (.unmapDissolve q e) s = .next t ∧
      t = complete u c stOk [w32 (partFields x).length] ∧ partOf t c.part = none) ∧
    (c.b 3 0 = true → x.prog.isSome = true → exec (.unmapDissolve q e) s = .next (complete s c stBusy []))

/-- R491, R5: QUERY_MAP of a logical tile returns the physical tile that serves it, with VALID, its paired spare, its state and recorded
Fmax, the route-table epoch, and under redundancy the shadow's tile; where no tile serves it, state 5 and no tile. Of a physical tile it
returns the logical tile that it serves, with VALID, or none. Bit 24 of the last word is set under redundancy. -/
def Says.QueryMapAnswers : Prop :=
  ∀ (s : State) (q e : Nat) (c : Cmd) (y : Part), runCmd s q e opQueryMap = some c → partOf s c.part = some y →
    reservedOk c [(3, 0x1FFFFFF)] = true → partHas y (taField (c.f 3 0 24)) = true →
    ∀ (x : Field) (a f pl red none_ : Nat), a = c.f 3 0 24 → f = taField a → pl = taPlace a → x = fieldOf s f → none_ = 0xFFFFFF →
      red = (if y.redund || x.redund then 2 ^ 24 else 0) →
      (c.b 3 24 = false → logicalOk a = true → (x.redund = true → taY a < 48) → ∀ p, p = ownerOf x (posOf x pl) →
        (p ≠ unfilled → exec (.queryMap q e) s = .next (complete s c stOk
          [w32 (tileAddr f true p + 2 ^ 24), w32 (pairedAddr s f (posOf x pl)),
           w32 (mapState s f p + recordedFmax s (tileAddr f true p) * 2 ^ 4), w32 (bit01 x.epoch),
           w32 ((if x.redund then ownerAddr x f (shadowPos pl) else none_) + red)])) ∧
        (p = unfilled → exec (.queryMap q e) s = .next (complete s c stOk
          [w32 none_, w32 none_, w32 5, w32 (bit01 x.epoch), w32 (none_ + red)]))) ∧
      (c.b 3 24 = true → physicalOk a = true →
        (∀ pos, servedBy x pl = some pos → exec (.queryMap q e) s = .next (complete s c stOk
          [w32 (tileAddr f false (placeOfPos x pos) + 2 ^ 24), w32 (pairedAddr s f pos),
           w32 (mapState s f pl + recordedFmax s a * 2 ^ 4), w32 (bit01 x.epoch),
           w32 ((if x.redund then ownerAddr x f (partnerPos pos) else none_) + red)])) ∧
        (servedBy x pl = none → exec (.queryMap q e) s = .next (complete s c stOk
          [w32 none_, w32 none_, w32 (mapState s f pl + recordedFmax s a * 2 ^ 4), w32 (bit01 x.epoch), w32 (none_ + red)])))

/-- R81: a setting on a partition without a program completes at once; with a program loaded it waits for the next seam of each of the
partition's fields. -/
def Says.SettingsComplete : Prop :=
  ∀ (s : State) (c : Cmd) (p st : Nat) (res : List Word) (y : Part), partOf s p = some y → findCmd s c.q c.e = some c →
    (y.prog = none → ∃ u, applySetting s c p st res = complete u c st res) ∧
    (y.prog.isSome = true → partFields y ≠ [] → ∃ d, findCmd (applySetting s c p st res) c.q c.e = some d ∧ d.phase = .applying ∧
      d.waits = partFields y ∧ d.status = st ∧ d.results = res)

/-- R125: CHECK_POLICY without an injection: tenant 0 sets every bit, the partition's tenant bit 1 alone; R141: SPOT_RATE; R175:
REPLAY_POLICY. The result words give the setting before. -/
def Says.PolicySettings : Prop :=
  ∀ (s : State) (q e : Nat) (c : Cmd) (y : Part), partOf s c.part = some y →
    (runCmd s q e opCheckPolicy = some c → reservedOk c [(3, 0xF), (4, 0xFFFFFFFF)] = true → bitAt (c.f 3 0 4) 3 = false →
      exec (.checkPolicy q e) s =
        .next (applySetting (setPart s c.part { y with
          policy := if c.tenant = 0 then c.f 3 0 4 else (y.policy &&& 5) ||| (c.f 3 0 4 &&& 2) }) c c.part stOk [w32 y.policy])) ∧
    (runCmd s q e opSpotRate = some c → reservedOk c [(3, 0x1F)] = true → c.f 3 0 5 ≤ 12 →
      ∀ cap, cap = ((partFields y).map (fun f => lendingCap s f)).foldl min 10000 →
      (cap = 0 → exec (.spotRate q e) s = .next (complete s c stShortfall [w32 y.spotN, 0])) ∧
      (cap ≠ 0 → exec (.spotRate q e) s =
        .next (applySetting (setPart s c.part { y with spotN := c.f 3 0 5 }) c c.part stOk [w32 y.spotN, w32 cap]))) ∧
    (runCmd s q e opReplayPolicy = some c → reservedOk c [(3, 0xFF03)] = true → 1 ≤ c.f 3 8 8 → c.f 3 8 8 ≤ 100 →
      exec (.replayPolicy q e) s = .next (applySetting
        (setPart s c.part { y with spareFirst := c.b 3 0, lateOk := c.b 3 1, warnPct := c.f 3 8 8 }) c c.part stOk
        [w32 (replayWord3 y)]))

/-- R146, R358: with no program loaded, REDUNDANCY (on, where every field can lay out its pairs) and OPMODE set the partition's mode;
with one loaded both answer ST_BUSY. -/
def Says.RedundancyAndOpmode : Prop :=
  ∀ (s : State) (q e : Nat) (c : Cmd) (y : Part), partOf s c.part = some y →
    (runCmd s q e opRedundancy = some c → reservedOk c [(3, 1)] = true →
      (y.prog.isSome = true → exec (.redundancy q e) s = .next (complete s c stBusy [])) ∧
      (y.prog = none →
        (c.b 3 0 = true → ∀ f ∈ partFields y, (borrowFor s f (layoutClock s f y.opmode true) true).isSome = true) →
        ∃ t z, exec (.redundancy q e) s = .next t ∧ partOf t c.part = some z ∧ z.redund = c.b 3 0 ∧ z.prog = none)) ∧
    (runCmd s q e opOpmode = some c → reservedOk c [(3, 3)] = true → c.f 3 0 2 ≤ 2 →
      (y.prog.isSome = true → exec (.opmode q e) s = .next (complete s c stBusy [])) ∧
      (y.prog = none → exec (.opmode q e) s =
        .next (complete (setPart s c.part { y with opmode := c.f 3 0 2 }) c stOk [w32 y.opmode])))

/-- The settings of a partition. -/
def Obligations.PartitionSettings : Prop := Says.SettingsComplete ∧ Says.PolicySettings ∧ Says.RedundancyAndOpmode

/-! ### Digests, Bench and Hutch commands -/

/-- R230: BENCH_SCHEDULE with 1 to 4 slots and a period of 0 (360 minutes) or 60 to 10,080 minutes sets rotation, slots and period, and
returns the word last set. R231, R85: BENCH_RUN of an existing physical tile and corner set 0 to 3, on a field with a free slot, is accepted:
an operation under a new handle waits for its outcome, the tile has a waiting test that carries the handle. R232: BENCH_RESULT. -/
def Obligations.BenchCommands : Prop :=
  ∀ (s : State) (q e : Nat) (c : Cmd),
    (runCmd s q e opBenchSchedule = some c → reservedOk c [(3, 0x701), (4, 0xFFFF)] = true → 1 ≤ c.f 3 8 3 → c.f 3 8 3 ≤ 4 →
      (c.f 4 0 16 = 0 ∨ (60 ≤ c.f 4 0 16 ∧ c.f 4 0 16 ≤ 10080)) →
      exec (.benchSchedule q e) s = .next (complete { s with sched := { s.sched with
        enable := c.b 3 0, slots := c.f 3 8 3, period := if c.f 4 0 16 = 0 then 360 else c.f 4 0 16, setWord := c.words.getD 3 0 } }
        c stOk [s.sched.setWord])) ∧
    (runCmd s q e opBenchRun = some c → reservedOk c [(3, 0xFFFFFF), (4, 0xF)] = true → physicalOk (c.f 3 0 24) = true →
      c.f 4 0 4 ≤ 3 → s.regs.legacy = false → (fieldOf s (taField (c.f 3 0 24))).bench = [] →
      (fieldOf s (taField (c.f 3 0 24))).waitTests = [] →
      ∃ t w, exec (.benchRun q e) s = .next t ∧ (fieldOf t (taField (c.f 3 0 24))).waitTests = [w] ∧ w.tile = taPlace (c.f 3 0 24) ∧
        w.trigger = 1 ∧ w.corner = c.f 4 0 4 ∧ w.handles = [s.fe.nextHandle] ∧ t.fe.nextHandle = s.fe.nextHandle + 1 ∧
        (∃ o ∈ t.fe.ops, o.handle = s.fe.nextHandle ∧ o.q = c.q ∧ o.e = c.e ∧ o.final = none)) ∧
    (runCmd s q e opBenchResult = some c → reservedOk c [(3, 0xFFFFFF)] = true → physicalOk (c.f 3 0 24) = true →
      exec (.benchResult q e) s = .next (complete s c stOk [w32 (tileRec s (c.f 3 0 24)).lastResult, w32 (recordedFmax s (c.f 3 0 24)),
        w32 ((tileRec s (c.f 3 0 24)).lastTest * 57600), w32 (tileRec s (c.f 3 0 24)).suspectCount]))

/-- R234, R252, R237, R99: QUARANTINE of an idle spare marks the tile quarantined with the command's reason 0x8 and answers ST_OK; of a tile
that is quarantined it changes no record; of a row, or of a command slot, in a field with a program it waits for the field's seam; of a NOR
sector it retires the sector; of a phase of a zone with phases left it sheds the phase. -/
def Says.QuarantineRows : Prop :=
  ∀ (s : State) (q e a : Nat) (c : Cmd), runCmd s q e opQuarantine = some c → a = c.f 3 0 24 →
    (c.f 4 0 4 = 0 → reservedOk c [(3, 0xFFFFFF), (4, 0xF), (5, 0)] = true → physicalOk a = true →
      ((tileRec s a).quar = true → ∃ t, exec (.quarantine q e) s = .next t ∧ t.hutch = s.hutch ∧
        t = complete s c stOk [w32 0xFFFFFF, w32 (lendableCount s (taField a))]) ∧
      ((tileRec s a).quar = false → isLent (fieldOf s (taField a)) (taPlace a) = false →
        (fieldOf s (taField a)).bench = [] → servedBy (fieldOf s (taField a)) (taPlace a) = none →
        replaysHere s (taField a) (taPlace a) = false →
        ∃ t, exec (.quarantine q e) s = .next t ∧ (tileRec t a).quar = true ∧ (tileRec t a).qreason = 8 ∧
          ∀ b, b ≠ a → tileRec t b = tileRec s b)) ∧
    (c.f 4 0 4 = 3 → reservedOk c [(3, 0xFFFFFF), (4, 0xF), (5, 0xFFFFFFFF)] = true → c.w 5 < 2048 →
      ∃ t, exec (.quarantine q e) s = .next t ∧ t.hutch.img.badSectors.contains (c.w 5) = true) ∧
    (reservedOk c [(3, 0xFFFFFF), (4, 0xF), (5, 0xFFFFFFFF)] = true → physicalOk a = true → fieldLoaded s (taField a) = true →
      (c.f 4 0 4 = 1 → c.w 5 < 1024 → (tileRec s a).rows < 8 → s.hutch.img.rowList.length < 65536 →
        s.hutch.img.rowList.contains (a, c.w 5) = false →
        (fieldOf s (taField a)).rowsDue.any (fun d => d.1 == taPlace a && d.2.1 == c.w 5) = false →
        ∃ t d, exec (.quarantine q e) s = .next t ∧ findCmd t q e = some d ∧ d.phase = .applying ∧ d.waits = [taField a] ∧
          (fieldOf t (taField a)).rowsDue = (fieldOf s (taField a)).rowsDue ++ [(taPlace a, c.w 5, 0)]) ∧
      (c.f 4 0 4 = 4 → c.w 5 < 40 → s.hutch.img.badSlots.contains (taField a, c.w 5) = false →
        ∃ t d, exec (.quarantine q e) s = .next t ∧ findCmd t q e = some d ∧ d.phase = .applying ∧ d.waits = [taField a] ∧
          (fieldOf t (taField a)).slotsDue = (fieldOf s (taField a)).slotsDue ++ [c.w 5])) ∧
    (∀ z ph, c.f 4 0 4 = 5 → reservedOk c [(3, 0xFFFFFF), (4, 0xF), (5, 0x3F07)] = true → z = c.w 5 % 8 → ph = c.w 5 / 2 ^ 8 →
      ph < zonePhases s z → phasesLeft s z ≠ 0 → s.arb.mfrOk.getD z true = true →
      ∃ t, exec (.quarantine q e) s = .next t ∧ t.hutch.img.badPhases.contains (z, ph) = true)

/-- R253: RELEASE of a quarantined tile brings it back as a suspect spare; of a tile in service it answers ST_BAD_PARAM and changes
nothing else. -/
def Says.ReleaseRows : Prop :=
  ∀ (s : State) (q e a : Nat) (c : Cmd), runCmd s q e opRelease = some c → a = c.f 3 0 24 → c.f 4 0 4 = 0 →
    reservedOk c [(3, 0xFFFFFF), (4, 0xF), (5, 0)] = true → physicalOk a = true →
    ((tileRec s a).quar = false → exec (.release q e) s = .next (complete s c stBadParam [])) ∧
    ((tileRec s a).quar = true → inBench (fieldOf s (taField a)) (taPlace a) = false →
      ∃ t, exec (.release q e) s = .next t ∧ (tileRec t a).quar = false ∧ (tileRec t a).suspect = true ∧ (tileRec t a).passes = 0 ∧
        ∀ b, b ≠ a → tileRec t b = tileRec s b)

/-- QUARANTINE and RELEASE. -/
def Obligations.QuarantineAndRelease : Prop := Says.QuarantineRows ∧ Says.ReleaseRows

/-- R258, R283: SPARE_STATUS of a field, or of the fields that the tenant may see, returns the sums of the five counts, and with an
output buffer the fields' records; SIG_EXPORT with no signature held at or above the number given returns none, and the next sequence
number, else the first signatures that its buffer and its count allow, and the number after the last of them. -/
def Says.StatusAndExport : Prop :=
  ∀ (s : State) (q e : Nat) (c : Cmd), s.regs.legacy = false →
    (runCmd s q e opSpareStatus = some c → (c.f 3 0 7 < 84 ∨ c.f 3 0 7 = 127) → outDescOk c = true →
      reservedOk c [(3, 0x7F), (11, 0xFFFFFFFF), (12, 0xFFFFFFFF), (13, 0xFFFFFFFF)] = true → ∀ fs res,
      fs = (if c.f 3 0 7 < 84 then [c.f 3 0 7] else if c.tenant = 0 ∧ c.priv then allFields
        else allFields.filter (fun f => fieldTenant s f == some c.tenant)) →
      res = [w32 ((fs.map (spareCount s)).map (·.free)).sum, w32 ((fs.map (spareCount s)).map (·.suspect)).sum,
        w32 ((fs.map (spareCount s)).map (·.quar)).sum, w32 ((fs.map (spareCount s)).map (·.rows)).sum,
        w32 ((fs.map (spareCount s)).map (·.lent)).sum] →
      exec (.spareStatus q e) s = .next (if outPresent c then completeBulk s c stOk res (fs.flatMap (spareRecord s))
        else complete s c stOk res)) ∧
    (runCmd s q e opSigExport = some c → outDescOk c = true →
      reservedOk c [(3, 0xFFFFFFFF), (4, 0xFFFFFFFF), (11, 0xFFFFFFFF), (12, 0xFFFFFFFF), (13, 0xFFFFFFFF)] = true →
      ((∀ g ∈ heldSignatures s, g.1 < c.w 3) →
        exec (.sigExport q e) s = .next (complete s c stOk [0, 0, w32 s.hutch.img.nextSig])) ∧
      (∀ held g, 392 ≤ outLen c → held = ((heldSignatures s).filter (fun g => decide (c.w 3 ≤ g.1))).take
          (if c.w 4 = 0 then outLen c / 392 else min (outLen c / 392) (c.w 4)) → held.getLast? = some g →
        exec (.sigExport q e) s = .next (completeBulk s c stOk
          [w32 held.length, w32 (392 * held.length), w32 (g.1 + 1)] (held.flatMap (·.2)))))

/-- QUERY_MAP, SPARE_STATUS and SIG_EXPORT answer. -/
def Obligations.QueriesAnswer : Prop := Says.QueryMapAnswers ∧ Says.StatusAndExport

/-- R226, R205: a free slot of a field in service starts the first waiting test that can start, or else, where a rotation test is due, the
rotation's next; the test no longer waits. R227: an idle field opens a window. R229: the lockout ends. R228: a tile untested for twice the target period commits EV_BENCH_OVERDUE, once a period. -/
def Says.BenchEvents : Prop :=
  ∀ (s : State) (f : Nat), f < 84 → clocked s = true →
    (∀ slot w st, slot < 4 → inService (fieldOf s f) = true → tfind (fieldOf s f).bench slot = none → s.hang.quiesce = 0 →
      ((firstStart s f (waitOrder (fieldOf s f)) 0).1 = some (w, st) ∨
        ((firstStart s f (waitOrder (fieldOf s f)) 0).1 = none ∧ rotationDue s f slot = true ∧ (fieldOf s f).reduced = false ∧
          (rotationNext s f).1 = some (w, st))) →
      ∃ t b, exec (.benchSlotStart f slot) s = .next t ∧ tfind (fieldOf t f).bench slot = some b ∧ b.tile = w.tile ∧
        b.trigger = w.trigger ∧ b.handles = w.handles ∧ (∀ v ∈ (fieldOf t f).waitTests, v.tile ≠ w.tile)) ∧
    (fieldLoaded s f = false → (fieldOf s f).stage = 7 → (fieldOf s f).excluded = false →
      ((fieldOf s f).window = 0 ∨ (fieldOf s f).window + 60000 ≤ s.now) →
      ∃ t, exec (.benchIdleWindow f) s = .next t ∧ (fieldOf t f).window = s.now + 1000 * windowLen s f ∧ ∀ g, g ≠ f → fieldOf t g = fieldOf s g) ∧
    ((fieldOf s f).benchLock = true →
      exec (.benchDroopLockoutEnd f) s = .next (modField s f (fun x => { x with benchLock := false }))) ∧
    (∀ tile, physicalOk tile = true → (tileRec s tile).quar = false →
      lastCompleted s tile + 2 * (s.sched.period * 960) ≤ s.cab.opTime →
      (∀ at_, tfind s.sched.overdue tile = some at_ → at_ + s.sched.period * 960 ≤ s.cab.opTime) →
      ∃ t, exec (.benchOverdue tile) s = .next t ∧ tfind t.sched.overdue tile = some s.cab.opTime ∧ t.fields = s.fields)

/-- R229: a segment that a droop struck is not judged: the test goes on unless it is the third droop within it, which locks the field's Bench.
R214, R219: a segment in whose course the tile's error pin rose, or whose output digest is not the expected one, has failed and is run again;
R213: else it has passed, and its length counts towards the test. -/
def Says.BenchSegments : Prop :=
  ∀ (s : State) (f slot : Nat) (b : BenchSlot) (seg : SegmentEnd), f < 84 → slot < 4 → tfind (fieldOf s f).bench slot = some b →
    b.admitted = true → b.done = false → seg.rows.all (· < 1032) = true → seg.links.all (· < 4) = true → (fieldOf s f).warden = .up →
    clocked s = true →
    (b.drooped = true → b.droops + 1 < 3 → exec (.benchSegmentEnd f slot seg) s = .next (modField s f (fun x => { x with
      bench := tset x.bench slot { b with droops := b.droops + 1, admitted := false, drooped := false, site := 0 } }))) ∧
    (b.drooped = true → b.droops = 2 → ∃ t, exec (.benchSegmentEnd f slot seg) s = .next t ∧ (fieldOf t f).benchLock = true) ∧
    (b.drooped = false → b.miss = false → b.failOnce = false → b.ladder = 0 → b.pattern ≠ 5 →
      ((guardOf s (pa f b.tile)).pin = true ∨ (guardOf s (pa f b.tile)).digest ≠ seg.expected) →
      ∃ t b', exec (.benchSegmentEnd f slot seg) s = .next t ∧ tfind (fieldOf t f).bench slot = some b' ∧ b'.failOnce = true ∧
        b'.admitted = false ∧ b'.pattern = b.pattern ∧ b'.left = b.left) ∧
    (b.drooped = false → b.miss = false → b.ladder = 0 → (guardOf s (pa f b.tile)).pin = false →
      (guardOf s (pa f b.tile)).digest = seg.expected → windowLen s f - 16 < b.left →
      ∃ t b', exec (.benchSegmentEnd f slot seg) s = .next t ∧ tfind (fieldOf t f).bench slot = some b' ∧ b'.failOnce = false ∧
        b'.admitted = false ∧ b'.left = b.left - (windowLen s f - 16) ∧ b'.pattern = patternAt b'.left)

/-- Bench slots, windows and segments. -/
def Obligations.BenchRows : Prop := Says.BenchEvents ∧ Says.BenchSegments

/-! ### Power -/

/-- R359, R47: POWER_CAP with a cap of 0 or of 6 kW to 36 kW at or above the floor, and no rail limit or one that the rail's board and window
allow, sets the wafer cap; with a cap below the floor it changes no cap and answers ST_UNREACHABLE. A CAP_LIMIT write of 0 or 60 to 360 with a good PEC sets the tray
ceiling; any other value changes nothing. -/
def Obligations.CapsAreSet : Prop :=
  ∀ (s : State) (q e : Nat) (c : Cmd) (d : BitVec 16),
    (runCmd s q e opPowerCap = some c → reservedOk c [(3, 0xFFFF), (4, 0xFFFFFFFF)] = true → (c.f 4 16 16 = 0xFFFF ∨ (c.f 4 0 16 < 252 ∧
        ((c.f 4 16 16 : Nat) : Rat) ≤ boardMax s (c.f 4 0 16) ∧
        (c.f 4 16 16 = 0 ∨ windowFloor s (c.f 4 0 16) ≤ ((c.f 4 16 16 : Nat) : Rat)))) →
      (c.f 3 0 16 = 0 ∨ (600 ≤ c.f 3 0 16 ∧ c.f 3 0 16 ≤ 3600)) →
      ((c.f 3 0 16 = 0 ∨ floorWatts s ≤ ((c.f 3 0 16 * 10 : Nat) : Rat)) →
        ∃ t, exec (.powerCap q e) s = .next t ∧ t.arb.cap = c.f 3 0 16 ∧ t.tray = s.tray) ∧
      (c.f 3 0 16 ≠ 0 → ((c.f 3 0 16 * 10 : Nat) : Rat) < floorWatts s →
        ∃ t u, exec (.powerCap q e) s = .next t ∧ t = complete u c stUnreachable [w32 (capInForce s)] ∧ t.arb = s.arb)) ∧
    (s.feed = true → s.tray.smbDead = false →
      ((d.toNat = 0 ∨ (60 ≤ d.toNat ∧ d.toNat ≤ 360)) →
        ∃ t, exec (.smbCapLimit true d) s = .next t ∧ t.tray = { s.tray with capCeil := d.toNat } ∧ t.arb = s.arb) ∧
      (d.toNat ≠ 0 → (d.toNat < 60 ∨ 360 < d.toNat) → exec (.smbCapLimit true d) s = .next s) ∧
      exec (.smbCapLimit false d) s = .next s)

/-- R351, R354: with a field's estimate the wafer estimate is renewed from the estimates of all fields. R360: the arbiter
plans while the hub is on, and leaves the caps. R357: a frequency change with no action left ends 100 us after its last write, or, of a raise, 100 us after its switch. R367: the
lockout ends. -/
def Obligations.PowerEvents : Prop :=
  ∀ (s : State) (f : Nat), f < 84 → clocked s = true →
    (∀ act, (fieldOf s f).warden = .up → (fieldOf s f).zoneDown = false →
      ∃ t, exec (.estimatePeriod f act) s = .next t ∧ t.arb.estimate = waferWatts t ∧ t.arb.cap = s.arb.cap) ∧
    (s.arb.hubOff = false → ∃ t, exec .arbiterReplan s = .next t ∧ t.arb.cap = s.arb.cap ∧ t.tray = s.tray ∧ t.hang = s.hang) ∧
    (∀ c, (fieldOf s f).power.change = some c → c.abort = false →
      ((c.stage = 2 ∧ c.wroteAt + 100000 ≤ s.now) ∨ (c.from_ < c.dest ∧ c.stage = 1 ∧ c.switchedAt + 100000 ≤ s.now)) →
      exec (.freqChangeEnd f) s = .next (setField s f { fieldOf s f with power := { (fieldOf s f).power with change := none } })) ∧
    ((fieldOf s f).power.lockout = true →
      exec (.droopLockoutEnd f) s = .next (setField s f { fieldOf s f with power := { (fieldOf s f).power with lockout := false } }))

/-- R53, R55, R57: a PMBus slot of a working segment: a transaction with no answer is counted; a second failure in a row, of a retry, is passed over;
the third in a row fails the segment and sets PMBUS_FAIL. With ALERT# low the segment's pages are read for their status, a page in fault
has its faults cleared, a waiting write goes out, and else a calibration read moves the sweep on by one page. A failed segment that answers its
retry is in use again. -/
def Says.PmbusSlots : Prop :=
  ∀ (s : State) (z : Nat), z < 8 → clocked s = true → s.arb.hubOff = false →
    (s.arb.segDown.contains z = false → tget s.arb.segFails 0 z = 0 → ∀ low,
      exec (.pmbusSlot z low .failed) s = .next { s with arb := { s.arb with segFails := tset s.arb.segFails z 1 } }) ∧
    (s.arb.segDown.contains z = false → tget s.arb.segFails 0 z = 1 → ∀ low, ∃ t,
      exec (.pmbusSlot z low .failed) s = .next t ∧ tget t.arb.segFails 0 z = 2 ∧ t.arb.segDown = s.arb.segDown) ∧
    (s.arb.segDown.contains z = false → tget s.arb.segFails 0 z = 2 → ∀ low,
      ∃ t, exec (.pmbusSlot z low .failed) s = .next t ∧ t.arb.segDown.contains z = true ∧ tsBit t tsPmbusFail = true) ∧
    (∀ a, s.arb.segDown.contains z = false → tfind s.arb.segStatus z = none → tget s.arb.segFault [] z = [] →
      tget s.arb.writes [] z = [] → ∃ t, exec (.pmbusSlot z false (.iout a)) s = .next t ∧
        tget t.arb.segPage 0 z = (tget s.arb.segPage 0 z % zonePages z + 1) % zonePages z ∧
        t.out = .pmbus z (tget s.arb.segPage 0 z % zonePages z) 0x8C 0 :: s.out) ∧
    (∀ w, s.arb.segDown.contains z = false → tfind s.arb.segStatus z = none → tget s.arb.segFault [] z = [] →
      ∃ t, exec (.pmbusSlot z true (.status w)) s = .next t ∧ tfind t.arb.segStatus z = some (zonePages z - 1) ∧
        tget t.arb.segFault [] z = (if w = 0 then [] else [0]) ∧ t.out = .pmbus z 0 0x79 0 :: s.out) ∧
    (∀ low p rest, s.arb.segDown.contains z = false → tfind s.arb.segStatus z = none → tget s.arb.segFault [] z = p :: rest →
      tget s.arb.segFails 0 z < 2 → ∃ t, exec (.pmbusSlot z low .acked) s = .next t ∧ tget t.arb.segFault [] z = rest ∧
        t.out = .pmbus z p 0x03 0 :: s.out) ∧
    (∀ p c v rest, s.arb.segDown.contains z = false → tfind s.arb.segStatus z = none → tget s.arb.segFault [] z = [] →
      tget s.arb.writes [] z = (p, c, v) :: rest → tget s.arb.segFails 0 z < 2 →
      ∃ t, exec (.pmbusSlot z false .acked) s = .next t ∧ t.out = .pmbus z p c v :: s.out ∧ tget t.arb.writes [] z = rest) ∧
    (∀ a, s.arb.segDown.contains z = true → ∃ t, exec (.pmbusSegmentRetry z (.iout a)) s = .next t ∧
      t.arb.segDown.contains z = false ∧ t.fields = s.fields)

/-- R369: with the loss of a zone's power-good, while the other supply of the hub feed stands, every field of the zone is without power: its
warden is off, the front end, the Hutch, the Armoire and the NOR stay as they are, and where no program is lost its compute is gated; with its return the zone's fields have power, and in service they start
again at S2. R32: besides them only the odd partners of the zone's even wardens are touched where no program is lost and no stage of
bring-up runs. R28: with both supplies gone the hub feed is lost. -/
def Says.ZonePower : Prop :=
  ∀ (s : State) (z f : Nat), z < 8 → clocked s = true → f ∈ zoneFields z →
    ((fieldOf s f).zoneDown = false → feedGone (setPgood s z false) = false → ∃ t, exec (.zonePgoodLoss z) s = .next t ∧
      (fieldOf t f).zoneDown = true ∧ (fieldOf t f).warden = .off ∧
      erase { parts := true, fields := true, guards := true, hang := true, arb := true, boot := true, out := true, status := true,
              arrivals := true } t =
        erase { parts := true, fields := true, guards := true, hang := true, arb := true, boot := true, out := true, status := true,
                arrivals := true } s ∧
      (s.parts = [] → s.boot.stage < 2 → (fieldOf t f).run = .gated ∧
        ∀ g, g ∉ zoneFields z → g ∉ oddPartners (zoneFields z) → fieldOf t g = fieldOf s g)) ∧
    ((fieldOf s f).zoneDown = false → feedGone (setPgood s z false) = true →
      ∃ t, exec (.zonePgoodLoss z) s = .next t ∧ t.feed = false ∧ t.fields = [] ∧ t.parts = []) ∧
    ((fieldOf s f).zoneDown = true → 2 ≤ s.boot.stage → (fieldOf s f).excluded = false → ∃ t, exec (.zonePgoodReturn z) s = .next t ∧
      (fieldOf t f).zoneDown = false ∧ (fieldOf t f).stage = 2 ∧ (f % 2 = 0 → (fieldOf t f).warden = .starting) ∧
      ∀ g, g ∉ zoneFields z → g ∉ oddPartners (zoneFields z) → fieldOf t g = fieldOf s g)

/-- PMBus slots and zone power. -/
def Obligations.TelemetryAndZones : Prop := Says.PmbusSlots ∧ Says.ZonePower

/-! ### Tray interface, panel, service port -/

/-- R47, R309, R467, R46, R49: an SMBus write with a good PEC takes effect (STATUS_CLR clears the W1C bits named; QUIESCE 0xA5 starts a quiesce
where none is under way, and no other value does anything; LOCATE 1 and 0 turn the locate state on and off, and no other value does
anything), one with a bad PEC changes nothing. The Alert Response, where the
block wins, releases ALERT_N. A clock held low resets the target's bus state. -/
def Says.SmbusRows : Prop :=
  ∀ s : State, s.feed = true → s.tray.smbDead = false →
    (∀ d, exec (.smbStatusClr true d) s = .next { s with tray := { s.tray with status := s.tray.status &&& ~~~(d &&& tsW1c) } }) ∧
    (s.hang.fwUp = true → s.hang.quiesce = 0 → exec (.smbQuiesce true 0xA5) s =
      .next { s with hang := { s.hang with quiesce := 1, quiesceAt := s.now }, fe := { s.fe with bgQuiesce := true } }) ∧
    exec (.smbLocate true 0x01) s = .next { s with panel := { s.panel with locate := true } } ∧
    exec (.smbLocate true 0x00) s = .next { s with panel := { s.panel with locate := false } } ∧
    (∀ d, d ≠ 0xA5 → exec (.smbQuiesce true d) s = .next s) ∧
    (∀ d, d ≠ 0x01 → d ≠ 0x00 → exec (.smbLocate true d) s = .next s) ∧
    (∀ d16 d, exec (.smbStatusClr false d16) s = .next s ∧ exec (.smbQuiesce false d) s = .next s ∧
      exec (.smbLocate false d) s = .next s) ∧
    (tsBit s tsAlertAssert = true → exec (.alertResponse true) s =
      .next { s with tray := { s.tray with status := s.tray.status &&& ~~~(bitMask tsAlertAssert) } }) ∧
    exec (.alertResponse false) s = .next s ∧
    exec .smbClockTimeout s = .next { s with tray := { s.tray with smbActive := false } }

/-- R41: a sample that agrees ends a confirmation; one that disagrees starts or continues it, and after three further disagreeing samples a fault
is declared and PIN_FAULT set. R43: a faulted pin whose retry agrees returns to service, and one whose retry disagrees counts it. R41, R44: the button input. -/
def Obligations.PinRows : Prop :=
  ∀ (s : State) (p : PinId) (high : Bool), clocked s = true → p ≠ .attnBtn →
    ((pinOf s p).fault = false → disagrees s p high = false →
      exec (.pinReadbackSample p high) s = .next (setPin s p { pinOf s p with confirm := 0 })) ∧
    ((pinOf s p).fault = false → disagrees s p high = true → (pinOf s p).confirm < 3 →
      exec (.pinReadbackSample p high) s = .next (setPin s p { pinOf s p with confirm := (pinOf s p).confirm + 1 })) ∧
    ((pinOf s p).fault = false → disagrees s p high = true → (pinOf s p).confirm = 3 →
      ∃ t, exec (.pinReadbackSample p high) s = .next t ∧ (pinOf t p).fault = true ∧ tsBit t tsPinFault = true) ∧
    ((pinOf s p).fault = true → disagrees s p high = false →
      ∃ t, exec (.pinRetry p high) s = .next t ∧ (pinOf t p).fault = false) ∧
    ((pinOf s p).fault = true → disagrees s p high = true →
      exec (.pinRetry p high) s = .next (setPin s p { pinOf s p with retries := (pinOf s p).retries + 1 })) ∧
    ((pinOf s .attnBtn).fault = false → (s.panel.pressed = true ∨ s.panel.ignored = true) →
      ∃ t, exec .attnStuck s = .next t ∧ (pinOf t .attnBtn).fault = true ∧ t.panel.pressed = false) ∧
    ((pinOf s .attnBtn).fault = true →
      ∃ t, exec .attnFaultRecover s = .next t ∧ (pinOf t .attnBtn).fault = false)

/-- R63, R467, R468, R469: the attention button. A press starts; released before 1 s it toggles locate; held for 4 s it asks for a quiesce and
LOC_LED blinks; held for 10 s it asks for CYCLE with reason 0x05 where the panel policy allows; a longer press ends without a further
action; the blinking ends. -/
def Says.PanelRows : Prop :=
  ∀ s : State, clocked s = true →
    (s.panel.pressed = false → s.panel.ignored = false → (pinOf s .attnBtn).fault = false →
      exec .buttonPress s = .next { s with panel := { s.panel with pressed := true, hold4 := false, hold10 := false } }) ∧
    (s.panel.pressed = true → s.panel.hold4 = false →
      exec .buttonShortRelease s = .next { s with panel := { s.panel with pressed := false, locate := !s.panel.locate } }) ∧
    (s.panel.pressed = true → s.panel.hold4 = false → s.hang.fwUp = true → s.hang.quiesce = 0 →
      exec .buttonHold4s s = .next { s with
        panel := { s.panel with hold4 := true, blink := true }
        hang := { s.hang with quiesce := 1, quiesceAt := s.now }
        fe := { s.fe with bgQuiesce := true } }) ∧
    (s.panel.pressed = true → s.panel.hold4 = true → s.panel.hold10 = false → s.hang.fwUp = true → s.arm.hold10 = true →
      s.tray.pwrcycLow = false → s.hang.cycleWant = none →
      exec .buttonHold10s s = .next { s with
        panel := { s.panel with hold10 := true, blink := true }
        hang := { s.hang with cycleWant := some 0x05 } }) ∧
    (s.panel.pressed = true → exec .buttonLongRelease s =
      .next { s with panel := { s.panel with pressed := false, ignored := false, hold4 := false, hold10 := false } }) ∧
    (s.panel.blink = true → exec .heldActionBlinkEnd s = .next { s with panel := { s.panel with blink := false } })

/-- R460, R461, R462: an alarm source that is not active becomes active when its condition is seen; from action 1 on the security lock holds and
the ALARM bit is set, from action 2 on the tenants' keys are erased, and with action 3 the admin key and the identity. The lid's closing
acknowledges nothing. -/
def Says.AlarmSources : Prop :=
  ∀ s : State, s.feed = true →
    (clocked s = true → s.panel.lidOpen = false → bitAt s.arm.active 0 = false → ∃ t, exec (.lidChange true) s = .next t ∧
      t.arm.active = s.arm.active + 1 ∧ t.panel.lidOpen = true ∧ (1 ≤ s.arm.actions.getD 0 0 → tsBit t tsAlarm = true ∧
        t.arm.locked = s.arm.locked + 1) ∧ (2 ≤ s.arm.actions.getD 0 0 → t.arm.tenantKeys = []) ∧
        (3 ≤ s.arm.actions.getD 0 0 → t.arm.admin = none ∧ t.arm.identity = none)) ∧
    (clocked s = true → s.panel.lidOpen = true →
      exec (.lidChange false) s = .next { s with panel := { s.panel with lidOpen := false } }) ∧
    (bitAt s.arm.active 2 = false → ∃ t, exec .supplyGlitch s = .next t ∧ t.arm.active = s.arm.active + 4) ∧
    (bitAt s.arm.active 3 = false → ∃ t, exec .clockGlitch s = .next t ∧ t.arm.active = s.arm.active + 8)

/-- The attention button and the alarm sources. -/
def Obligations.PanelAndAlarms : Prop := Says.PanelRows ∧ Says.AlarmSources

/-- R60, R61, R62, R463: the service port connects where the console is served, and shows its device; a session ends with its cause; an authentication without a
response draws a challenge, refused for 10 s after a wrong response; a response within 60 s that the service key verifies gives the session
its role, and any other gives none. -/
def Says.ServiceSession : Prop :=
  ∀ s : State, clocked s = true →
    (consoleServed s = true → s.svc.vbus = false → s.arb.hubOff = false → exec .usbConnect s =
      .next { s with svc := { s.svc with vbus := true, role := none, challenge := none, wrongTime := none }, out := usbDevice :: s.out }) ∧
    (s.svc.vbus = true → ∀ why, ∃ t, exec (.svcSessionEnd why) s = .next t ∧ t.svc.vbus = false ∧ t.svc.role = none) ∧
    (s.svc.vbus = true → s.svc.wrongTime = none → ∃ t ch, exec (.consoleAuth none) s = .next t ∧ t.svc.challenge = some ch ∧
      ch < 2 ^ 128 ∧ t.svc.challengeTime = s.now ∧ t.out = .console [ch] :: s.out) ∧
    (∀ ch r sg role, s.svc.vbus = true → s.svc.wrongTime = none → s.svc.challenge = some ch →
      s.now ≤ s.svc.challengeTime + 60000000000 → ∀ good,
      good = (decide (role < 2) && Config.ecdsaVerify s.arm.svcKey (challengeText s ch role) (r, sg)) →
      (good = true → ∃ t, exec (.consoleAuth (some (r, sg, role))) s = .next t ∧ t.svc.role = some role ∧ t.svc.challenge = none ∧
        t.arm.fails = 0) ∧
      (good = false → ∃ t, exec (.consoleAuth (some (r, sg, role))) s = .next t ∧ t.svc.role = s.svc.role ∧
        t.svc.wrongTime = some s.now ∧ t.svc.challenge = none)) ∧
    (∀ at_, s.svc.vbus = true → s.svc.wrongTime = some at_ → s.now < at_ + 10000000000 → ∀ r,
      exec (.consoleAuth r) s = .next { s with out := .console [] :: s.out })

/-- R464, R466: console commands of a session that may run them (observer commands with any role, the others as administrator). A command that
the session may not run changes nothing. -/
def Says.ConsoleRows : Prop :=
  ∀ s : State, clocked s = true → s.svc.vbus = true →
    (consoleMay s 0 true = true →
      (∃ l, exec .consoleStatus s = .next { s with out := .console l :: s.out } ∧
        l.take 3 = [waferStage s, s.tray.status.toNat, s.arm.active]) ∧
      (∀ n, ∃ l, exec (.consoleLog n) s = .next { s with out := .console l :: s.out })) ∧
    (consoleMay s 0 false = true →
      (∀ b w, ∃ l, exec (.consoleRing b w) s = .next { s with out := .console l :: s.out }) ∧
      (∀ k d, tfind s.nor.dumps k = some d → s.cab.failed = false →
        exec (.consoleDump k) s = .next { s with out := .ep3 (bytesOf (dumpStream k d)) :: s.out })) ∧
    (consoleMay s 1 false = true →
      (∀ b, exec (.consolePanelPolicy b) s = .next { s with arm := { s.arm with hold10 := b } }) ∧
      (∀ a b, a < 4 → b < 4 → exec (.consoleAlarmPolicy a b) s = .next { s with arm := { s.arm with actions := s.arm.actions.set a b } }) ∧
      (∀ d, s.parts = [] → d.length ≤ 4096 → s.cab.failed = false →
        exec (.consoleBoard d) s = .next { s with nor := { s.nor with boardNext := some d } }) ∧
      (∀ b, ∃ t, exec (.consoleAdminkey b) s = .next t ∧
        t.arm.admin = (match unwrapBlob s 0 b with | some k => some k | none => s.arm.admin)) ∧
      (s.arm.identity = none → ∃ t k, exec (.consoleIdentity none) s = .next t ∧ t.svc.request = some k ∧ k < 2 ^ 256) ∧
      (∀ k cert, s.arm.identity = none → s.svc.request = some k → exec (.consoleIdentity (some cert)) s =
        .next { s with arm := { s.arm with identity := some k }, svc := { s.svc with request := none, cert := cert } }) ∧
      (∀ nk sg, exec (.consoleSvckey nk sg) s = .next (if Config.ecdsaVerify s.arm.svcKey ((List.range 64).map (fun i =>
          BitVec.ofNat 8 ((nk.1 * 2 ^ 256 + nk.2) >>> (8 * (63 - i))))) sg then { s with arm := { s.arm with svcKey := nk } }
        else { s with out := .console [] :: s.out })) ∧
      (∀ m, ∃ t, exec (.consoleAlarmAck m) s = .next t ∧ t.arm.active = (ackAlarm s m.toNat).arm.active)) ∧
    (consoleMay s 1 false = false → ∀ b, exec (.consolePanelPolicy b) s = .next { s with out := .console [] :: s.out })

/-- The service port and its console. -/
def Obligations.ServicePortRows : Prop := Says.ServiceSession ∧ Says.ConsoleRows

/-- R307, R308, R51: a CYCLE asked for: its reason is stored, CYCLE_REQ is set, PWRCYC_REQ_N driven low, and no reset runs or waits on. If the feed
has not fallen 10 s later the line is released and CYCLE_REQ cleared. -/
def Says.CycleRows : Prop :=
  ∀ s : State, clocked s = true →
    (∀ r, s.hang.cycleWant = some r → ∃ t, exec .cycleRequest s = .next t ∧ t.tray.cycleReason = r ∧ t.tray.pwrcycLow = true ∧
      tsBit t tsCycleReq = true ∧ t.hang.cycleReq = true ∧ t.hang.cycleWant = none ∧ t.hang.running = [] ∧ t.hang.requests = []) ∧
    (s.tray.pwrcycLow = true → ∃ t, exec .pwrcycTimeout s = .next t ∧ t.tray.pwrcycLow = false ∧ tsBit t tsCycleReq = false ∧
      t.hang = s.hang)

/-- SMBus writes and power cycles. -/
def Obligations.TrayRows : Prop := Says.SmbusRows ∧ Says.CycleRows

/-! ### The Cabinet -/

/-- R327, R329, R489: a record that reaches the Cabinet while the commit queue holds at most 12 KiB takes the next sequence number and waits last in the queue.
R327, R339: the record at the front is committed to the ring, with the operating time and power-cycle count of the commit; in a sector with room it
leaves every record of the ring where it is. -/
def Says.RecordsArriveAndCommit : Prop :=
  ∀ s : State, clocked s = true →
    (∀ r : RecIn, evDefined r.typ = true → 4 ≤ r.words.length → r.words.length ≤ 1024 → r.tenant < 16 → queueBytes s ≤ 12288 →
      ∃ t x, exec (.recordArrival r) s = .next t ∧ t.cab.queue = s.cab.queue ++ [x] ∧ x.seqNo = s.cab.nextSeq ∧ x.typ = r.typ ∧
        x.body = .words r.words ∧ t.cab.nextSeq = s.cab.nextSeq + 1 ∧ t.nor = s.nor) ∧
    (∀ r rest, s.cab.queue = r :: rest → s.cab.failed = false → s.cab.dropped = 0 → s.nor.offset + recBytes r ≤ sectorBytes s.nor →
      ∃ t x, exec (.recordCommit true) s = .next t ∧ t.cab.queue = rest ∧ t.nor.ring = s.nor.ring ++ [x] ∧ x.seqNo = r.seqNo ∧
        x.typ = r.typ ∧ x.body = r.body ∧ x.opTime = s.cab.opTime ∧ x.cycles = s.cab.cycles ∧ t.cab.nextSeq = s.cab.nextSeq)

/-- R343, R344: the NOR is declared failed: DEGRADED is set, and the fallback store holds EV_NOR_FAIL as its first record. On a retry that succeeds
the NOR is in use again, the fallback store is empty and DEGRADED clear; after three failed attempts it stays failed, and the store as it
is. -/
def Says.NorFailure : Prop :=
  ∀ s : State, clocked s = true →
    (∀ cause addr, s.cab.failed = false → cause < 4 → ∃ t x, exec (.norFail cause addr) s = .next t ∧ t.cab.failed = true ∧
      tsBit t tsDegraded = true ∧ t.cab.store = [x] ∧ x.typ = evNorFail ∧ x.seqNo = s.cab.nextSeq) ∧
    (s.cab.failed = true → ∀ n, 3 ≤ n → ∃ t, exec (.norRetry n) s = .next t ∧ t.cab = s.cab ∧ t.nor = s.nor ∧ t.hutch = s.hutch) ∧
    (s.cab.failed = true → s.cab.store = [] → s.drawer.staging = none → ∀ n, n < 3 → ∃ t, exec (.norRetry n) s = .next t ∧ t.cab.failed = false ∧ t.cab.store = [] ∧
      tsBit t tsDegraded = false ∧ t.nor.base = s.hutch.img ∧ t.nor.journal = [])

/-- R321, R339, R342, R260, R323, R489: the Cabinet's periodic work. A snapshot is written where the NOR works; operating time advances by one
unit of 1/16 s modulo 2^40; at the end of a meter interval the counts start anew, and the record of the past one leaves nothing due; the map
changes of a seam become one journal entry under the next number; a fold of a full journal leaves it empty and its last entry as the base;
deferred records join the queue. -/
def Says.CabinetPeriodic : Prop :=
  ∀ s : State, clocked s = true → s.cab.failed = false →
    exec .snapshotTimer s = .next { s with nor := { s.nor with snap := some (snapshotNow s) } } ∧
    (∃ t, exec .operatingTimeTick s = .next t ∧ t.cab.opTime = (s.cab.opTime + 1) % 2 ^ 40 ∧ t.cab.queue = s.cab.queue ∧
      t.now = s.now ∧ ((s.cab.opTime + 1) % 2 ^ 40 % 57600 = 0 → t.cab.meters = [] ∧ t.cab.meterDue.isSome = true)) ∧
    (s.cab.meterDue.isSome = true → ∃ t, exec .meterIntervalEnd s = .next t ∧ t.cab.meterDue = none ∧ t.cab.meters = s.cab.meters) ∧
    (s.hang.fwUp = true → s.hutch.dirty = true → exec (.journalEntryWrite none) s = .next { s with
      hutch := { s.hutch with dirty := false, journalNo := s.hutch.journalNo + 1 }
      nor := { s.nor with journal := s.nor.journal ++ [(s.hutch.journalNo + 1, s.hutch.img)] } }) ∧
    (∀ e, s.nor.journal.getLast? = some e → foldEntries ≤ s.nor.journal.length →
      ∃ t, exec (.journalFold none) s = .next t ∧ t.nor = { s.nor with base := e.2, journal := [] }) ∧
    (∀ r, s.cab.deferred = [r] → queueBytes s < 6144 → ∃ t, exec .deferredRecordsResume s = .next t ∧ t.cab.deferred = [] ∧
      t.cab.queue = s.cab.queue ++ [{ r with seqNo := s.cab.nextSeq }])

/-- Records, snapshots, journal, meters. -/
def Obligations.CabinetRows : Prop := Says.RecordsArriveAndCommit ∧ Says.CabinetPeriodic

/-- R338, R335: a background erase takes the records of one fully cleared sector out of the ring, and no other. -/
def Says.SectorReclaimed : Prop :=
  ∀ (s : State) (k : Nat), clocked s = true → s.cab.reclaim = true → s.cab.failed = false → reclaimable s = some k →
    (∀ u ∈ sectorUnits s.nor k, tget s.hutch.img.erases 0 u + 1 < 100000) →
    ∃ t, exec .sectorReclaim s = .next t ∧ t.nor.ring = s.nor.ring.filter (fun r => r.sector != k) ∧ t.cab.failed = false

/-- NOR failure and retry, and the background erase. -/
def Obligations.NorRows : Prop := Says.NorFailure ∧ Says.SectorReclaimed

/-- R334: LOG_OPEN replaces the tenant's cursor, with START 0 at the oldest record visible to the tenant, with 1 at the newest, with 2 at the
first at or above the number given, and returns the record's sequence number, the oldest visible one's and the number of records from it
on. R337: LOG_CLEAR marks every committed record up to the number given as cleared. R316: DUMP_FETCH of a dump of the tenant returns its
bytes from the offset on, and marks it read when the last byte has been sent. -/
def Obligations.LogCommands : Prop :=
  ∀ (s : State) (q e : Nat) (c : Cmd), s.cab.failed = false →
    (∀ r old vis, runCmd s q e opLogOpen = some c → reservedOk c [(3, 0x103), (4, 0xFFFFFFFF), (5, 0xFFFFFFFF)] = true →
      c.f 3 0 2 ≠ 3 → visibleRecs s c.tenant = old :: vis →
      (if c.f 3 0 2 = 0 then (visibleRecs s c.tenant).head? else if c.f 3 0 2 = 1 then (visibleRecs s c.tenant).getLast?
        else (visibleRecs s c.tenant).find? (fun r => decide (c.w 4 + c.w 5 * 2 ^ 32 ≤ r.seqNo))) = some r →
      ∃ t u, exec (.logOpen q e) s = .next t ∧
        cursorOf t c.tenant = { opened := true, atEnd := false, follow := c.b 3 8, seqNo := r.seqNo } ∧
        t = complete u c stOk (w64 r.seqNo ++ [w32 old.seqNo,
          w32 ((committed s).filter (fun x => decide (r.seqNo ≤ x.seqNo))).length])) ∧
    (runCmd s q e opLogClear = some c → reservedOk c [(3, 0xFFFFFFFF), (4, 0xFFFFFFFF)] = true → s.cab.reclaim = false →
      ∀ x, (committed s).getLast? = some x → ∃ t, exec (.logClear q e) s = .next t ∧
        t.nor.ring = s.nor.ring.map (fun r =>
          if r.seqNo ≤ min (c.w 3 + c.w 4 * 2 ^ 32) x.seqNo then { r with cleared := true } else r)) ∧
    (∀ d, runCmd s q e opDumpFetch = some c → outDescOk c = true →
      reservedOk c [(3, 3), (4, 0xFFFFFFFF), (11, 0xFFFFFFFF), (12, 0xFFFFFFFF), (13, 0xFFFFFFFF)] = true →
      tfind s.nor.dumps (c.f 3 0 2) = some d → (d.tenant = c.tenant ∨ (c.tenant = 0 ∧ c.priv = true)) →
      ∀ size sent, size = 4 * (dumpStream (c.f 3 0 2) d).length → c.w 4 ≤ size → sent = min (size - c.w 4) (outLen c) →
      ∃ t u, exec (.dumpFetch q e) s = .next t ∧
        t = completeBulk u c stOk [w32 sent, w32 size, w32 d.tenant]
          (wordsOfBytes ((bytesOf (dumpStream (c.f 3 0 2) d)).drop (c.w 4))) ∧
        tfind t.nor.dumps (c.f 3 0 2) = some (if size ≤ c.w 4 + sent then { d with readEnd := true } else d))

/-! ### The Sideboard -/

/-- R182, R184, R198: DIGEST_DEFINE of a token chain is defined at once and completes with the value 0; of a shard whose rows make up whole
tiles it goes on in the background, and completes with the digest when the covered rows have been read (R180, R188); a digest that is not
the golden marks the context CHANGED (R187). -/
def Says.DigestDefined : Prop :=
  ∀ (s : State) (q e : Nat) (c : Cmd) (y : Part) (a : Nat), partOf s c.part = some y → a = c.f 4 0 24 →
    (∀ masks, runCmd s q e opDigestDefine = some c →
      reservedOk c [(3, 0x7FFFF), (4, 0xFFFFFF), (5, 0xFFFFFFFF), (6, 0xFFFFFF)] = true → y.prog.isSome = true → logicalOk a = true →
      partHas y (taField a) = true → tileIndex a < fieldTiles (fieldOf s (taField a)) →
      fitsGroup s y.tenant (c.f 3 0 17) (c.f 3 17 2) (c.w 5) (c.f 6 0 16) (c.f 6 16 8) = true →
      noRoom s y.tenant (c.f 3 0 17) (c.f 3 17 2) (c.f 6 0 16) = false →
      (c.f 3 17 2 = 1 → 4 ≤ c.w 5 → c.w 5 ≤ 8192 → c.w 5 % 4 = 0 →
        ∃ t u k, exec (.digestDefine q e masks) s = .next t ∧ t = complete u c stOk (w64 0) ∧
          findContext t y.tenant (c.f 3 0 17) = some k ∧ k.kind = 1 ∧ k.ready = true ∧ k.first = a ∧ k.length = c.w 5 ∧
          k.group = c.f 6 0 16 ∧ k.replica = c.f 6 16 8) ∧
      (∀ ms, c.f 3 17 2 = 0 → c.w 5 % 64 = 0 →
        shardMasks (masks.take (fieldTiles (fieldOf s (taField a)) - tileIndex a)) (c.w 5 / 64) = some ms →
        ∃ t k d, exec (.digestDefine q e masks) s = .next t ∧ findContext t y.tenant (c.f 3 0 17) = some k ∧ k.kind = 0 ∧
          k.ready = false ∧ k.first = a ∧ k.masks = ms ∧ findCmd t q e = some d ∧ d.phase = .background ∧ t.out = s.out)) ∧
    (∀ k tiles, findCmd s q e = some c → c.phase = .background → c.opcode = opDigestDefine →
      clocked s = true → executes s opDigestDefine = true →
      findContext s y.tenant (c.f 3 0 17) = some k → tiles.map (·.length) = k.masks.map (fun m => 16 * (maskRows m).length) →
      ∃ t u k', exec (.digestDefineReadDone q e tiles) s = .next t ∧
        t = complete u c stOk (w64 (sumParts (tileParts weightKey 0 tiles))) ∧ findContext t y.tenant (c.f 3 0 17) = some k' ∧
        k'.ready = true ∧ k'.digest = sumParts (tileParts weightKey 0 tiles) ∧ k'.defined = k'.digest ∧
        (k'.changed = true ↔ ∃ g, goldenOf s k.tenant k.group = some g ∧ g.digest ≠ k'.digest))

/-- R190: DIGEST_COMPARE sets the interval (0 means 64) and, without NOW, answers with the digest and the counts of the last comparison;
with NOW it waits for one; while its context is re-verified it answers ST_DEGRADED. R196, R197: EXPEL of one of at least three replicas in
view expels it where it is this wafer's, takes it out of the view where it is another's, and answers with those left. -/
def Says.DigestAnswers : Prop :=
  ∀ (s : State) (q e : Nat) (c : Cmd) (y : Part) (k : Context), partOf s c.part = some y →
    (runCmd s q e opDigestCompare = some c → reservedOk c [(3, 0x1FFFF), (4, 0x8000FFFF)] = true →
      findContext s y.tenant (c.f 3 0 17) = some k → k.ready = true → k.part = c.part → k.expelled = false →
      (groupContexts s k.tenant k.group).any (·.reverify) = false →
      ∃ t k', exec (.digestCompare q e) s = .next t ∧ findContext t y.tenant (c.f 3 0 17) = some k' ∧
        k'.interval = (if c.f 4 0 16 = 0 then 64 else c.f 4 0 16) ∧
        (c.b 4 31 = false → k'.nowCmd = k.nowCmd ∧ ∃ u, t = complete u c stOk (w64 k.digest ++ [w32 k.agree, w32 k.disagree])) ∧
        (c.b 4 31 = true → k'.nowCmd = k.nowCmd ++ [(q, e)] ∧ k'.nowAt = seamsReached s k.field + 1 ∧ t.out = s.out)) ∧
    (runCmd s q e opDigestCompare = some c → reservedOk c [(3, 0x1FFFF), (4, 0x8000FFFF)] = true →
      findContext s y.tenant (c.f 3 0 17) = some k → k.ready = true → k.part = c.part → k.reverify = true →
      ∃ t u, exec (.digestCompare q e) s = .next t ∧ t = complete u c stDegraded (w64 k.digest ++ [w32 k.agree, w32 k.disagree])) ∧
    (runCmd s q e opExpel = some c → reservedOk c [(3, 0xFFFF), (4, 0xFF)] = true →
      (viewOf s y.tenant (c.f 3 0 16)).contains (c.f 4 0 8) = true → 3 ≤ (viewOf s y.tenant (c.f 3 0 16)).length →
      ∃ t u, exec (.expel q e) s = .next t ∧ t = complete u c stOk [w32 ((viewOf s y.tenant (c.f 3 0 16)).length - 1)] ∧
        ∀ own, own = (groupContexts s y.tenant (c.f 3 0 16)).find? (fun k => k.replica == c.f 4 0 8 && !k.expelled) →
          (∀ d, own = some d → ∃ d', findContext t y.tenant d.num = some d' ∧ d'.expelled = true) ∧
          (own = none → (viewOf t y.tenant (c.f 3 0 16)).contains (c.f 4 0 8) = false))

/-- DIGEST_DEFINE, DIGEST_COMPARE and EXPEL. -/
def Obligations.DigestCommands : Prop := Says.DigestDefined ∧ Says.DigestAnswers

/-- The report of an exchange record (Table 7.1). -/
def reportOf (x : Exchange) : Report :=
  { replica := bitsOf (cw x.words 1) 0 8, interval := cw x.words 2, digest := cw x.words 3 + (cw x.words 4 % 2 ^ 29) * 2 ^ 32,
    changed := bitAt (cw x.words 1) 9, tokens := bitsOf (cw x.words 5) 0 24, remote := true }

/-- R191, R195: an exchange record whose CRC is wrong is dropped and counted, one that no context here belongs to, or of no known type, is
discarded and counted; a report is heard by every context of its job, group and kind that is not expelled, and the result of a
re-verification is kept by each of them. -/
def Says.ExchangeRecords : Prop :=
  ∀ (s : State) (x : Exchange), x.words.length = 8 → x.port < 64 → clocked s = true →
    ∀ mine : Context → Bool,
    mine = (fun k : Context => k.group == bitsOf (cw x.words 0) 16 16 && k.kind == bitsOf (cw x.words 1) 8 1 && !k.expelled &&
      (match (partOf s k.part).bind (·.tree) with | some t => t.job == bitsOf (cw x.words 0) 0 16 | none => false)) →
    (crc32c (bytesOf (x.words.take 6)) ≠ cw x.words 6 → exec (.exchangeRecordReceive x) s =
      .next { s with side := { s.side with crcBad := s.side.crcBad + 1 } }) ∧
    (crc32c (bytesOf (x.words.take 6)) = cw x.words 6 → s.side.contexts.any mine = false → exec (.exchangeRecordReceive x) s =
      .next { s with side := { s.side with discards := s.side.discards + 1 } }) ∧
    (crc32c (bytesOf (x.words.take 6)) = cw x.words 6 → s.side.contexts.any mine = true → bitsOf (cw x.words 1) 10 2 = 0 →
      exec (.exchangeRecordReceive x) s = .next { s with side := { s.side with
        contexts := s.side.contexts.map (fun k => if mine k then hear (reportOf x) k else k) } }) ∧
    (crc32c (bytesOf (x.words.take 6)) = cw x.words 6 → 2 ≤ bitsOf (cw x.words 1) 10 2 → exec (.exchangeRecordReceive x) s =
      .next { s with side := { s.side with discards := s.side.discards + 1 } }) ∧
    (crc32c (bytesOf (x.words.take 6)) = cw x.words 6 → s.side.contexts.any mine = true → bitsOf (cw x.words 1) 10 2 = 1 →
      exec (.exchangeRecordReceive x) s = .next { s with side := { s.side with
        contexts := s.side.contexts.map (fun k => if mine k && !k.gone.contains (bitsOf (cw x.words 1) 0 8) then
          { k with matches_ := k.matches_.filter (fun m => m.1 != bitsOf (cw x.words 1) 0 8) ++
              [(bitsOf (cw x.words 1) 0 8, cw x.words 2, bitAt (cw x.words 1) 12)] } else k) } })

/-- R190, R193: at an interval boundary a context reports and opens a comparison; while its last report has not been sent the boundary is skipped
and counted. R192: a comparison in which every known replica has reported closes. R188: a scrub pass that finds the defined digest of an unwritten shard
keeps it, and one that finds another marks it changed. R195: a re-verification in which all match counts a transient and lifts the suspension. -/
def Says.SideboardEvents : Prop :=
  ∀ (s : State) (tn ctx : Nat) (k : Context), clocked s = true → findContext s tn ctx = some k →
    (k.ready = true → k.expelled = false → k.reverify = false → fieldLoaded s k.field = true → (fieldOf s k.field).warden = .up →
      boundaryDue s k = true → ∀ n, n = seamsReached s k.field →
      (s.now < k.sentAt → exec (.digestIntervalBoundary tn ctx) s =
        .next (putContext { s with side := { s.side with skipped := s.side.skipped + 1 } } { k with seams := n })) ∧
      (k.sentAt ≤ s.now → ∃ t k', exec (.digestIntervalBoundary tn ctx) s = .next t ∧ findContext t tn ctx = some k' ∧
        k'.intervalNo = n / max 1 k.interval ∧ k'.seams = n ∧ k'.opens.any (fun o => o.interval == n / max 1 k.interval) = true ∧
        t.side.skipped = s.side.skipped)) ∧
    (∀ o, k.opens = [o] → (∀ e ∈ k.known, (heardFor k o.interval).contains e.1 = true) →
      ∃ t k', exec (.comparisonClose tn ctx) s = .next t ∧ findContext t tn ctx = some k' ∧ k'.opens = []) ∧
    (∀ parts, k.kind = 0 → k.ready = true → (fieldOf s k.field).warden = .up → passMayEnd s k = true → k.written = false → parts.length = k.masks.length → sumParts parts = k.defined →
      ∃ t k', exec (.scrubPassDone tn ctx parts) s = .next t ∧ findContext t tn ctx = some k' ∧ k'.digest = k.defined ∧
        k'.changed = k.changed ∧ t.cab = s.cab) ∧
    (∀ parts, k.kind = 0 → k.ready = true → (fieldOf s k.field).warden = .up → passMayEnd s k = true → parts.length = k.masks.length →
      sumParts parts ≠ k.defined → ∃ t k', exec (.scrubPassDone tn ctx parts) s = .next t ∧ findContext t tn ctx = some k' ∧
        k'.digest = sumParts parts ∧ k'.changed = true) ∧
    (∀ g fresh, k.reverify = true → groupContexts s tn k.group = [k] → goldenOf s tn k.group = some g → resultsHeard k = [] →
      fresh = [(k.num, g.digest)] →
      ∃ t k', exec (.reverifyDone tn k.group fresh) s = .next t ∧ findContext t tn ctx = some k' ∧ k'.reverify = false ∧
        t.side.transients = s.side.transients + 1)

/-- Exchange records and the Sideboard. -/
def Obligations.ExchangeAndSideboard : Prop := Says.ExchangeRecords ∧ Says.SideboardEvents

/-! ### Resets, hangs, watchdogs -/

/-- R96, R292: RESET at levels QUEUE to WAFER asks for the reset of its target domain, cause 0x00, and goes on in the background; at level
CYCLE it is accepted, and a CYCLE with reason 0x01 is wanted. -/
def Says.ResetCommand : Prop :=
  ∀ (s : State) (q e : Nat) (c : Cmd), runCmd s q e opReset = some c → reservedOk c [(3, 7), (4, resetMask (c.f 3 0 3))] = true →
    (c.f 3 0 3 ≤ 3 → (c.f 3 0 3 = 1 → c.f 4 0 7 < 84) → (c.f 3 0 3 = 2 → (partOf s c.part).isSome = true) →
      ∃ t d, exec (.reset q e) s = .next t ∧
        t.hang.requests = s.hang.requests ++ [{ level := c.f 3 0 3, dom := c.dom, cause := 0, cmd := some (q, e) }] ∧
        findCmd t q e = some d ∧ d.phase = .background ∧ t.out = s.out ∧ t.hang.gens = s.hang.gens) ∧
    (c.f 3 0 3 = 4 → noNotification s c = false → s.tray.pwrcycLow = false → s.hang.cycleWant = none →
      ∃ t o, exec (.reset q e) s = .next t ∧ t.hang = { s.hang with cycleWant := some 1 } ∧ o ∈ t.fe.ops ∧
        o.handle = s.fe.nextHandle ∧ o.q = c.q ∧ o.e = c.e ∧ o.final = none)

/-- R286, R288, R293: the oldest request that no running reset covers starts: the generation of every domain of its level advances by one, as
often as the level names it, and no other; a reset of its domain runs. R295: when the wardens have acknowledged, no reset of the domain runs
any more. R292: a reset that takes too long is raised by one level, a WAFER reset to CYCLE. -/
def Says.ResetSequence : Prop :=
  (∀ (s : State) (r : ResetRun), clocked s = true → nextReset s = some r →
    ∃ t, exec .resetStart s = .next t ∧
      (∀ d, genOf t d = genOf s d + BitVec.ofNat 6 ((levelDomains s r.level r.dom).count d)) ∧
      ∃ k ∈ t.hang.running, k.dom = r.dom ∧ k.level = r.level ∧ k.cause = r.cause) ∧
  (∀ (s : State) (r : ResetRun) (d micros : Nat), clocked s = true → s.hang.running.find? (fun k => k.dom == d) = some r →
    ∃ t, exec (.resetComplete d micros) s = .next t ∧ (∀ k ∈ t.hang.running, k.dom ≠ d) ∧ t.hang.gens = s.hang.gens) ∧
  (∀ (s : State) (r : ResetRun) (d : Nat), clocked s = true →
    s.hang.running.find? (fun k => k.dom == d && k.level != 0 && decide (k.started + resetLimitNs k.level < s.now)) = some r →
    (r.level = 1 → ∀ p, partNo s (r.dom - 144) = some p →
      exec (.resetEscalate d) s = .next (requestReset s 2 (domPart p) 6 true none)) ∧
    (r.level = 1 → partNo s (r.dom - 144) = none → exec (.resetEscalate d) s = .next (requestReset s 3 domWafer 6 true none)) ∧
    (r.level = 2 → exec (.resetEscalate d) s = .next (requestReset s 3 domWafer 6 true none)) ∧
    (r.level = 3 → s.tray.pwrcycLow = false → s.hang.cycleWant = none →
      exec (.resetEscalate d) s = .next { s with hang := { s.hang with cycleWant := some 2 } }))

/-- RESET and the reset sequence. -/
def Obligations.Resets : Prop := Says.ResetCommand ∧ Says.ResetSequence

/-- R286, Table 11.1: a reset advances by one, modulo 64, the generation of its own domain and of every domain it contains (a queue or a field
itself; a partition and each of its fields; at level WAFER every domain), and no other. A hub restart advances every counter once and
touches no compute. CYCLE advances none, and every counter is 0 after the next power-on. -/
def Obligations.GenerationsAdvance : Prop :=
  (∀ (s : State) (r : ResetRun), clocked s = true → nextReset s = some r →
    ∃ t, exec .resetStart s = .next t ∧
      (r.level ≤ 1 → ∀ d, genOf t d = genOf s d + (if d = r.dom then 1 else 0)) ∧
      (∀ p, r.level = 2 → p < 16 → r.dom = 128 + p → ∀ d, genOf t d =
        genOf s d + (if d = 128 + p ∨ ∃ f ∈ fieldsOfPart s p, d = 144 + f then 1 else 0)) ∧
      (r.level = 3 → ∀ d, genOf t d = genOf s d + (if d < 229 then 1 else 0))) ∧
  (∀ s : State, mayRestart s = true → ∃ t, exec .hubRestart s = .next t ∧
    (∀ d, genOf t d = genOf s d + (if d < 229 then 1 else 0)) ∧ t.tiles = s.tiles ∧ t.groups = s.groups ∧ t.hutch = s.hutch) ∧
  (∀ s t : State, exec .cycleRequest s = .next t → ∀ d, genOf t d = genOf s d) ∧
  (∀ s : State, s.feed = true → ∃ t, exec .hubFeedLoss s = .next t ∧ ∀ d, genOf t d = 0) ∧
  ∀ d, genOf State.reset d = 0

/-- R287, R289: a message with a stale generation is dropped and counted by domain; the timer writes the count and starts it anew. R314, R315:
the staged dump is written, encrypted under its owner's key, to a slot; without a key it is given up. -/
def Obligations.StaleAndDumps : Prop :=
  ∀ s : State, clocked s = true →
    (∀ d g, d < 229 → g ≠ genOf s d → ∃ t, exec (.staleMessageDrop d g) s = .next t ∧
      (tget t.hang.stale (0, g, s.now) d).1 = (tget s.hang.stale (0, g, s.now) d).1 + 1 ∧ t.hang.gens = s.hang.gens) ∧
    (∀ d x, tfind s.hang.stale d = some x → ∃ t, exec (.staleRecordTimer d) s = .next t ∧ tfind t.hang.stale d = none ∧
      (∀ k, k ≠ d → tfind t.hang.stale k = tfind s.hang.stale k)) ∧
    (∀ d, s.drawer.staging = some d → stagedDue s = true → s.cab.failed = false →
      (∀ key, dumpKey s d.tenant = some key → ∃ t x, exec (.dumpWriteDone none) s = .next t ∧ t.drawer.staging = none ∧
        tfind t.nor.dumps (dumpSlot s) = some x ∧ x.tenant = d.tenant ∧ x.readEnd = d.readEnd ∧ x.plain = [] ∧
        x.cipher = (Config.aesGcm (hkdf (serialBytes s) key []) d.nonce
          (dumpHeader (dumpSlot s) { d with cipher := List.replicate d.plain.length 0, tag := [], plain := [] }) d.plain).1) ∧
      (dumpKey s d.tenant = none → ∃ t, exec (.dumpWriteDone none) s = .next t ∧ t.drawer.staging = none ∧ t.nor = s.nor))

/-- R297 to R300, R235, R238: hang sources. A seam overrun or a deadlock of a field with a program loses its step, with cause 0x01 or 0x02; a
deadlock without one asks for a FIELD reset. A wait past its limit asks for a PART reset with cause 0x05. A command slot with a parity error
is retired. Resends up to 32 a day only count; with more, a link that is not in use twice switches to its redundant link where no program
runs. -/
def Obligations.HangSources : Prop :=
  ∀ (s : State) (f : Nat), f < 84 → clocked s = true → (fieldOf s f).warden = .up →
    (∀ m n, (fieldOf s f).run = .running → seamAt s f = some m → (fieldOf s f).count ≤ n →
      m.pos + m.margin + s.hang.grace * (fieldOf s f).clock < n →
      ∃ t, exec (.seamOverrun f n) s = .next t ∧ (fieldOf t f).lostCause = some 1 ∧ (fieldOf t f).count = n) ∧
    (fieldLoaded s f = true → ∃ t, exec (.deadlock f) s = .next t ∧ (fieldOf t f).lostCause = some 2) ∧
    (fieldLoaded s f = false → domInReset s (domField f) = false → resetAwaited s (domField f) = false →
      ∃ t, exec (.deadlock f) s = .next t ∧
        t.hang.requests = s.hang.requests ++ [{ level := 1, dom := domField f, cause := 2 }]) ∧
    (∀ p y, fieldPart s f = some (p, y) → (fieldOf s f).run = .held →
      ((fieldOf s f).waitBarrier = true ∨ crossWaits s f = true) →
      waitStart (fieldOf s f) + waitLimitNs y < s.now → exec (.barrierWaitLimit f) s = .next (autoReset s 2 (domPart p) 5)) ∧
    (∀ k, k < 40 → s.hutch.img.badSlots.contains (f, k) = false → ∃ t, exec (.wardenSlotParity f k) s = .next t ∧
      t.hutch.img.badSlots = s.hutch.img.badSlots ++ [(f, k)]) ∧
    (∀ a k n seen, physicalOk a = true → taField a = f → k < 4 → (facing f (taPlace a) k).isSome = true →
      linkDead s f (taPlace a) k = false → seen = resendsNow s f (4 * taPlace a + k) ++ [(s.cab.opTime, n)] →
      ((seen.map (·.2)).sum ≤ 32 → exec (.linkResendThreshold a k n) s =
        .next (modField s f (fun x => { x with resends := tset x.resends (4 * taPlace a + k) seen }))) ∧
      (32 < (seen.map (·.2)).sum → linkUsed s f (taPlace a) k = false →
        (∀ g ∈ (linkEnds f (taPlace a) k).map (·.1), fieldLoaded s g = false) →
        ∃ t, exec (.linkResendThreshold a k n) s = .next t ∧ t.hutch = (markLink s f (taPlace a) k).hutch))

/-- R270, R301 to R303: a heartbeat renews the warden's time and clears its misses; a miss is counted, and the fourth in a row resets the warden and,
with an even one, its odd partner; a restart that is done brings it up, an odd one only beside its even partner; a failed restart is counted and
repeated, and the third asks for CYCLE with reason 0x04. -/
def Obligations.WardenRows : Prop :=
  ∀ (s : State) (f : Nat), f < 84 → clocked s = true →
    ((fieldOf s f).warden = .up → exec (.wardenHeartbeat f) s =
      .next (setField s f { fieldOf s f with wardenTs := s.now, beats := 0 })) ∧
    ((fieldOf s f).warden = .up → s.hang.fwUp = true → (fieldOf s f).beats < 3 → exec (.wardenHeartbeatMiss f) s =
      .next (setField s f { fieldOf s f with beats := (fieldOf s f).beats + 1 })) ∧
    ((fieldOf s f).warden = .up → s.hang.fwUp = true → 3 ≤ (fieldOf s f).beats →
      ∃ t, exec (.wardenHeartbeatMiss f) s = .next t ∧ (fieldOf t f).warden = .inReset ∧
        (∀ g ∈ wardenPair f, (fieldOf s g).warden ≠ .off → (fieldOf t g).warden = .inReset) ∧
        ((wardenPair f).filter (groupRuns s) = [] → ∀ g, g ∉ wardenPair f → fieldOf t g = fieldOf s g)) ∧
    ((fieldOf s f).warden = .inReset → s.hang.fwUp = true → partnerOn s f = true →
      ∃ t, exec (.wardenRestartDone f) s = .next t ∧ (fieldOf t f).warden = .up ∧ (fieldOf t f).wardenTs = s.now ∧
        (fieldOf t f).starts = 0 ∧ ∀ g, g ≠ f → fieldOf t g = fieldOf s g) ∧
    ((fieldOf s f).warden = .inReset → s.hang.fwUp = true →
      ((fieldOf s f).starts < 2 → ∃ t, exec (.wardenRestartTimeout f) s = .next t ∧ (fieldOf t f).starts = (fieldOf s f).starts + 1 ∧
        (fieldOf t f).warden = .inReset) ∧
      (2 ≤ (fieldOf s f).starts → s.tray.pwrcycLow = false → s.hang.cycleWant = none →
        ∃ t, exec (.wardenRestartTimeout f) s = .next t ∧ t.hang.cycleWant = some 4 ∧ (fieldOf t f).starts = 3))

/-- R304 to R306, R66: the hub watchdog. A fire sets HANG and takes hub firmware down; the second asks for a WAFER reset with cause 0x07, the third for
CYCLE with reason 0x03. The hub restart advances the generation of every domain by one. A heartbeat after it closes the window. Loss of the
reference sets REFLOSS; a fire without the reference holds hub firmware in reset and is not counted. -/
def Says.HubWatchdog : Prop :=
  ∀ s : State, s.feed = true →
    (s.boot.s1 = true → s.arb.hubOff = false → s.hang.refOk = true →
      ∃ t, exec .hubWatchdogFire s = .next t ∧ tsBit t tsHang = true ∧ t.hang.fwUp = false ∧ t.hang.windowOpen = true ∧
        t.hang.fires = min 255 (s.hang.fires + 1) ∧
        (s.hang.fires ≠ 1 → t.hang.requests = s.hang.requests) ∧
        (s.hang.fires = 1 → domInReset s domWafer = false → resetAwaited s domWafer = false →
          t.hang.requests = s.hang.requests ++ [{ level := 3, dom := domWafer, cause := 7 }]) ∧
        (s.hang.fires = 2 → s.tray.pwrcycLow = false → s.hang.cycleWant = none → t.hang.cycleWant = some 3)) ∧
    (s.boot.s1 = true → s.arb.hubOff = false → s.hang.refOk = false → s.hang.heldRef = false →
      ∃ t, exec .hubWatchdogFire s = .next t ∧ tsBit t tsHang = true ∧ t.hang.fwUp = false ∧ t.hang.heldRef = true ∧
        t.hang.fires = s.hang.fires ∧ t.hang.requests = s.hang.requests) ∧
    (mayRestart s = true → ∃ t, exec .hubRestart s = .next t ∧ t.hang.fwUp = true ∧ t.hang.restarted = true ∧
      ∀ d, d < 229 → genOf t d = genOf s d + 1) ∧
    (s.hang.fwUp = true → s.hang.refOk = true → ∃ t, exec .hubHeartbeatToggle s = .next t ∧
      t.hang.hbCount = (s.hang.hbCount + 1) % 65536 ∧ t.hang.hbAt = some s.now ∧
      (s.hang.windowOpen = true → s.hang.restarted = true → t.hang.windowOpen = false)) ∧
    (s.hang.fwUp = true → s.hang.refOk = true → s.hang.windowOpen = false →
      exec .watchdogCountClear s = .next { s with hang := { s.hang with fires := 0 } }) ∧
    (s.hang.refOk = true → ∃ t, exec .refClockLoss s = .next t ∧ tsBit t tsRefloss = true ∧ t.hang.refOk = false ∧
      t.hang.fwUp = false ∧ t.tray.smbDead = true) ∧
    (s.hang.refOk = false → ∃ t, exec .refClockRestore s = .next t ∧ t.hang.refOk = true ∧ t.tray.smbDead = false ∧
      t.tray.status = s.tray.status)

/-- R298, R310: HEARTBEAT_CFG sets host-loss detection, its timeout and action and the seam grace, and returns the word last set. A loss
is noted once, and with action 1 starts a quiesce. R309: a quiesce is complete when every field is quiet; QUIESCED is set. -/
def Says.HostLossAndQuiesce : Prop :=
  (∀ (s : State) (q e : Nat) (c : Cmd), runCmd s q e opHeartbeatCfg = some c →
    reservedOk c [(3, 0xFFFF0001), (4, 7), (5, 0xFF)] = true → c.f 4 0 3 ≤ 1 →
    (c.b 3 0 = true → 100 ≤ c.f 3 16 16 ∧ c.f 3 16 16 ≤ 60000) →
    exec (.heartbeatCfg q e) s = .next (complete { s with hang := { s.hang with
      lossOn := c.b 3 0, lossTimeout := c.f 3 16 16, lossAction := c.f 4 0 3, grace := c.f 5 0 8, hbCfg := c.words.getD 3 0 } }
      c stOk [s.hang.hbCfg])) ∧
  (∀ s : State, clocked s = true → s.hang.fwUp = true →
    (s.hang.lossOn = true → s.hang.hostLost = false → ∃ t, exec .hostLoss s = .next t ∧ t.hang.hostLost = true ∧
      (s.hang.lossAction ≠ 1 → t.hang.quiesce = s.hang.quiesce) ∧
      (s.hang.lossAction = 1 → s.hang.quiesce = 0 → t.hang.quiesce = 1)) ∧
    (s.hang.quiesce = 1 → tenantsDone s = true → (∀ f, f < 84 → quietField s f = true) → ∃ t, exec .quiesceComplete s = .next t ∧
      t.hang.quiesce = 2 ∧ tsBit t tsQuiesced = true))

/-- Hub watchdog, host loss and quiesce. -/
def Obligations.WatchdogAndHostLoss : Prop := Says.HubWatchdog ∧ Says.HostLossAndQuiesce

/-! ### Security -/

/-- R457: TENANT_SCRUB of partitions of the tenant without a program, or of the fields of no partition that the tenant has used, is
accepted under a new handle, and the tenant's contexts on them are freed. R456, R458: with it done, no field it covered
bears a mark and no golden digest or dump of the tenant is left. R454: KEY_LOAD installs the unwrapped key, or erases the slot. R462: ALARM_ACK
clears the named sources that may be cleared. -/
def Obligations.SecurityCommands : Prop :=
  ∀ (s : State) (q e : Nat) (c : Cmd),
    (runCmd s q e opTenantScrub = some c → reservedOk c [(3, 0xF), (4, 0xFFFF)] = true → noNotification s c = false →
      (c.f 4 0 16 ≠ 0 ∨ scrubFields s (c.f 3 0 4) (c.f 4 0 16) ≠ []) →
      (∀ p, p < 16 → bitAt (c.f 4 0 16) p = true → ∃ y, partOf s p = some y ∧ y.tenant = c.f 3 0 4 ∧ y.prog = none) →
      ∃ t o, exec (.tenantScrub q e) s = .next t ∧ o ∈ t.fe.ops ∧ o.handle = s.fe.nextHandle ∧ o.opcode = opTenantScrub ∧
        o.q = c.q ∧ o.e = c.e ∧ t.fe.nextHandle = s.fe.nextHandle + 1 ∧
        (∀ k ∈ t.side.contexts, ¬(k.tenant = c.f 3 0 4 ∧ k.field ∈ scrubFields s (c.f 3 0 4) (c.f 4 0 16)))) ∧
    (∀ o ms, s.fe.ops.find? (fun x => x.handle == o.handle && x.opcode == opTenantScrub && x.final.isNone) = some o →
      clocked s = true → s.hang.fwUp = true → s.cab.failed = false →
      ∃ t, exec (.scrubComplete o.handle [] ms) s = .next t ∧ (∀ f ∈ o.args.drop 4, tget t.cab.marks 0 f = 0) ∧
        (∀ g ∈ t.nor.golden, g.tenant ≠ o.args.getD 0 0) ∧ (∀ d ∈ t.nor.dumps, d.2.tenant ≠ o.args.getD 0 0) ∧
        (∀ x ∈ t.fe.ops, x.handle = o.handle → x.final.isSome = true)) ∧
    (runCmd s q e opKeyLoad = some c → reservedOk c [(3, 0x10F), (4, 0xFFFFFFFF), (5, 0xFFFFFFFF), (6, 0xFFFFFFFF)] = true →
      c.f 3 0 4 ≠ 0 →
      (∀ blob, c.b 3 8 = true → ∃ t u, exec (.keyLoad q e blob) s = .next t ∧ t = complete u c stOk [0] ∧
        tfind t.arm.tenantKeys (c.f 3 0 4) = none) ∧
      (∀ blob, c.b 3 8 = false → c.w 6 = 112 → ∃ t u, exec (.keyLoad q e blob) s = .next t ∧
        tfind t.arm.tenantKeys (c.f 3 0 4) = (match unwrapBlob s (c.f 3 0 4) blob with
          | some k => some k | none => tfind s.arm.tenantKeys (c.f 3 0 4)) ∧
        t = (match unwrapBlob s (c.f 3 0 4) blob with | some _ => complete u c stOk [1] | none => complete s c stBadParam []))) ∧
    (runCmd s q e opAlarmAck = some c → reservedOk c [(3, 0xFF)] = true →
      ∃ t u, exec (.alarmAck q e) s = .next t ∧ t = complete u c stOk [w32 t.arm.active] ∧
        (ackMask s (c.f 3 0 8) = 0 → t.arm = s.arm) ∧
        (ackMask s (c.f 3 0 8) ≠ 0 → t.arm.active = s.arm.active &&& (255 - ackMask s (c.f 3 0 8)) ∧
          t.arm.locked = s.arm.locked &&& (255 - ackMask s (c.f 3 0 8))))

/-! ### Counters, timing lanes, the tree, the start barrier -/

/-- R423: COUNTER_LATCH of fields that run a program and are not frozen waits for their next seam; when all have latched, the output goes to host
memory and the command completes with the latch time and the length. R420: TRACE_CFG. R413: a compute command whose first seam is to come
waits for it. -/
def Says.CounterCommands : Prop :=
  ∀ (s : State) (q e : Nat) (c : Cmd) (y : Part), partOf s c.part = some y →
    (runCmd s q e opCounterLatch = some c →
      (∀ f ∈ latchFields s c, fieldLoaded s f = true ∧ (fieldOf s f).frozen = none) →
      reservedOk c [(3, 0x7F01), (11, 0xFFFFFFFF), (12, 0xFFFFFFFF), (13, 0xFFFFFFFF)] = true → outDescOk c = true →
      (latchFields s c).all (partHas y) = true →
      ∃ t d, exec (.counterLatch q e) s = .next t ∧ findCmd t q e = some d ∧ d.phase = .background ∧
        ∀ f ∈ latchFields s c, (fieldOf t f).latchWait = (fieldOf s f).latchWait ++ [(q, e)]) ∧
    (clocked s = true → findCmd s q e = some c → c.phase = .background → c.opcode = opCounterLatch →
      (∀ f ∈ latchFields s c, fieldLoaded s f = true ∧ (fieldOf s f).frozen = none) →
      (∀ f ∈ latchFields s c, (fieldOf s f).latchOut = some (q, e)) →
      4 * ((latchFields s c).flatMap (latchOutput s c.tenant)).length ≤ outLen c →
      ∃ t u ts, exec (.latchOutputDone q e) s = .next t ∧
        t = complete u c stOk (w64 ts ++ [w32 (4 * ((latchFields s c).flatMap (latchOutput s c.tenant)).length)]) ∧
        (∀ f rest, latchFields s c = f :: rest → ts = (fieldOf s f).latchTs) ∧
        ∀ f ∈ latchFields s c, (fieldOf t f).latchOut = none) ∧
    (runCmd s q e opTraceCfg = some c → reservedOk c [(3, 0xF), (4, 0xFF), (5, 0xFFFF)] = true →
      (c.f 5 0 16 = 0 ∨ (8 ≤ c.f 5 0 16 ∧ c.f 5 0 16 ≤ 16)) →
      exec (.traceCfg q e) s = .next (applySetting (setPart s c.part { y with
        engines := c.f 3 0 4, reasons := c.f 4 0 8, sampleExp := if c.f 5 0 16 = 0 then y.sampleExp else c.f 5 0 16 })
        c c.part stOk [w32 y.engines])) ∧
    (∀ f k, f < 84 → clocked s = true → fieldLoaded s f = true → k.startSeam < k.endSeam → k.endSeam < (fieldSeams s f).length →
      ((fieldOf s f).seam < k.startSeam ∨ ((fieldOf s f).seam = k.startSeam ∧ (fieldOf s f).run = .running)) →
      exec (.computeCmdBoundary f k) s = .next (setField s f { fieldOf s f with
        computeDue := (fieldOf s f).computeDue ++ [k] }))

/-- R425: COUNTER_FREEZE completes at once where the partition is as asked already; else it is pending: with a trigger of 0 every field that runs
a program acts at its next seam; with a trigger time of at most 1 s from now, when it has come, every field acts. -/
def Says.FreezeCommands : Prop :=
  (∀ (s : State) (q e : Nat) (c : Cmd) (y : Part), partOf s c.part = some y → runCmd s q e opCounterFreeze = some c →
    reservedOk c [(3, 1), (4, 0xFFFFFFFF), (5, 0xFFFFFFFF)] = true → y.freeze = none → ∀ trig, trig = c.w 4 + c.w 5 * 2 ^ 32 →
    (trig ≠ 0 → triggerTime s y trig ≤ (s.now : Int) + 1000000000) → (∀ f ∈ partFields y, fieldLoaded s f = true) →
    ((c.b 3 0 = true → partFrozen s c.part = true) → (c.b 3 0 = false → ∀ f ∈ partFields y, (fieldOf s f).frozen = none) →
      ∃ ts, exec (.counterFreeze q e) s = .next (complete s c stOk (w64 ts))) ∧
    ((c.b 3 0 = true → partFrozen s c.part = false) → (c.b 3 0 = false → ∃ f ∈ partFields y, (fieldOf s f).frozen.isSome = true) →
      ∃ t y' z, exec (.counterFreeze q e) s = .next t ∧ partOf t c.part = some y' ∧ y'.freeze = some z ∧ z.freeze = c.b 3 0 ∧
        z.left = (if trig = 0 then partFields y else []) ∧ z.trigger = trig ∧ z.local_ = triggerTime s y trig ∧ z.q = q ∧ z.e = e ∧
        t.fields = s.fields)) ∧
  (∀ (s : State) (p : Nat) (cuts : List FreezeCut) (y : Part) (z : FreezePend), clocked s = true →
    cuts.all (fun c => c.taps.all (tapOk (fieldOf s c.f))) = true → partOf s p = some y → y.freeze = some z →
    z.trigger ≠ 0 → z.local_ ≤ (s.now : Int) →
    ∃ t y', exec (.freezeTrigger p cuts) s = .next t ∧ partOf t p = some y' ∧ y'.freeze = none ∧
      ∀ f ∈ partFields y, (fieldOf t f).frozen.isSome = z.freeze)

/-- COUNTER_LATCH, COUNTER_FREEZE, TRACE_CFG and their events. -/
def Obligations.CounterAndFreezeCommands : Prop := Says.CounterCommands ∧ Says.FreezeCommands

/-- R67, R68, R402: the lanes. PROBE and ECHO frames carry the low 40 bits of the block timestamp; an ECHO for a PROBE of this side, with the
peer's last PROBE, makes a round, of which the last 1,024 are kept; loss and return of synchronisation; a frame with a wrong CRC is counted. -/
def Says.LaneRows : Prop :=
  ∀ (s : State) (l : Nat), l < 64 → clocked s = true →
    (measures s l = true → ∃ t, exec (.probeSend l) s = .next t ∧
      t.out = .frame l (frameChars 1 (laneOf s l).seqNo (s.now % 2 ^ 40)) :: s.out ∧ (laneOf t l).seqNo = ((laneOf s l).seqNo + 1) % 16 ∧
      (laneOf t l).sent.head? = some ((laneOf s l).seqNo, s.now)) ∧
    (∀ n p half, measures s l = true → n < 16 → p < 2 ^ 40 → ∃ t, exec (.probeReceive l n p half) s = .next t ∧
      t.out = .frame l (frameChars 2 n (s.now % 2 ^ 40)) :: s.out ∧ (laneOf t l).peerProbe = some (n, p, 2 * s.now + bit01 half)) ∧
    (∀ n p k t1 m t3 t4, n < 16 → p < 2 ^ 40 → (laneOf s l).sent.find? (fun e => e.1 == n) = some (k, t1) →
      (laneOf s l).peerProbe = some (m, t3, t4) → (laneOf s l).sync = true → ∃ t, exec (.echoReceive l n p) s = .next t ∧
        (laneOf t l).rounds = (((s.now : Int), roundOffset t1 p t3 t4) :: (laneOf s l).rounds).take 1024) ∧
    (∀ n p, n < 16 → p < 2 ^ 40 → (laneOf s l).sent.find? (fun e => e.1 == n) = none →
      exec (.echoReceive l n p) s = .next s) ∧
    ((laneOf s l).sync = true → ∃ t, exec (.laneSyncLoss l) s = .next t ∧ (laneOf t l).sync = false ∧
      ∀ k, k ≠ l → laneOf t k = laneOf s k) ∧
    ((laneOf s l).sync = false → ∃ t, exec (.laneSyncRegain l) s = .next t ∧ (laneOf t l).sync = true ∧
      ∀ k, k ≠ l → laneOf t k = laneOf s k) ∧
    (∀ cs, cs.length = 7 → crc8 (cs.take 6) ≠ ((cs.drop 6).headD 0).toNat → ∃ t, exec (.laneFrameCrcDiscard l cs) s = .next t ∧
      (laneOf t l).crcBad = sat32 ((laneOf s l).crcBad + 1) ∧ (laneOf t l).rounds = (laneOf s l).rounds ∧ t.out = s.out)

/-- R402, R405, R407: TIME_ALIGN starts measurement on its ports; when the tree is stable the partition has it, with the peers measured, and the
command completes with the number of distinct peers; a wafer whose parent cannot be reached takes a reachable neighbour that is no child of
it as its parent, and one that has no such neighbour has no path to the root. -/
def Says.TimeAlignment : Prop :=
  (∀ (s : State) (q e : Nat) (c : Cmd) (y : Part), partOf s c.part = some y → runCmd s q e opTimeAlign = some c →
    reservedOk c [(3, 0xFFFFFFFF), (4, 0xFFFFFFFF), (5, 0xFFFF)] = true → y.barrier = none →
    ∃ t y', exec (.timeAlign q e) s = .next t ∧ partOf t c.part = some y' ∧ y'.ports = portsOf c ∧ y'.job = c.f 5 0 16 ∧
      y'.aligning = some (q, e) ∧ y'.tree = y.tree ∧ t.out = s.out) ∧
  (∀ (s : State) (p : Nat) (peers : List PeerInfo) (y : Part) (a : Nat × Nat) (c : Cmd), partOf s p = some y → y.aligning = some a →
    findCmd s a.1 a.2 = some c → clocked s = true → s.hang.fwUp = true →
    (∀ r ∈ peers, r.port ∈ y.ports ∧ laneUsable s r.port = true) →
    ∃ t y' tr u, exec (.timeAlignTreeStable p peers) s = .next t ∧ partOf t p = some y' ∧ y'.tree = some tr ∧ y'.aligning = none ∧
      tr.peers = peers ∧ tr.job = y.job ∧
      (tr.parent = none → (∀ r ∈ peers, s.mfg.serial ≤ r.rootSerial) ∨ tr.lost = true) ∧
      t = complete u c (if y.ports.all (laneUsable s) then stOk else stUnreachable)
        [w32 (peers.map (·.serial)).eraseDups.length, w32 tr.uncert]) ∧
  (∀ (s : State) (p l : Nat) (y : Part) (tr : Tree), partOf s p = some y → y.tree = some tr → tr.parent = some l → clocked s = true →
    s.hang.fwUp = true → usablePorts s tr l = [] →
    ((∀ r ∈ tr.peers, laneUsable s r.port = true → r.child = true ∨ r.port ∈ peerLanes tr l) →
      ∃ t y' tr', exec (.parentLoss p) s = .next t ∧ partOf t p = some y' ∧ y'.tree = some tr' ∧ tr'.parent = none ∧ tr'.lost = true) ∧
    ((∃ r ∈ tr.peers, laneUsable s r.port = true ∧ r.child = false ∧ r.port ∉ peerLanes tr l) →
      ∃ t y' tr' r, exec (.parentLoss p) s = .next t ∧ partOf t p = some y' ∧ y'.tree = some tr' ∧ tr'.parent = some r.port ∧
        tr'.lost = false ∧ tr'.depth = r.depth + 1 ∧ r ∈ tr.peers ∧ laneUsable s r.port = true ∧ r.child = false))

/-- Lanes and TIME_ALIGN. -/
def Obligations.LanesAndAlignment : Prop := Says.LaneRows ∧ Says.TimeAlignment

/-- R408 to R411: BARRIER_ARM with 1 wafer sets its own release time, 10 us on; with more it waits for its tree. An ARM from a child is kept. A
RELEASE from the parent gives the armed barrier its local release time. At the release every field that waited at its start runs, and the
command completes with the edge; at the timeout the partition is reset with cause 0x05. -/
def Obligations.StartBarrier : Prop :=
  (∀ (s : State) (q e n : Nat) (c : Cmd) (y : Part), partOf s c.part = some y → runCmd s q e opBarrierArm = some c →
    reservedOk c [(3, 0xFFFF), (4, 0x1FF), (5, 0xFFFFFFFF)] = true → n = c.f 4 0 9 → 1 ≤ n → n ≤ 256 →
    (n = 1 ∨ ∃ tr, y.tree = some tr ∧ tr.size = n) → y.barrier = none →
    ∃ t y' b, exec (.barrierArm q e) s = .next t ∧ partOf t c.part = some y' ∧ y'.barrier = some b ∧ b.id = c.f 3 0 16 ∧ b.count = n ∧
      b.timeout = (if c.w 5 = 0 then 50000 else c.w 5) ∧ b.q = q ∧ b.e = e ∧ (n = 1 → b.rel = some ((s.now : Int) + 10000))) ∧
  (∀ (s : State) (l k p : Nat) (y : Part) (tr : Tree) (r : PeerInfo), l < 64 → k < 65536 → clocked s = true →
    s.parts = [(p, y)] → y.tree = some tr → tr.peers.find? (fun r => r.port == l && r.child) = some r →
    ∃ t y', exec (.armReceive l k) s = .next t ∧ partOf t p = some y' ∧ (r.serial, k) ∈ y'.arms) ∧
  (∀ (s : State) (l time p m : Nat) (y : Part) (tr : Tree) (b : Barrier), l < 64 → time < 2 ^ 40 → clocked s = true →
    s.parts = [(p, y)] → y.tree = some tr → tr.parent = some m → (peerLanes tr m).contains l = true →
    y.barrier = some b → b.sent = true → b.rel = none →
    ∃ t y' b', exec (.releaseReceive l time) s = .next t ∧ partOf t p = some y' ∧ y'.barrier = some b' ∧ b'.id = b.id ∧
      b'.rel = some ((toLocal s tr (releaseAligned s tr time)).ceil)) ∧
  (∀ (s : State) (p edge : Nat) (y : Part) (b : Barrier) (r : Int), clocked s = true → partOf s p = some y → y.barrier = some b →
    b.rel = some r → r ≤ (edge : Int) →
    ∃ t y', exec (.barrierRelease p edge) s = .next t ∧ partOf t p = some y' ∧ y'.barrier = none ∧
      (∀ f ∈ partFields y, (fieldOf t f).waitBarrier = false ∧
        ((fieldOf s f).atStart = true → (fieldOf t f).run = .running ∧ (fieldOf t f).releaseTs = edge) ∧
        ((fieldOf s f).atStart = false → (fieldOf t f).run = (fieldOf s f).run)) ∧
      (∀ c, findCmd s b.q b.e = some c → ∃ u, t = complete u c stOk (w64 edge))) ∧
  (∀ (s : State) (p : Nat) (y : Part) (b : Barrier), clocked s = true → partOf s p = some y → y.barrier = some b →
    b.armedAt + b.timeout * 1000 ≤ s.now → exec (.barrierTimeout p) s = .next (autoReset s 2 (domPart p) 5))

/-! ### Tile guards -/

/-- R103, R106, R129, R122, R36: a contraction of the original execution whose verdict has no failure counts and changes no guard; one that
fails a class that is enforced shuts the gate of the tile, of the primary where the tile is a pair's; one whose classes are all only
observed shuts none. R127, R128: one into which an injection has been made always shuts it. -/
def Says.ContractionVerdicts : Prop :=
  ∀ (s : State) (c : Contraction) (f : Nat) (v : Verdict), physicalOk c.tile = true → contractionOk c = true → f = taField c.tile →
    execOf s c.tile = some .original →
    v = verdictOf c (exactMode s f) (armedSite s c.tile .original) ((guardOf s c.tile).injCount + 1) →
    (v.applied = true → ∃ t, exec (.contractionEnd c) s = .next t ∧ (guardOf t (primaryOf s c.tile)).gateShut = true ∧
      (guardOf t c.tile).injCount = (guardOf s c.tile).injCount + 1) ∧
    (v.applied = false → v.fails = [] → ∃ t, exec (.contractionEnd c) s = .next t ∧ t.guards = s.guards ∧ t.fields = s.fields ∧
      (∀ l, workLog s c.tile = some l → fieldFrozen s (taField l) = false →
        (tileBanks t l).live = countVerdict (fieldOf s f) v false c.steps.length (tileBanks s l).live)) ∧
    (v.applied = false → v.fails ≠ [] → v.fails.all (fun e => observed (fieldOf s f) e.1) = true → ∃ t, exec (.contractionEnd c) s = .next t ∧
      t.fields = s.fields ∧ ∀ a, (guardOf t a).gateShut = (guardOf s a).gateShut) ∧
    (∀ cls d rest, v.applied = false → v.fails = (cls, d) :: rest → v.fails.all (fun e => observed (fieldOf s f) e.1) = false →
      ∃ t, exec (.contractionEnd c) s = .next t ∧ (guardOf t (primaryOf s c.tile)).gateShut = true)

/-- R106, R158, R160: an export of an unpaired tile leaves at an open gate, one to a tile at once, with the epoch bit of its field, one to a
port when the seam is released; it is withheld at a shut gate, or where the tile is tainted or a droop struck the step: a marker of the
export's header and length leaves in its place. R160: in a replay on its own tile that has failed no check again an export leaves to a tile of
the group, and to no tile outside it. -/
def Says.ExportRows : Prop :=
  ∀ (s : State) (x : Export), physicalOk x.tile = true → x.header.length = 4 → x.payload.length ≤ 2048 →
    (fieldOf s (taField x.tile)).redund = false →
    (execOf s x.tile = some .original → (guardOf s x.tile).gateShut = false → (guardOf s x.tile).tainted = false →
      (fieldOf s (taField x.tile)).droop = false → ∃ t, exec (.exportAttempt x) s = .next t ∧
        (guardOf t x.tile).exportNo = (guardOf s x.tile).exportNo + 1 ∧
        (∀ l, x.dest = .tile l → t.out =
          .released x.tile (digestOf s.arm.digestKey (x.header ++ x.payload)) (.tile l) (fieldOf s (taField x.tile)).epoch :: s.out) ∧
        ((∀ l, x.dest ≠ .tile l) → t.out = s.out ∧ (guardOf t x.tile).ports =
          (guardOf s x.tile).ports ++ [(digestOf s.arm.digestKey (x.header ++ x.payload), x.dest)])) ∧
    (execOf s x.tile = some .original →
      ((guardOf s x.tile).gateShut = true ∨ (guardOf s x.tile).tainted = true ∨ (fieldOf s (taField x.tile)).droop = true) →
      ∃ t, exec (.exportAttempt x) s = .next t ∧ t.out = .marker x.tile x.header x.payload.length x.dest :: s.out ∧
        (guardOf t x.tile).exportNo = (guardOf s x.tile).exportNo + 1) ∧
    (∀ g l, execOf s x.tile = some (.same g) → (guardOf s x.tile).again = none → g.state = .same → x.dest = .tile l → ∃ t,
      exec (.exportAttempt x) s = .next t ∧ (guardOf t x.tile).exportNo = (guardOf s x.tile).exportNo + 1 ∧
      t.out = if g.tiles.contains l then
          .released x.tile (digestOf s.arm.digestKey (x.header ++ x.payload)) (.tile l) (fieldOf s (taField x.tile)).epoch :: s.out
        else s.out)

/-- Verdicts of contractions and exports. -/
def Obligations.VerdictsAndExports : Prop := Says.ContractionVerdicts ∧ Says.ExportRows

/-- R153, R154, R158, R159, R169, R21, R152: an own write marks its row as touched; a mesh write to a touched row sets INBOUND_ORDER; a withheld
marker taints the tile, a recall marker also marks it RECALLED; a tile that reaches the seam has arrived, with the checkpoint of its
engines, and counts where it is not a pair's. -/
def Obligations.TileEvents : Prop :=
  ∀ (s : State) (a f : Nat), physicalOk a = true → f = taField a → execOf s a = some .original →
    (∀ row addr data full rb old, row < 1024 → addr / 64 = row → ∃ t, exec (.sramOwnWrite a row addr data full rb old) s = .next t ∧
      (guardOf t a).touched.contains row = true ∧
      ((guardOf t a).digest, (guardOf t a).symbols) =
        foldSyms s.arm.digestKey ((guardOf s a).digest, (guardOf s a).symbols) (writeSyms addr data) ∧
      ∀ b, b ≠ a → guardOf t b = guardOf s b) ∧
    (∀ row rb, row < 1024 → ∃ t, exec (.meshWriteReceive a row rb) s = .next t ∧
      (guardOf t a).inbound = ((guardOf s a).inbound || rb || (guardOf s a).touched.contains row) ∧
      ∀ b, b ≠ a → guardOf t b = guardOf s b) ∧
    (∀ org edge h, logicalOk org = true → edge < 4 → ∃ t, exec (.withheldMarkerReceive a org edge h) s = .next t ∧
      (guardOf t a).tainted = true ∧ (guardOf t a).recalled = (guardOf s a).recalled) ∧
    (∀ org edge, logicalOk org = true → edge < 4 → ∃ t, exec (.recallMarkerReceive a org edge) s = .next t ∧
      (guardOf t a).tainted = true ∧ (guardOf t a).recalled = true) ∧
    (∀ cycle cp, cp.length = 64 → ∃ t, exec (.tileSeamReach a cycle cp none) s = .next t ∧ (guardOf t a).arrived = true ∧
      (guardOf t a).enginesNext = cp ∧ ((fieldOf s f).redund = false → (fieldOf t f).arrived = (fieldOf s f).arrived + 1))

/-! ### Seams and replays -/

/-- R21, R105: the field is held at its seam when its arrival line rises; the cycles of the step count. -/
def Says.SeamArrival : Prop :=
  ∀ (s : State) (f cycles : Nat) (taps : List EngineTap), f < 84 → taps.all (tapOk (fieldOf s f)) = true → clocked s = true →
    (fieldOf s f).warden = .up → (fieldOf s f).run = .running → (fieldOf s f).arrived = (fieldPlaces (fieldOf s f)).length →
    (fieldOf s f).seam < (fieldSeams s f).length → (∀ p y, fieldPart s f = some (p, y) → y.gone = false) →
    ∃ t, exec (.fieldSeamArrival f cycles taps) s = .next t ∧ (fieldOf t f).run = .held ∧ (fieldOf t f).stepLen = cycles ∧
      (fieldOf t f).arriveTs = s.now ∧ (fieldOf t f).count = (fieldOf s f).count + cycles ∧ (fieldOf t f).seam = (fieldOf s f).seam

/-- Nothing waits at the field's seam but the seam itself. -/
def plainSeam (s : State) (f : Nat) : Prop :=
  (fieldOf s f).power.excessLost = none ∧ (fieldOf s f).power.excessDue = 0 ∧ (fieldOf s f).rowsDue = [] ∧ borderLinks s f = [] ∧
  (fieldOf s f).linksDue = [] ∧ (fieldOf s f).backDue = [] ∧ (fieldOf s f).slotsDue = [] ∧ (fieldOf s f).claims = [] ∧
  (fieldOf s f).bench = []

/-- R22, R23, R105: a field that nothing holds any longer is released from its seam: it is past it and runs, but for the last seam of the
program; the next step has no arrivals and no failures. -/
def Says.SeamRelease : Prop :=
  ∀ (s : State) (f held p : Nat) (y : Part), f < 84 → mayRelease s f held = true → plainSeam s f → fieldPart s f = some (p, y) →
    y.unloading = none →
    ∃ t, exec (.fieldRelease f held) s = .next t ∧ (fieldOf t f).seam = (fieldOf s f).seam + 1 ∧
      (fieldOf t f).run = (if (fieldOf s f).seam + 1 = (fieldSeams s f).length then .held else .running) ∧
      (fieldOf t f).arrived = 0 ∧ (fieldOf t f).failed = [] ∧ (fieldOf t f).taints = [] ∧ (fieldOf t f).droop = false

/-- A field at a seam. -/
def Obligations.SeamArrivalAndRelease : Prop := Says.SeamArrival ∧ Says.SeamRelease

/-- R156, R162, R164, R167: a waiting group starts on its own tiles; it passes when all of them have run the step again and no check has failed
again. R157, R164: when every image copy is done, with equal digests, the group runs on its spares, and passes likewise. R168: a replay
past its limit is abandoned: the group is left, and the step lost with cause 0x03. -/
def Says.ReplayGroups : Prop :=
  (∀ (s : State) (f : Nat) (g : Group), f < 84 → clocked s = true → s.groups = [g] → g.fields.contains f = true → startable s g = true →
    (∀ r ∈ g.failed, skipsSame s g r = false) →
    ∃ t h, exec (.replayGroupStart f) s = .next t ∧ t.groups = [h] ∧ h.id = g.id ∧ h.state = .same ∧ h.tiles = g.tiles ∧
      h.round = g.tiles) ∧
  (∀ (s : State) (g : Group) (cycles : Nat),
    s.groups.find? (fun h => h.id == g.id && h.state == .same && wardenRuns s h.field && rerunDone s h) = some g →
    g.round.filterMap (againOf s) = [] →
    ∃ t h, exec (.replayVerdict g.id cycles) s = .next t ∧ h ∈ t.groups ∧ h.id = g.id ∧ h.state = .done ∧
      h.cycles = g.cycles + cycles) ∧
  (∀ (s : State) (f u dig cycles l : Nat) (g : Group), f < 84 → u < 10000 → wardenRuns s f = true →
    s.groups.find? (fun h => h.state == .copying && h.spares.any (fun e => e.2 == pa f u && h.copies.contains e.1)) = some g →
    g.spares.find? (fun e => e.2 == pa f u && g.copies.contains e.1) = some (l, pa f u) →
    ∃ t h, exec (.imageCopyDone f u dig dig cycles) s = .next t ∧ h ∈ t.groups ∧ h.id = g.id ∧
      h.copies = g.copies.filter (· != l) ∧ h.state = (if (g.copies.filter (· != l)).isEmpty then .spare else .copying)) ∧
  (∀ (s : State) (g : Group) (cycles : Nat),
    s.groups.find? (fun h => h.id == g.id && h.state == .spare && wardenRuns s h.field && rerunDone s h) = some g →
    g.round.filterMap (againOf s) = [] → (∀ e ∈ g.spares, spareAgain s e = none ∧ isPair s e.1 = false) →
    ∃ t h, exec (.spareReplayVerdict g.id cycles) s = .next t ∧ h ∈ t.groups ∧ h.id = g.id ∧ h.state = .done) ∧
  (∀ (s : State) (g : Group), (g.state = .same ∨ g.state = .copying ∨ g.state = .spare) → overLimit s g = true →
    s.groups.find? (fun h => h.id == g.id && wardenRuns s h.field && (h.state == .same || h.state == .copying || h.state == .spare) &&
      overLimit s h) = some g →
    ∃ t, exec (.replayAbandoned g.id) s = .next t ∧ (∀ h ∈ t.groups, h.id ≠ g.id) ∧ (fieldOf t g.field).lostCause = some 3)

/-- R249: the drained version is writable. R137: a snapshot that is done lets the spot spare execute; a check whose spare has run the step
without a failure, with the digest of the step, ends and counts as agreed. -/
def Says.SpotChecks : Prop :=
  ∀ (s : State) (f : Nat), f < 84 → wardenRuns s f = true →
    ((fieldOf s f).idleDirty = true → (fieldOf s f).switched = false → s.groups = [] →
      exec (.idleVersionDrained f) s = .next (modField s f (fun x => { x with idleDirty := false, fwd := [] }))) ∧
    (∀ tile c, findSpot s f tile false = some c → ∃ t, exec (.snapshotDone f tile) s = .next t ∧
      { c with running := true } ∈ (fieldOf t f).spots ∧ (fieldOf t f).spots.length = (fieldOf s f).spots.length) ∧
    (∀ tile c cycles, findSpot s f tile true = some c → (guardOf s (pa f c.spare)).redone = true → (guardOf s (pa f c.spare)).again = none →
      (guardOf s (pa f c.spare)).digest = c.digest → ∃ t, exec (.spotCheckVerdict f tile cycles) s = .next t ∧
      (fieldOf t f).spots = (fieldOf s f).spots.filter (fun d => d != c) ∧
      ((fieldOf s f).frozen = none → (fieldOf t f).cnt.agree = sat32 ((fieldOf s f).cnt.agree + 1)) ∧
      tfind (fieldOf t f).lent c.spare = none)

/-- Replay groups and spot checks. -/
def Obligations.ReplaysAndSpotChecks : Prop := Says.ReplayGroups ∧ Says.SpotChecks

/-! ### Fault collection -/

/-- R36, R261 to R263, R266: the guard root presents its tile, whose detail is latched in an episode; an acknowledgement of the only source
releases the pin. A level source joins the episode. R236: a router's pin stands until it is acknowledged. R266: an episode that is over is
closed. R271: the summary of a past second is sent. -/
def Obligations.FaultEpisodes : Prop :=
  ∀ (s : State) (f : Nat), f < 84 → clocked s = true → (fieldOf s f).warden = .up →
    (∀ a rest n cyc, (fieldOf s f).guardPins = a :: rest → (fieldOf s f).episode = none → (fieldOf s f).latched = none → n < 64 →
      ∃ t, exec (.errorSourceLatch f .guardRoot n cyc) s = .next t ∧ (fieldOf t f).latched = some (guardDetail s a) ∧
        ∃ e, (fieldOf t f).episode = some e ∧ e.first = guardDetail s a ∧ e.time = s.now ∧ e.gen = genOf s (domField f)) ∧
    (∀ d n cyc, (d.cls = 11 ∨ d.cls = 12) → (fieldOf s f).episode = none → ∃ t e,
      exec (.errorSourceLatch f (.level d) n cyc) s = .next t ∧ (fieldOf t f).episode = some e ∧ e.first = d) ∧
    (∀ d n cyc, d.cls = 6 → physicalOk d.tile = true → taField d.tile = f →
      (fieldOf s f).routerPins.any (fun e => e.tile == d.tile) = false → (fieldOf s f).latched.isSome = true →
      exec (.errorSourceLatch f (.router d) n cyc) s =
        .next (setField s f { fieldOf s f with
          routerPins := (fieldOf s f).routerPins ++ [d]
          storm := (fieldOf s f).storm.map (fun m => { m with lastRise := s.now, routers := m.routers + 1 }) })) ∧
    (∀ d, (fieldOf s f).latched = some d → d.cls ≠ 6 → (fieldOf s f).guardPins = [d.tile] → (fieldOf s f).routerPins = [] →
      ∃ t, exec (.sourceAcknowledge f) s = .next t ∧ (fieldOf t f).latched = none ∧ (fieldOf t f).guardPins = [] ∧
        (guardOf t d.tile).pin = false ∧ (fieldOf t f).episode = (fieldOf s f).episode) ∧
    (∀ e, (fieldOf s f).episode = some e → e.released = true → (fieldOf s f).latched = none → ∃ t,
      exec (.episodeClose f) s = .next t ∧ (fieldOf t f).episode = none) ∧
    ((fieldOf s f).summary.isSome = true → (fieldOf s f).rateSecond < faultSecond s → ∃ t, exec (.rateSummary f) s = .next t ∧
      (fieldOf t f).summary = none)

/-- R274, R275, R276: a storm record closes, with the counts of the ring walk, when no pin has stood or risen for 1 ms; one that has lasted 100 ms
closes and goes on in a further record; EV_STORM is committed when the fields of the merge have closed. R278: the oldest finding gets the next signature number. R169, R366: a droop marks the running step. -/
def Says.StormsAndSignatures : Prop :=
  ∀ s : State, clocked s = true →
    (∀ f m, f < 84 → (fieldOf s f).storm = some m → (fieldOf s f).episode = none →
      (s.now < m.start + 100000000 → m.lastRise + 1000000 ≤ s.now → (fieldOf s f).guardPins = [] → (fieldOf s f).routerPins = [] →
        ∃ t, exec (.stormClose f) s = .next t ∧ (fieldOf t f).storm = none ∧
          t.storms = s.storms ++ [(f, { m with stopped := s.now, counts := walkCounts s f m })]) ∧
      (m.start + 100000000 ≤ s.now → ∃ t n, exec (.stormClose f) s = .next t ∧ (fieldOf t f).storm = some n ∧ n.continued = true ∧
        n.start = s.now ∧ t.storms = s.storms ++ [(f, { m with stopped := s.now, counts := walkCounts s f m })])) ∧
    (s.storms ≠ [] → mergeWaits s = false → ∃ t, exec .stormMergeCommit s = .next t ∧
      t.storms = s.storms.filter (fun e => !(mergedStorms s).contains e)) ∧
    (∀ fd rest, s.hang.fwUp = true → s.sig.queue = fd :: rest → ∃ t, exec .signatureSigned s = .next t ∧ t.sig.queue = rest ∧
      t.sig.lastSig = some s.hutch.img.nextSig ∧ t.hutch.img.nextSig = s.hutch.img.nextSig + 1) ∧
    (∀ f mv cyc, f < 84 → (fieldOf s f).zoneDown = false → (fieldOf s f).warden = .up → epReleased (fieldOf s f) = false →
      (fieldOf s f).run = .running → ∃ t, exec (.droopDetect f mv cyc) s = .next t ∧ (fieldOf t f).droop = true)

/-- R234, R263, R272: a corrected error is counted against its row; an uncorrectable one whose row has no start-of-step content shuts the gate and
retires the row at the next seam; one that the scrubber finds in a tile that serves a program retires the row at the next seam. -/
def Says.EccRows : Prop :=
  ∀ (s : State) (a row : Nat), physicalOk a = true → row < 1024 → clocked s = true →
    (∀ bit, bit < 512 → (guardOf s a).rowUses = [] → ∃ t, exec (.eccCorrectedNotice a row bit) s = .next t ∧
      (guardOf t a).rowUses = [(row, s.cab.opTime)] ∧ t.hutch = s.hutch ∧ t.cab = s.cab ∧ t.fields = s.fields) ∧
    (∀ b, execOf s a = some .original → servesProgram s a = true → (guardOf s a).undo.any (fun e => e.1 == row) = false → ∃ t,
      exec (.eccUncorrectable a row b false) s = .next t ∧ (guardOf t a).gateShut = true ∧
        (fieldOf t (taField a)).rowsDue.any (fun e => e.1 == taPlace a && e.2.1 == row) = true) ∧
    (servesProgram s a = true → ∃ t, exec (.scrubUncorrectable a row) s = .next t ∧
      (fieldOf t (taField a)).rowsDue.any (fun e => e.1 == taPlace a && e.2.1 == row) = true)

/-- Storms, signatures and ECC rows. -/
def Obligations.StormsSignaturesAndEcc : Prop := Says.StormsAndSignatures ∧ Says.EccRows

/-! ### Thermal -/

/-- R372, R375, R376, R389: the model advances by one step; the next diode in service is read; a good read moves T_ref; THERMAL_READ without a
fresh read returns the last readings. R380: the replan sets each loaded partition as its rule says. -/
def Obligations.ThermalModel : Prop :=
  ∀ (s : State) (f : Nat), f ≤ hubField →
    (thermUp s f = true →
      (∃ t, exec (.thermalModelUpdate f) s = .next t ∧ (thermOf t f).node0 = (modelStep s f (thermOf s f)).node0 ∧
        (thermOf t f).node1 = (modelStep s f (thermOf s f)).node1 ∧ (thermOf t f).node2 = (modelStep s f (thermOf s f)).node2 ∧
        (thermOf t f).band = bandWith (modelStep s f (thermOf s f)) (bandNext (thermOf s f).band (modelStep s f (thermOf s f)).node0)) ∧
      ((thermOf s f).shut = none → (thermOf s f).excluded = [] → ∃ t, exec (.diodeRotation f) s = .next t ∧
        (thermOf t f).next = ((thermOf s f).next % 4 + 1) % 4 ∧ (thermOf s f).next % 4 ∈ (thermOf t f).pending) ∧
      (∀ d r, d < 4 → (thermOf s f).pending.contains d = true → readGood (thermOf s f) r = true → (thermOf s f).hold = false →
        (thermOf s f).shutDone = false →
        exec (.diodeReadDone f d r []) s = .next (setTherm s f (calibrateTref s (storeReading (thermOf s f) d r) r)))) ∧
    (∀ q e c, runCmd s q e opThermalRead = some c → s.regs.legacy = false → c.b 3 8 = false →
      (c.f 3 0 7 = 0x7F ∨ c.f 3 0 7 < 84) → f = (if c.f 3 0 7 = 0x7F then hubField else c.f 3 0 7) →
      reservedOk c [(3, 0x17F), (11, 0xFFFFFFFF), (12, 0xFFFFFFFF), (13, 0xFFFFFFFF)] = true →
      exec (.thermalRead q e []) s = .next (complete s c stOk (thermalResults s f))) ∧
    (∀ p x, clocked s = true → s.arb.hubOff = false → s.parts = [(p, x)] → x.prog.isSome = true →
      ∃ t, exec .thermalThrottleReplan s = .next t ∧ partOf t p = some (replanThermal s x))

/-- R383, R384: a field whose node 0 reaches 105 degrees is to be shut down; once the record is committed its compute is gated; after cooling
it returns. -/
def Says.FieldShutdowns : Prop :=
  ∀ (s : State) (f : Nat), f < 84 → clocked s = true → s.hang.fwUp = true →
    ((fieldOf s f).warden = .up → (fieldOf s f).therm.shut = none → fieldInReset s f = false → 1680 ≤ (fieldOf s f).therm.node0 →
      queueBytes s + 40 ≤ queueCap → ∃ t, exec (.fieldShutdown f) s = .next t ∧
        (fieldOf t f).therm.shut = some s.cab.nextSeq ∧ (fieldOf t f).therm.shutDone = false) ∧
    (∀ n, (fieldOf s f).therm.shut = some n → (fieldOf s f).therm.shutDone = false → recordCommitted s n = true →
      ∃ t, exec (.shutdownProceed f) s = .next t ∧ (fieldOf t f).run = .gated ∧ (fieldOf t f).therm.shutDone = true) ∧
    ((fieldOf s f).therm.shut.isSome = true → (fieldOf s f).therm.shutDone = true → coolNow (thermOf s f) = true → coolEnough s f = true →
      fieldInReset s f = false → ∃ t, exec (.thermalRestart f) s = .next t ∧ (fieldOf t f).therm.shut = none ∧
        (fieldOf t f).run = (if (fieldOf s f).zoneDown || (fieldOf s f).tripped then .gated else .idle) ∧
        ∀ g, g ≠ f → fieldOf t g = fieldOf s g)

/-- R385 to R387: a zone trip gates every field of the zone and sets THERMTRIP; a hub trip gates every field and switches the hub's domains
off. A part that has been off for 60 s restarts: the zone's fields are no longer tripped; with a hub restart the hub is on and a WAFER reset with cause 0x0B is asked
for. -/
def Says.HardwareTrips : Prop :=
  ∀ s : State, clocked s = true →
    (∀ z, z < 8 → tripped s (.zone z) = false → ∃ t, exec (.zoneTrip z) s = .next t ∧ tripped t (.zone z) = true ∧
      tsBit t tsThermtrip = true ∧ ∀ f ∈ zoneFields z, (fieldOf t f).run = .gated ∧ (fieldOf t f).tripped = true) ∧
    (tripped s .hub = false → ∃ t, exec .hubTrip s = .next t ∧ tripped t .hub = true ∧ tsBit t tsThermtrip = true ∧
      t.arb.hubOff = true ∧ t.hang.fwUp = false ∧ t.arb.cap = 0 ∧ t.tray.capCeil = 0 ∧
      ∀ f, f < 84 → (fieldOf t f).run = .gated) ∧
    (∀ z brk k, s.arb.trips.find? (fun k => k.source == .zone z && decide (60 ≤ tripSeconds s k)) = some k →
      ∃ t, exec (.tripRestart (.zone z) brk) s = .next t ∧
      tripped t (.zone z) = false ∧ ∀ f ∈ zoneFields z, (fieldOf t f).tripped = false) ∧
    (∀ brk k, s.arb.trips.find? (fun k => k.source == .hub && decide (60 ≤ tripSeconds s k)) = some k →
      ∃ t, exec (.tripRestart .hub brk) s = .next t ∧ tripped t .hub = false ∧
      t.arb.hubOff = false ∧ t.hang.requests = s.hang.requests ++ [{ level := 3, dom := domWafer, cause := 0x0B }] ∧
      ∀ d, d < 229 → genOf t d = genOf s d + 1)

/-- Thermal shutdowns and hardware trips. -/
def Obligations.ThermalTrips : Prop := Says.FieldShutdowns ∧ Says.HardwareTrips

/-! ### Bring-up -/

/-- R28, R37, R308, R339, R453: at the loss of the hub feed only the NOR, what manufacture fixed and the Armoire's store stay; at its rise
the block timestamp starts at 0, and operating time, power-cycle count and the A+ counter come from the snapshot. -/
def Obligations.PowerLossAndRise : Prop :=
  ∀ s : State,
    (s.feed = true → ∃ t, exec .hubFeedLoss s = .next t ∧ t.feed = false ∧ t.parts = [] ∧ t.fields = [] ∧ t.fe = {} ∧ t.cab = {} ∧
      t.hang = {} ∧ t.mfg = s.mfg ∧ t.arm.tenantKeys = s.arm.tenantKeys ∧ t.arm.admin = s.arm.admin ∧ t.arm.active = s.arm.active ∧
      t.arm.unsealed = false ∧ t.nor.snap = s.nor.snap ∧ t.nor.dumps = s.nor.dumps) ∧
    (∀ found x, s.feed = false → found.norFails < 3 → (found.pgood.getD 1 true = true ∨ found.pgood.getD 2 true = true) →
      s.nor.snap = some x → ∃ t, exec (.powerOn found) s = .next t ∧ t.feed = true ∧
      t.now = 0 ∧ t.cab.opTime = x.opTime ∧ t.cab.cycles = min 0xFFFFFF (x.cycles + 1) ∧ t.cab.aCounter = x.aCounter ∧
      t.cab.marks = x.marks ∧ t.boot.first = false ∧ t.tray.cycleReason = x.reason ∧ t.panel.lidOpen = found.lidOpen)

/-- R431 to R437: S0 ends, where the board descriptor has its CRC, with the report, and S1 starts; without it the wafer fails with cause 0x02. S1
ends with hub firmware up, and the wardens start; a stage with a wafer failure, or one past its limit in S0 or S1, fails the wafer; past
the limit of S2 the fields that have not completed it are excluded. A warden's failed start is counted. -/
def Says.BringUpStages : Prop :=
  ∀ s : State, clocked s = true → s.arb.hubOff = false →
    (s.boot.failed = false → s.boot.stage ≤ 1 → stageOverdue s = false → ∀ found, found.redo = false →
      (found.waferFail = true → ∃ t, exec (.stageComplete found) s = .next t ∧ t.boot.failed = true ∧ t.boot.stage = s.boot.stage ∧
        t.svc.romOnly = decide (found.cause ≠ 1)) ∧
      (found.waferFail = false → s.boot.stage = 0 → boardGood s = true → ∃ t, exec (.stageComplete found) s = .next t ∧
        t.boot.stage = 1 ∧ t.boot.failed = false ∧ t.boot.started = t.now) ∧
      (found.waferFail = false → s.boot.stage = 0 → boardGood s = false → ∃ t, exec (.stageComplete found) s = .next t ∧
        t.boot.stage = 0 ∧ t.boot.failed = true ∧ t.svc.romOnly = true) ∧
      (found.waferFail = false → s.boot.stage = 1 → ∃ t, exec (.stageComplete found) s = .next t ∧ t.boot.stage = 2 ∧
        t.boot.s1 = true ∧ t.hang.fwUp = true ∧ t.arm.unsealed = found.unsealed ∧
        ∀ f, f < 84 → (fieldOf s f).excluded = false → (fieldOf s f).zoneDown = false →
          (fieldOf t f).stage = 2 ∧ (f % 2 = 0 → (fieldOf t f).warden = .starting))) ∧
    (s.boot.failed = false → s.boot.reported = false → stageOverdue s = true → s.boot.stage ≤ 1 →
      ∃ t, exec .stageTimeout s = .next t ∧ t.boot.failed = true) ∧
    (s.boot.failed = false → s.boot.reported = false → stageOverdue s = true → s.boot.stage = 2 → ∃ t, exec .stageTimeout s = .next t ∧ t.boot.stage = 3 ∧
      ∀ f, f < 84 → (fieldOf s f).stage = 2 → (fieldOf t f).excluded = true) ∧
    (∀ f, f < 84 → (fieldOf s f).warden = .starting → (fieldOf s f).excluded = false → (fieldOf s f).starts < 2 → exec (.wardenStartFail f) s =
      .next (setField s f { fieldOf s f with starts := (fieldOf s f).starts + 1 }))

/-- R439, R446, R447: a wave takes the first candidates, as many as the power limit allows: they leave service for S4, those with a program loaded
are deferred, and fields that may join take the room they leave. -/
def Says.WaveStarts : Prop :=
  ∀ (s : State) (w : Nat), clocked s = true → s.hang.fwUp = true → s.boot.failed = false → 4 ≤ s.boot.stage → s.boot.inWave = [] →
    s.boot.redo = [] → w = waveLimit s (s.boot.pendingFields ++ joiners s) → 1 ≤ w →
    (∃ f ∈ s.boot.pendingFields.take w, fieldLoaded s f = false) → ∀ own,
    own = (s.boot.pendingFields.take w).filter (fun f => !fieldLoaded s f) →
    ∃ t, exec .waveStart s = .next t ∧ t.boot.inWave = own ++ (joiners s).take (w - own.length) ∧ t.boot.waveStage = 4 ∧
      t.boot.wave = s.boot.wave + 1 ∧ (∀ f ∈ t.boot.inWave, (fieldOf t f).stage = 4 ∧ f ∉ t.boot.pendingFields) ∧
      ∀ f ∈ s.boot.pendingFields.take w, fieldLoaded s f = true → (fieldOf t f).deferred = true ∧ f ∉ t.boot.pendingFields

/-- Bring-up stages and waves. -/
def Obligations.BringUpRows : Prop := Says.BringUpStages ∧ Says.WaveStarts

/-! ### Frames: what each command leaves alone -/

/-- The parts of State that each command may change; every other part stays. -/
def changes : Instr → Mask
  | .sqDoorbell .. => { fe := true }
  | .cqDoorbell .. => { fe := true }
  | .commandFetch .. => { fe := true, nor := true, arm := true, fields := true, out := true, status := true, arrivals := true, aCounter := true }
  | .orderedCommandStart .. => { fe := true, fields := true, out := true }
  | .fwCommandDispatch => { fe := true, fields := true }
  | .operationOutcome .. => { fe := true, out := true }
  | .nop .. => { fe := true, out := true }
  | .fence .. => { fe := true, out := true }
  | .mapGridLoad .. => { free := true, fe := true, nor := true, cab := true, hutch := true, parts := true, fields := true, guards := true, tiles := true, boot := true, out := true, status := true, arrivals := true }
  | .mapGridDefine .. => { fe := true, nor := true, cab := true, parts := true, fields := true, guards := true, out := true }
  | .unmapUnload .. => { fe := true, hutch := true, parts := true, fields := true, guards := true, tiles := true, groups := true, side := true, hang := true, boot := true, sched := true, sig := true, out := true, arrivals := true }
  | .unmapDissolve .. => { fe := true, hutch := true, parts := true, fields := true, guards := true, tiles := true, groups := true, side := true, hang := true, sched := true, sig := true, out := true, arrivals := true }
  | .queryMap .. => { fe := true, out := true }
  | .checkPolicy .. => { fe := true, parts := true, fields := true, guards := true, out := true }
  | .spotRate .. => { fe := true, parts := true, fields := true, guards := true, out := true }
  | .redundancy .. => { fe := true, parts := true, fields := true, out := true }
  | .replayPolicy .. => { fe := true, parts := true, fields := true, guards := true, out := true }
  | .digestDefine .. => { fe := true, side := true, out := true }
  | .digestDefineReadDone .. => { fe := true, side := true, out := true }
  | .digestCompare .. => { fe := true, side := true, out := true }
  | .expel .. => { free := true, fe := true, side := true, out := true, arrivals := true }
  | .benchSchedule .. => { fe := true, sched := true, out := true }
  | .benchRun .. => { fe := true, fields := true, sched := true, out := true }
  | .benchResult .. => { fe := true, out := true }
  | .quarantine .. => { fe := true, cab := true, hutch := true, parts := true, fields := true, guards := true, side := true, hang := true, arb := true, sched := true, sig := true, out := true, status := true, arrivals := true }
  | .release .. => { fe := true, hutch := true, parts := true, fields := true, guards := true, hang := true, arb := true, sched := true, out := true, arrivals := true }
  | .spareStatus .. => { fe := true, out := true }
  | .sigExport .. => { fe := true, out := true }
  | .reset .. => { fe := true, fields := true, hang := true, boot := true, out := true }
  | .heartbeatCfg .. => { fe := true, hang := true, out := true }
  | .logOpen .. => { fe := true, cab := true, out := true }
  | .logClear .. => { fe := true, nor := true, cab := true, out := true, arrivals := true }
  | .dumpFetch .. => { fe := true, nor := true, out := true }
  | .powerCap .. => { fe := true, parts := true, fields := true, arb := true, out := true, arrivals := true, cap := true }
  | .opmode .. => { fe := true, parts := true, out := true }
  | .thermalRead .. => { fe := true, fields := true, arb := true, out := true, status := true, arrivals := true }
  | .counterLatch .. => { fe := true, fields := true, tiles := true, out := true }
  | .latchOutputDone .. => { fe := true, fields := true, tiles := true, out := true }
  | .counterFreeze .. => { fe := true, parts := true, fields := true, out := true, arrivals := true }
  | .freezeTrigger .. => { fe := true, parts := true, fields := true, tiles := true, out := true, arrivals := true }
  | .traceCfg .. => { fe := true, parts := true, fields := true, guards := true, out := true }
  | .timeAlign .. => { fe := true, parts := true, lanes := true, out := true }
  | .timeAlignTreeStable .. => { fe := true, parts := true, out := true, arrivals := true }
  | .barrierArm .. => { fe := true, parts := true, out := true }
  | .tenantScrub .. => { fe := true, hutch := true, parts := true, fields := true, guards := true, side := true, sched := true, sig := true, out := true, arrivals := true }
  | .scrubComplete .. => { fe := true, nor := true, cab := true, hutch := true, fields := true, guards := true, tiles := true, out := true, status := true, arrivals := true }
  | .keyLoad .. => { fe := true, nor := true, cab := true, arm := true, hutch := true, out := true, status := true, arrivals := true }
  | .alarmAck .. => { fe := true, arm := true, out := true, status := true, arrivals := true }
  | .legacyFmtWrite .. => { regs := true }
  | .statusIrqWrite .. => { regs := true }
  | .wallclockLoWrite .. => { regs := true }
  | .wallclockHiWrite .. => { regs := true, arrivals := true }
  | .hostHbWrite .. => { hang := true }
  | .logAdvWrite .. => { cab := true }
  | .logWindowReady .. => { cab := true }
  | .logLostClear .. => { cab := true }
  | .counterLowRead .. => { regs := true }
  | .dbBadClear .. => { fe := true }
  | .queueEnable .. => { fe := true }
  | .queueDisable .. => { fe := true }
  | .registerWrite .. => { fe := true, regs := true, cab := true, hang := true, arrivals := true }
  | .queueFault .. => { hang := true }
  | .smbStatusClr .. => { status := true }
  | .smbQuiesce .. => { fe := true, hang := true }
  | .smbLocate .. => { panel := true }
  | .smbCapLimit .. => { capCeil := true, arrivals := true }
  | .alertResponse .. => { status := true }
  | .smbClockTimeout => { tray := true }
  | .pinReadbackSample .. => { tray := true, out := true, status := true, arrivals := true }
  | .pinRetry .. => { tray := true, status := true, arrivals := true }
  | .attnStuck => { tray := true, panel := true, out := true, status := true, arrivals := true }
  | .attnFaultRecover => { tray := true, status := true }
  | .buttonPress => { panel := true }
  | .buttonShortRelease => { panel := true }
  | .buttonHold4s => { fe := true, panel := true, hang := true }
  | .buttonHold10s => { panel := true, hang := true }
  | .lidChange .. => { panel := true, arm := true, out := true, status := true, arrivals := true }
  | .supplyGlitch => { arm := true, out := true, status := true, arrivals := true }
  | .clockGlitch => { arm := true, out := true, status := true, arrivals := true }
  | .pwrcycTimeout => { tray := true, status := true, arrivals := true }
  | .cycleRequest => { tray := true, nor := true, cab := true, hutch := true, hang := true, out := true, status := true, arrivals := true }
  | .powerOn .. => { feed := true, now := true, tray := true, panel := true, nor := true, cab := true, arm := true, hutch := true, fields := true, arb := true, boot := true, out := true, status := true, arrivals := true, aCounter := true }
  | .zonePgoodLoss .. => { free := true, feed := true, now := true, fe := true, regs := true, tray := true, panel := true, nor := true, cab := true, drawer := true, arm := true, svc := true, hutch := true, parts := true, fields := true, guards := true, tiles := true, groups := true, side := true, lanes := true, hang := true, arb := true, boot := true, sched := true, sig := true, storms := true, out := true, status := true, capCeil := true, arrivals := true, aCounter := true, gens := true, cap := true }
  | .zonePgoodReturn .. => { fields := true, arb := true, boot := true, arrivals := true }
  | .refClockLoss => { tray := true, hang := true, out := true, status := true }
  | .refClockRestore => { tray := true, hang := true }
  | .zoneTrip .. => { parts := true, fields := true, guards := true, hang := true, arb := true, boot := true, out := true, status := true, arrivals := true }
  | .hubTrip => { fe := true, regs := true, tray := true, cab := true, arm := true, svc := true, hutch := true, parts := true, fields := true, side := true, hang := true, arb := true, sched := true, sig := true, out := true, status := true, capCeil := true, cap := true }
  | .tripRestart .. => { free := true, arm := true, fields := true, hang := true, arb := true, arrivals := true, gens := true }
  | .usbConnect => { svc := true, out := true }
  | .svcSessionEnd .. => { svc := true, arrivals := true }
  | .consoleAuth .. => { free := true, arm := true, svc := true, out := true, status := true, arrivals := true }
  | .consoleStatus => { out := true }
  | .consoleLog .. => { out := true }
  | .consoleRing .. => { out := true }
  | .consoleDump .. => { out := true }
  | .consoleAlarmAck .. => { arm := true, out := true, status := true, arrivals := true }
  | .consoleAlarmPolicy .. => { arm := true, out := true }
  | .consolePanelPolicy .. => { arm := true, out := true }
  | .consoleAdminkey .. => { arm := true, out := true, arrivals := true }
  | .consoleIdentity .. => { free := true, arm := true, svc := true, out := true }
  | .consoleSvckey .. => { arm := true, out := true }
  | .consoleBoard .. => { nor := true, out := true }
  | .pmbusSlot .. => { fields := true, arb := true, out := true, status := true, arrivals := true }
  | .pmbusSegmentRetry .. => { arb := true }
  | .norFail .. => { cab := true, out := true, status := true, arrivals := true }
  | .norRetry .. => { tray := true, nor := true, cab := true, drawer := true, hutch := true, out := true, status := true, arrivals := true }
  | .recordArrival .. => { arrivals := true }
  | .recordCommit .. => { nor := true, cab := true, hutch := true, out := true, status := true, arrivals := true }
  | .sectorReclaim => { nor := true, cab := true, hutch := true, out := true, status := true, arrivals := true }
  | .snapshotTimer => { nor := true }
  | .operatingTimeTick => { cab := true }
  | .meterIntervalEnd => { cab := true, arrivals := true }
  | .journalFold .. => { nor := true, cab := true, hutch := true, out := true, status := true, arrivals := true }
  | .journalEntryWrite .. => { nor := true, cab := true, hutch := true, out := true, status := true, arrivals := true }
  | .deferredRecordsResume => { arrivals := true }
  | .probeSend .. => { lanes := true, out := true }
  | .probeReceive .. => { lanes := true, out := true }
  | .echoReceive .. => { lanes := true, arrivals := true }
  | .armReceive .. => { parts := true, out := true }
  | .releaseReceive .. => { parts := true, out := true }
  | .laneSyncLoss .. => { lanes := true, arrivals := true }
  | .laneSyncRegain .. => { lanes := true, arrivals := true }
  | .parentLoss .. => { parts := true, arrivals := true }
  | .barrierRelease .. => { fe := true, parts := true, fields := true, out := true, arrivals := true }
  | .barrierTimeout .. => { hang := true }
  | .contractionEnd .. => { fields := true, guards := true, tiles := true }
  | .exportAttempt .. => { fields := true, guards := true, tiles := true, out := true }
  | .sramOwnWrite .. => { hutch := true, fields := true, guards := true, tiles := true, side := true, arrivals := true }
  | .meshWriteReceive .. => { hutch := true, fields := true, guards := true, tiles := true, side := true, arrivals := true }
  | .withheldMarkerReceive .. => { fields := true, guards := true, tiles := true }
  | .recallMarkerReceive .. => { fields := true, guards := true, tiles := true }
  | .tileSeamReach .. => { fields := true, guards := true, out := true }
  | .fieldSeamArrival .. => { fe := true, hutch := true, parts := true, fields := true, guards := true, tiles := true, groups := true, side := true, hang := true, sched := true, sig := true, out := true, arrivals := true }
  | .replayGroupStart .. => { hutch := true, parts := true, fields := true, guards := true, groups := true, hang := true, sched := true, sig := true, out := true, arrivals := true }
  | .replayVerdict .. => { hutch := true, parts := true, fields := true, guards := true, tiles := true, groups := true, hang := true, sched := true, sig := true, out := true, arrivals := true }
  | .imageCopyDone .. => { hutch := true, parts := true, fields := true, guards := true, groups := true, hang := true, sched := true, sig := true, out := true, arrivals := true }
  | .spareReplayVerdict .. => { hutch := true, parts := true, fields := true, guards := true, tiles := true, groups := true, hang := true, sched := true, sig := true, out := true, arrivals := true }
  | .replayAbandoned .. => { parts := true, fields := true, guards := true, groups := true, hang := true, arrivals := true }
  | .idleVersionDrained .. => { fields := true, groups := true, out := true }
  | .fieldRelease .. => { fe := true, hutch := true, parts := true, fields := true, guards := true, tiles := true, groups := true, side := true, hang := true, arb := true, boot := true, sched := true, sig := true, out := true, arrivals := true }
  | .snapshotDone .. => { fields := true, guards := true }
  | .spotCheckVerdict .. => { hutch := true, parts := true, fields := true, guards := true, hang := true, sched := true, arrivals := true }
  | .errorSourceLatch .. => { free := true, hutch := true, parts := true, fields := true, guards := true, hang := true, out := true, arrivals := true }
  | .sourceAcknowledge .. => { free := true, hutch := true, parts := true, fields := true, guards := true, hang := true, arrivals := true }
  | .eccCorrectedNotice .. => { hutch := true, fields := true, guards := true, tiles := true, arrivals := true }
  | .eccUncorrectable .. => { free := true, hutch := true, fields := true, guards := true, arrivals := true }
  | .scrubUncorrectable .. => { free := true, hutch := true, parts := true, fields := true, guards := true, hang := true, arrivals := true }
  | .scrubPassDone .. => { side := true, arrivals := true }
  | .episodeClose .. => { fields := true, arrivals := true }
  | .rateSummary .. => { fields := true, arrivals := true }
  | .stormClose .. => { fields := true, storms := true }
  | .stormMergeCommit => { storms := true, arrivals := true }
  | .signatureSigned => { hutch := true, sig := true, arrivals := true }
  | .droopDetect .. => { fields := true, arb := true, out := true, arrivals := true }
  | .seamOverrun .. => { parts := true, fields := true, guards := true, hang := true }
  | .deadlock .. => { parts := true, fields := true, guards := true, hang := true }
  | .barrierWaitLimit .. => { hang := true }
  | .linkResendThreshold .. => { hutch := true, parts := true, fields := true, guards := true, hang := true, arrivals := true }
  | .wardenSlotParity .. => { hutch := true, fields := true, arrivals := true }
  | .wardenHeartbeat .. => { fields := true }
  | .wardenHeartbeatMiss .. => { parts := true, fields := true, guards := true, hang := true, arrivals := true }
  | .wardenRestartDone .. => { fields := true }
  | .wardenRestartTimeout .. => { parts := true, fields := true, guards := true, hang := true, arrivals := true }
  | .hubWatchdogFire => { free := true, tray := true, drawer := true, hang := true, out := true, status := true, arrivals := true }
  | .hubRestart => { fe := true, parts := true, fields := true, guards := true, side := true, hang := true, arb := true, boot := true, out := true, arrivals := true, gens := true }
  | .watchdogCountClear => { hang := true }
  | .hostLoss => { fe := true, hang := true, arrivals := true }
  | .quiesceComplete => { nor := true, cab := true, hutch := true, hang := true, out := true, status := true, arrivals := true }
  | .resetStart => { free := true, fe := true, drawer := true, hutch := true, parts := true, fields := true, guards := true, tiles := true, groups := true, side := true, hang := true, sched := true, sig := true, out := true, status := true, arrivals := true, gens := true }
  | .resetComplete .. => { fe := true, drawer := true, hutch := true, parts := true, fields := true, guards := true, tiles := true, groups := true, side := true, hang := true, arb := true, boot := true, sched := true, sig := true, out := true, arrivals := true }
  | .resetEscalate .. => { hang := true }
  | .staleRecordTimer .. => { hang := true, arrivals := true }
  | .staleMessageDrop .. => { hang := true }
  | .dumpWriteDone .. => { fe := true, nor := true, cab := true, drawer := true, hutch := true, out := true, status := true, arrivals := true }
  | .estimatePeriod .. => { fields := true, arb := true }
  | .arbiterReplan => { parts := true, fields := true, arb := true, arrivals := true }
  | .freqChangeEnd .. => { fields := true }
  | .droopLockoutEnd .. => { fields := true }
  | .thermalModelUpdate .. => { fields := true, arb := true, out := true, status := true, arrivals := true }
  | .thermalThrottleReplan => { parts := true, fields := true, arb := true }
  | .diodeRotation .. => { fields := true, arb := true }
  | .diodeReadDone .. => { fields := true, arb := true, out := true, status := true, arrivals := true }
  | .fieldShutdown .. => { parts := true, fields := true, guards := true, arb := true, arrivals := true }
  | .shutdownProceed .. => { parts := true, fields := true, guards := true, hang := true, arb := true, arrivals := true }
  | .thermalRestart .. => { fields := true, arb := true, arrivals := true }
  | .benchSegmentEnd .. => { fe := true, hutch := true, parts := true, fields := true, guards := true, hang := true, arb := true, sched := true, sig := true, out := true, arrivals := true }
  | .benchSlotStart .. => { fields := true, guards := true, arrivals := true }
  | .benchIdleWindow .. => { fields := true, guards := true, out := true }
  | .benchOverdue .. => { sched := true, arrivals := true }
  | .benchDroopLockoutEnd .. => { fields := true }
  | .digestIntervalBoundary .. => { side := true, out := true }
  | .exchangeRecordReceive .. => { side := true }
  | .comparisonClose .. => { free := true, fe := true, nor := true, parts := true, side := true, sig := true, out := true, arrivals := true }
  | .reverifyDone .. => { free := true, fe := true, parts := true, fields := true, guards := true, side := true, hang := true, sig := true, out := true, arrivals := true }
  | .computeCmdBoundary .. => { fields := true, tiles := true }
  | .stageComplete .. => { free := true, tray := true, nor := true, cab := true, arm := true, svc := true, hutch := true, parts := true, fields := true, guards := true, lanes := true, hang := true, arb := true, boot := true, out := true, status := true, arrivals := true }
  | .stageTimeout => { nor := true, cab := true, svc := true, hutch := true, fields := true, boot := true, out := true, status := true, arrivals := true }
  | .waveStart => { nor := true, fields := true, arb := true, boot := true, out := true, status := true, arrivals := true }
  | .wardenStartFail .. => { nor := true, cab := true, hutch := true, fields := true, boot := true, out := true, status := true, arrivals := true }
  | .hubHeartbeatToggle => { drawer := true, hang := true, arrivals := true }
  | .hubFeedLoss => { free := true, feed := true, now := true, fe := true, regs := true, tray := true, panel := true, nor := true, cab := true, drawer := true, arm := true, svc := true, hutch := true, parts := true, fields := true, guards := true, tiles := true, groups := true, side := true, lanes := true, hang := true, arb := true, boot := true, sched := true, sig := true, storms := true, out := true, status := true, capCeil := true, arrivals := true, aCounter := true, gens := true, cap := true }
  | .buttonLongRelease => { panel := true }
  | .laneFrameCrcDiscard .. => { lanes := true }
  | .heldActionBlinkEnd => { panel := true }

/-- The commands of the queues, from the fetch of an entry to its outcome. -/
def queueRow : Instr → Bool
  | .commandFetch .. | .orderedCommandStart .. | .fwCommandDispatch | .operationOutcome .. | .nop .. | .fence ..
  | .mapGridLoad .. | .mapGridDefine .. | .unmapUnload .. | .unmapDissolve .. | .queryMap .. | .checkPolicy .. | .spotRate ..
  | .redundancy .. | .replayPolicy .. | .digestDefine .. | .digestDefineReadDone .. | .digestCompare .. | .expel ..
  | .benchSchedule .. | .benchRun .. | .benchResult .. | .quarantine .. | .release .. | .spareStatus .. | .sigExport ..
  | .reset .. | .heartbeatCfg .. | .logOpen .. | .logClear .. | .dumpFetch .. | .powerCap .. | .opmode .. | .thermalRead ..
  | .counterLatch .. | .latchOutputDone .. | .counterFreeze .. | .freezeTrigger .. | .traceCfg .. | .timeAlign ..
  | .timeAlignTreeStable .. | .barrierArm .. | .tenantScrub .. | .scrubComplete .. | .keyLoad .. | .alarmAck .. => true
  | _ => false

/-- The rows of the aperture, tray, panel, service port and Cabinet. -/
def hubRow : Instr → Bool
  | .sqDoorbell .. | .cqDoorbell .. | .legacyFmtWrite .. | .statusIrqWrite .. | .wallclockLoWrite .. | .wallclockHiWrite ..
  | .hostHbWrite .. | .logAdvWrite .. | .logWindowReady .. | .logLostClear .. | .counterLowRead .. | .dbBadClear ..
  | .queueEnable .. | .queueDisable .. | .registerWrite .. | .queueFault .. | .smbStatusClr .. | .smbQuiesce .. | .smbLocate ..
  | .smbCapLimit .. | .alertResponse .. | .smbClockTimeout | .pinReadbackSample .. | .pinRetry .. | .attnStuck
  | .attnFaultRecover | .buttonPress | .buttonShortRelease | .buttonHold4s | .buttonHold10s | .lidChange .. | .supplyGlitch
  | .clockGlitch | .pwrcycTimeout | .cycleRequest | .usbConnect | .svcSessionEnd .. | .consoleAuth .. | .consoleStatus
  | .consoleLog .. | .consoleRing .. | .consoleDump .. | .consoleAlarmAck .. | .consoleAlarmPolicy .. | .consolePanelPolicy ..
  | .consoleAdminkey .. | .consoleIdentity .. | .consoleSvckey .. | .consoleBoard .. | .norFail .. | .norRetry ..
  | .recordArrival .. | .recordCommit .. | .sectorReclaim | .snapshotTimer | .operatingTimeTick | .meterIntervalEnd
  | .journalFold .. | .journalEntryWrite .. | .deferredRecordsResume | .buttonLongRelease | .heldActionBlinkEnd => true
  | _ => false

/-- R85, R93 and the rules of each opcode: a queue command that answers a next state changes no part of State outside those that `changes` lists. -/
def Obligations.FrameOfQueueCommands : Prop :=
  ∀ (i : Instr) (s t : State), queueRow i = true → exec i s = .next t → erase (changes i) t = erase (changes i) s

/-- The same for the rows of the aperture, the tray interface, the panel, the service port and the Cabinet. -/
def Obligations.FrameOfHubRows : Prop :=
  ∀ (i : Instr) (s t : State), hubRow i = true → exec i s = .next t → erase (changes i) t = erase (changes i) s

/-- The same for the events of tiles, fields, wardens, lanes, power, heat, the Bench, resets and bring-up. -/
def Obligations.FrameOfWaferEvents : Prop :=
  ∀ (i : Instr) (s t : State), queueRow i = false → hubRow i = false → exec i s = .next t →
    erase (changes i) t = erase (changes i) s

/-- R82, R98, R206, R280, R363 and R334, R332: a setting of a partition changes that partition and the fields of it alone: no other partition, no other field,
and of its own partition neither the tenant nor the rectangle nor the program. The log rows of a tenant leave every other tenant's
cursor alone. -/
def Obligations.SettingsStayApart : Prop :=
  (∀ (i : Instr) (s t : State) (q e : Nat) (c : Cmd) (x : Part), findCmd s q e = some c → partOf s c.part = some x →
    i ∈ [.checkPolicy q e, .spotRate q e, .redundancy q e, .replayPolicy q e, .opmode q e, .traceCfg q e] → exec i s = .next t →
    (∀ p, p ≠ c.part → partOf t p = partOf s p) ∧ (∀ f, partHas x f = false → fieldOf t f = fieldOf s f) ∧
    ∃ y, partOf t c.part = some y ∧ y.tenant = x.tenant ∧ partFields y = partFields x ∧ y.prog = x.prog) ∧
  (∀ (i : Instr) (s t : State) (n : Nat) (v : Word), i ∈ [.logAdvWrite n v, .logLostClear n v, .logWindowReady n] →
    exec i s = .next t → ∀ m, m ≠ n → cursorOf t m = cursorOf s m) ∧
  (∀ (s t : State) (q e : Nat) (c : Cmd), findCmd s q e = some c → exec (.logOpen q e) s = .next t →
    ∀ m, m ≠ c.tenant → cursorOf t m = cursorOf s m)
end

