-- ==== Sys2Proof/WellFormed.lean ====
section
/-! DEFINITION. Well-formed commands: every operand lies in the range that the spec gives it (queue slots 0-127, submission
entries below 4,096, tenants 0-15, fields 0-83 (84 is the hub where diodes are meant), partitions 0-15, lanes 0-63, commands of 16 words). -/

namespace Sys2Proof

/-- A 64 KiB unit of the NOR's Drawer slots, where one is named (Table 12.1). -/
def drawerUnit (bad : Option Nat) : Bool :=
  match bad with
  | some u => decide (1536 ≤ u) && decide (u < 1920)
  | none => true

/-- A unit of its configuration region, where one is named. -/
def configUnit (bad : Option Nat) : Bool :=
  match bad with
  | some u => decide (1920 ≤ u) && decide (u < 2048)
  | none => true

/-- The operands lie in their ranges. -/
def Instr.wf (i : Instr) : Bool :=
  match i with
  | .sqDoorbell t qnum _ => decide (t < 16) && decide (qnum < 8)
  | .cqDoorbell t qnum _ => decide (t < 16) && decide (qnum < 8)
  | .commandFetch q words => decide (q < 128) && decide (words.length = 16)
  | .orderedCommandStart q e => decide (q < 128) && decide (e < 4096)
  | .fwCommandDispatch => true
  | .operationOutcome _ => true
  | .nop q e => decide (q < 128) && decide (e < 4096)
  | .fence q e => decide (q < 128) && decide (e < 4096)
  | .mapGridLoad q e _ => decide (q < 128) && decide (e < 4096)
  | .mapGridDefine q e => decide (q < 128) && decide (e < 4096)
  | .unmapUnload q e => decide (q < 128) && decide (e < 4096)
  | .unmapDissolve q e => decide (q < 128) && decide (e < 4096)
  | .queryMap q e => decide (q < 128) && decide (e < 4096)
  | .checkPolicy q e => decide (q < 128) && decide (e < 4096)
  | .spotRate q e => decide (q < 128) && decide (e < 4096)
  | .redundancy q e => decide (q < 128) && decide (e < 4096)
  | .replayPolicy q e => decide (q < 128) && decide (e < 4096)
  | .digestDefine q e masks => decide (q < 128) && decide (e < 4096) && decide (masks.length ≤ 10000)
  | .digestDefineReadDone q e _ => decide (q < 128) && decide (e < 4096)
  | .digestCompare q e => decide (q < 128) && decide (e < 4096)
  | .expel q e => decide (q < 128) && decide (e < 4096)
  | .benchSchedule q e => decide (q < 128) && decide (e < 4096)
  | .benchRun q e => decide (q < 128) && decide (e < 4096)
  | .benchResult q e => decide (q < 128) && decide (e < 4096)
  | .quarantine q e => decide (q < 128) && decide (e < 4096)
  | .release q e => decide (q < 128) && decide (e < 4096)
  | .spareStatus q e => decide (q < 128) && decide (e < 4096)
  | .sigExport q e => decide (q < 128) && decide (e < 4096)
  | .reset q e => decide (q < 128) && decide (e < 4096)
  | .heartbeatCfg q e => decide (q < 128) && decide (e < 4096)
  | .logOpen q e => decide (q < 128) && decide (e < 4096)
  | .logClear q e => decide (q < 128) && decide (e < 4096)
  | .dumpFetch q e => decide (q < 128) && decide (e < 4096)
  | .powerCap q e => decide (q < 128) && decide (e < 4096)
  | .opmode q e => decide (q < 128) && decide (e < 4096)
  | .thermalRead q e _ => decide (q < 128) && decide (e < 4096)
  | .counterLatch q e => decide (q < 128) && decide (e < 4096)
  | .latchOutputDone q e => decide (q < 128) && decide (e < 4096)
  | .counterFreeze q e => decide (q < 128) && decide (e < 4096)
  | .freezeTrigger p cuts => decide (p < 16) && cuts.all (fun c => decide (c.f < 84))
  | .traceCfg q e => decide (q < 128) && decide (e < 4096)
  | .timeAlign q e => decide (q < 128) && decide (e < 4096)
  | .timeAlignTreeStable p _ => decide (p < 16)
  | .barrierArm q e => decide (q < 128) && decide (e < 4096)
  | .tenantScrub q e => decide (q < 128) && decide (e < 4096)
  | .scrubComplete _ _ _ => true
  | .keyLoad q e _ => decide (q < 128) && decide (e < 4096)
  | .alarmAck q e => decide (q < 128) && decide (e < 4096)
  | .legacyFmtWrite t _ => decide (t < 16)
  | .statusIrqWrite t _ => decide (t < 16)
  | .wallclockLoWrite t _ => decide (t < 16)
  | .wallclockHiWrite t _ => decide (t < 16)
  | .hostHbWrite t _ => decide (t < 16)
  | .logAdvWrite t _ => decide (t < 16)
  | .logWindowReady t => decide (t < 16)
  | .logLostClear t _ => decide (t < 16)
  | .counterLowRead t offset => decide (t < 16) && decide (offset < 65536)
  | .dbBadClear t qnum _ => decide (t < 16) && decide (qnum < 8)
  | .queueEnable t n _ => decide (t < 16) && decide (n < 128)
  | .queueDisable t n _ => decide (t < 16) && decide (n < 128)
  | .registerWrite t offset _ _ => decide (t < 16) && decide (offset < 65536)
  | .queueFault q => decide (q < 128)
  | .smbStatusClr _ _ => true
  | .smbQuiesce _ _ => true
  | .smbLocate _ _ => true
  | .smbCapLimit _ _ => true
  | .alertResponse _ => true
  | .smbClockTimeout => true
  | .pinReadbackSample _ _ => true
  | .pinRetry _ _ => true
  | .attnStuck => true
  | .attnFaultRecover => true
  | .buttonPress => true
  | .buttonShortRelease => true
  | .buttonHold4s => true
  | .buttonHold10s => true
  | .lidChange _ => true
  | .supplyGlitch => true
  | .clockGlitch => true
  | .pwrcycTimeout => true
  | .cycleRequest => true
  | .powerOn _ => true
  | .zonePgoodLoss z => decide (z < 8)
  | .zonePgoodReturn z => decide (z < 8)
  | .refClockLoss => true
  | .refClockRestore => true
  | .zoneTrip z => decide (z < 8)
  | .hubTrip => true
  | .tripRestart _ _ => true
  | .usbConnect => true
  | .svcSessionEnd _ => true
  | .consoleAuth _ => true
  | .consoleStatus => true
  | .consoleLog _ => true
  | .consoleRing _ _ => true
  | .consoleDump slot => decide (slot < 3)
  | .consoleAlarmAck _ => true
  | .consoleAlarmPolicy source action => decide (source < 4) && decide (action < 4)
  | .consolePanelPolicy _ => true
  | .consoleAdminkey _ => true
  | .consoleIdentity _ => true
  | .consoleSvckey _ _ => true
  | .consoleBoard _ => true
  | .pmbusSlot seg _ _ => decide (seg < 8)
  | .pmbusSegmentRetry seg _ => decide (seg < 8)
  | .norFail _ _ => true
  | .norRetry _ => true
  | .recordArrival _ => true
  | .recordCommit _ => true
  | .sectorReclaim => true
  | .snapshotTimer => true
  | .operatingTimeTick => true
  | .meterIntervalEnd => true
  | .journalFold bad => configUnit bad
  | .journalEntryWrite bad => configUnit bad
  | .deferredRecordsResume => true
  | .probeSend lane => decide (lane < 64)
  | .probeReceive lane seqNo payload _ => decide (lane < 64) && decide (seqNo < 16) && decide (payload < 2 ^ 40)
  | .echoReceive lane seqNo payload => decide (lane < 64) && decide (seqNo < 16) && decide (payload < 2 ^ 40)
  | .armReceive lane barrier => decide (lane < 64) && decide (barrier < 65536)
  | .releaseReceive lane _ => decide (lane < 64)
  | .laneSyncLoss lane => decide (lane < 64)
  | .laneSyncRegain lane => decide (lane < 64)
  | .parentLoss p => decide (p < 16)
  | .barrierRelease p _ => decide (p < 16)
  | .barrierTimeout p => decide (p < 16)
  | .contractionEnd _ => true
  | .exportAttempt _ => true
  | .sramOwnWrite tile row _ _ _ _ _ => decide (tile < 2 ^ 24) && decide (row < 1024)
  | .meshWriteReceive tile row _ => decide (tile < 2 ^ 24) && decide (row < 1024)
  | .withheldMarkerReceive tile _ edge _ => decide (tile < 2 ^ 24) && decide (edge < 4)
  | .recallMarkerReceive tile _ edge => decide (tile < 2 ^ 24) && decide (edge < 4)
  | .tileSeamReach tile _ checkpoint _ => decide (tile < 2 ^ 24) && decide (checkpoint.length = 64)
  | .fieldSeamArrival f _ _ => decide (f < 84)
  | .replayGroupStart f => decide (f < 84)
  | .replayVerdict _ _ => true
  | .imageCopyDone f target _ _ _ => decide (f < 84) && decide (target < 10000)
  | .spareReplayVerdict _ _ => true
  | .replayAbandoned _ => true
  | .idleVersionDrained f => decide (f < 84)
  | .fieldRelease f _ => decide (f < 84)
  | .snapshotDone f tile => decide (f < 84) && decide (tile < 10000)
  | .spotCheckVerdict f tile _ => decide (f < 84) && decide (tile < 10000)
  | .errorSourceLatch f _ _ _ => decide (f < 84)
  | .sourceAcknowledge f => decide (f < 84)
  | .eccCorrectedNotice tile row bit => decide (tile < 2 ^ 24) && decide (row < 1024) && decide (bit < 512)
  | .eccUncorrectable tile row _ _ => decide (tile < 2 ^ 24) && decide (row < 1024)
  | .scrubUncorrectable tile row => decide (tile < 2 ^ 24) && decide (row < 1024)
  | .scrubPassDone t ctx _ => decide (t < 16) && decide (ctx < 131072)
  | .episodeClose f => decide (f < 84)
  | .rateSummary f => decide (f < 84)
  | .stormClose f => decide (f < 84)
  | .stormMergeCommit => true
  | .signatureSigned => true
  | .droopDetect f _ _ => decide (f < 84)
  | .seamOverrun f _ => decide (f < 84)
  | .deadlock f => decide (f < 84)
  | .barrierWaitLimit f => decide (f < 84)
  | .linkResendThreshold tile edge _ => decide (tile < 2 ^ 24) && decide (edge < 4)
  | .wardenSlotParity f slot => decide (f < 84) && decide (slot < 40)
  | .wardenHeartbeat f => decide (f < 84)
  | .wardenHeartbeatMiss f => decide (f < 84)
  | .wardenRestartDone f => decide (f < 84)
  | .wardenRestartTimeout f => decide (f < 84)
  | .hubWatchdogFire => true
  | .hubRestart => true
  | .watchdogCountClear => true
  | .hostLoss => true
  | .quiesceComplete => true
  | .resetStart => true
  | .resetComplete domain _ => decide (domain < 229)
  | .resetEscalate domain => decide (domain < 229)
  | .staleRecordTimer domain => decide (domain < 229)
  | .staleMessageDrop domain _ => decide (domain < 229)
  | .dumpWriteDone bad => drawerUnit bad
  | .estimatePeriod f _ => decide (f < 84)
  | .arbiterReplan => true
  | .freqChangeEnd f => decide (f < 84)
  | .droopLockoutEnd f => decide (f < 84)
  | .thermalModelUpdate f => decide (f ≤ 84)
  | .thermalThrottleReplan => true
  | .diodeRotation f => decide (f ≤ 84)
  | .diodeReadDone f diode _ _ => decide (f ≤ 84) && decide (diode < 4)
  | .fieldShutdown f => decide (f < 84)
  | .shutdownProceed f => decide (f < 84)
  | .thermalRestart f => decide (f < 84)
  | .benchSegmentEnd f slot _ => decide (f < 84) && decide (slot < 4)
  | .benchSlotStart f slot => decide (f < 84) && decide (slot < 4)
  | .benchIdleWindow f => decide (f < 84)
  | .benchOverdue tile => decide (tile < 2 ^ 24)
  | .benchDroopLockoutEnd f => decide (f < 84)
  | .digestIntervalBoundary t ctx => decide (t < 16) && decide (ctx < 131072)
  | .exchangeRecordReceive _ => true
  | .comparisonClose t ctx => decide (t < 16) && decide (ctx < 131072)
  | .reverifyDone t _ _ => decide (t < 16)
  | .computeCmdBoundary f _ => decide (f < 84)
  | .stageComplete _ => true
  | .stageTimeout => true
  | .waveStart => true
  | .wardenStartFail f => decide (f < 84)
  | .hubHeartbeatToggle => true
  | .hubFeedLoss => true
  | .buttonLongRelease => true
  | .laneFrameCrcDiscard lane _ => decide (lane < 64)
  | .heldActionBlinkEnd => true

end Sys2Proof
end

