-- ==== Sys2Proof/Tests/Slice0.lean ====
section
/-! SUPPORT. Tests: well-formedness refusals, worked examples of the spec, and for every statement a state and operands that meet its
hypotheses, with what the statement then says of them. -/

namespace Sys2Proof.Tests

set_option Elab.async false

open Sys2Proof Sys2Proof.Machine

/-- The next state of an outcome, the reset state where there is none. -/
def nx : Result → State
  | .next t => t
  | .fault _ => State.reset
  | .refused _ => State.reset

/-- The next state of an outcome, where there is one. -/
def got : Result → Option State
  | .next t => some t
  | .fault _ => none
  | .refused _ => none

/-- A block that is up: hub firmware runs, S1 has completed, fields 0 and 1 are in service with their wardens. -/
def up : State := { State.reset with
  boot := { s1 := true, stage := 7 }
  hang := { fwUp := true }
  fields := [(0, { stage := 7, warden := .up }), (1, { stage := 7, warden := .up })] }

/-- An enabled slot: 16 submission entries, 32 completions. -/
def slot (t q : Nat) : QSlot := { enable := true, sqLog2 := 4, cqLog2 := 5, owner := t, qnum := q }

/-- `up` with slot 0 enabled for tenant 0 and slot 1 for tenant 3. -/
def served : State := { up with fe := { slots := [(0, slot 0 0), (1, slot 3 0)] } }

/-- The 16 words of a command: opcode and flags of word 0, domain word 2, and words 3 on. -/
def cmdWords (op w2 : Nat) (ws : List Nat) : List Word :=
  ([w32 op, 0, w32 w2] ++ ws.map w32 ++ List.replicate 16 0).take 16

/-- A command of queue slot 0, entry 5, in a phase. -/
def cmdIn (ph : Phase) (op w2 : Nat) (ws : List Nat) : Cmd := { q := 0, e := 5, words := cmdWords op w2 ws, phase := ph, seqNo := 9 }

/-- A state in which that command is in flight. -/
def fly (s : State) (c : Cmd) : State := { s with fe := { s.fe with slots := [(0, slot 0 0), (1, slot 3 0)], flight := [c] } }

/-- A running command and a state that runs it. -/
def run (op w2 : Nat) (ws : List Nat) : Cmd := cmdIn .running op w2 ws
def runs (s : State) (op w2 : Nat) (ws : List Nat) : State := fly s (run op w2 ws)

/-- Partition 2 of tenant 3: the fields 0 and 1. -/
def part01 : Part := { tenant := 3, colLo := 0, colHi := 1, rowLo := 0, rowHi := 0 }
/-- A program of 10,000 cycles: one seam in the middle, one at the end. -/
def prog2 : Program := { id := 7, seams := [(0, [⟨4000, 8, false, false, false⟩, ⟨8000, 8, true, false, false⟩]), (1, [⟨4000, 8, false, false, false⟩, ⟨8000, 8, true, false, false⟩])] }
def parted : State := { up with parts := [(2, part01)] }
def loaded : State := { up with parts := [(2, { part01 with prog := some prog2 })] }

/-- A record of tenant 3 (EV_RESET) in the ring. -/
def recd : Rec := { seqNo := 5, typ := evReset, tenant := 3, body := .words [1, 2, 3, 4] }
def logged : State := { up with
  nor := { ring := [recd, { recd with seqNo := 6, tenant := 4 }] }
  hang := { fwUp := true, lossOn := true }
  cab := { cursors := [(3, { opened := true, atEnd := false, seqNo := 1 })] } }

/-- A shard of field 0 and a state that holds it. -/
def shard : Context := { tenant := 3, num := 8, part := 2, first := 0, length := 64, masks := [1], group := 4, replica := 1, ready := true, defined := 5, digest := 5, parts := [5] }
def sharded (k : Context) : State := { loaded with side := { contexts := [k] } }

/-- The outcome is the running command's completion with a status and results, and nothing else. -/
def ends (r : Result) (s : State) (op w2 : Nat) (ws : List Nat) (st : Nat) (res : List Word) : Bool :=
  got r == some (complete (runs s op w2 ws) (run op w2 ws) st res)



/-! ### Machine, aperture, front end -/

/-- `up` with a hold in progress at field 0 of partition 2. -/
def holding : State := { up with
  parts := [(2, { part01 with prog := some prog2 })]
  fields := [(0, { stage := 7, warden := .up, run := .held }), (1, { stage := 7, warden := .up })] }
theorem test_step_front : ({ up with pending := [.snapshotTimer] } : State).pending = .snapshotTimer :: [] ∧
    got (step { up with pending := [.snapshotTimer] }) = got (exec .snapshotTimer up) ∧ up.pending = [] ∧
    got (step up) = some { up with now := 1 } ∧ got (step holding) = some (chargeHolds { holding with now := 1 }) ∧
    got (step { up with hang := { refOk := false } }) = some { up with hang := { refOk := false } } := by decide +kernel

theorem test_invariants_witness : queueBytes State.reset ≤ queueCap ∧ State.reset.arb.cap = 0 ∧
    (got (step { up with pending := [.operatingTimeTick] })).isSome ∧
    (nx (step { up with pending := [.operatingTimeTick] })).pending = [] := by decide +kernel

theorem test_generations_witness : mayChangeGenerations up .buttonPress = false ∧ losesFeed up .buttonPress = false ∧
    losesFeed up (.zonePgoodLoss 1) = false ∧
    losesFeed { up with arb := { pgood := [true, true, false, true, true, true, true, true] } } (.zonePgoodLoss 1) = true ∧
    (got (exec .buttonPress up)).isSome := by decide +kernel

theorem test_doorbells : apServed served = true ∧ doorbellSlot served 3 0 = some 1 ∧ doorbellSlot served 3 1 = none ∧
    (slotOf (nx (exec (.sqDoorbell 3 0 15) served)) 1).sqTail = 15 ∧
    (slotOf (nx (exec (.sqDoorbell 3 0 16) served)) 1).dbBad = true ∧
    (slotOf (nx (exec (.cqDoorbell 3 0 31) served)) 1).cqHead = 31 ∧
    (slotOf (nx (exec (.cqDoorbell 3 0 32) served)) 1).badCount = 1 ∧
    (slotOf (nx (exec (.dbBadClear 3 0 4) (nx (exec (.cqDoorbell 3 0 32) served)))) 1).dbBad = false ∧
    got (exec (.sqDoorbell 3 1 15) served) = some served := by decide +kernel

theorem test_cfg : apServed up = true ∧ (nx (exec (.registerWrite 0 4 4 3) up)).regs.legacy = true ∧
    (nx (exec (.legacyFmtWrite 0 3) served)).regs = { legacy := false, statusIrq := true } := by decide +kernel

theorem test_wall : (nx (exec (.wallclockHiWrite 0 2) (nx (exec (.wallclockLoWrite 0 1) up)))).regs.lastCorr = some (2 ^ 33 + 1, 0) ∧
    got (exec (.wallclockHiWrite 0 2) up) = some up := by decide +kernel

theorem test_counter_reads : (15 : Nat) < 16 ∧ regRead (nx (exec (.counterLowRead 15 0x0100) { up with now := 5 * 2 ^ 32 + 1 })) 15 0x0104 = 5 ∧
    regRead (nx (exec (.counterLowRead 0 0x0114) up)) 0 0x0118 = 256 := by decide +kernel

theorem test_log_rows : visibleFrom logged 3 1 = some recd ∧
    (cursorOf (nx (exec (.logWindowReady 3) logged)) 3).seqNo = 5 ∧
    (cursorOf (nx (exec (.logWindowReady 3) logged)) 3).copy.length = 10 ∧
    (cursorOf (nx (exec (.logAdvWrite 3 1) (nx (exec (.logWindowReady 3) logged)))) 3).seqNo = 6 ∧
    (nx (exec (.hostHbWrite 0 0) logged)).hang.hostBeats = 1 ∧
    (cursorOf (nx (exec (.logLostClear 3 8) logged)) 3).lost = false := by decide +kernel

theorem test_slot_enable : (127 : Nat) < 128 ∧ (slotOf up 127).enable = false ∧
    slotOk up 127 (slotFields (slotOf up 127) (1 + 4 * 16 + 5 * 256)) = true ∧
    slotOk up 127 (slotFields (slotOf up 127) 1) = false ∧
    (slotOf (nx (exec (.queueEnable 0 127 (w32 (1 + 4 * 16 + 5 * 256))) up)) 127).enable = true ∧
    (slotOf (nx (exec (.queueEnable 0 127 1) up)) 127).cfgErr = true ∧
    got (exec (.queueDisable 0 1 0) served) = some (setSlot served 1 { slot 3 0 with enable := false, draining := false }) ∧
    (slotOf (nx (exec (.queueDisable 0 0 0) (runs up opNop 0 []))) 0).draining = true := by decide +kernel

theorem test_ignored_writes : got (exec (.registerWrite 15 0x2000 4 1) up) = some up ∧ got (exec (.registerWrite 0 0x0004 2 1) up) = some up ∧
    got (exec (.registerWrite 0 0x0304 4 1) up) = some up := by decide +kernel

theorem test_queue_fault : (slotOf served 1).enable = true ∧ domInReset served (domQueue 3 0) = false ∧
    resetAwaited served (domQueue 3 0) = false ∧
    ((nx (exec (.queueFault 1) served)).hang.requests.map (fun r => (r.level, r.dom, r.cause))) = [(0, 24, 0x0A)] := by decide +kernel

def rung : State := nx (exec (.sqDoorbell 3 0 1) served)
theorem test_fetch_hypotheses : apServed rung = true ∧ rung.boot.s1 = true ∧ (cmdWords (3 * 2 ^ 16) 0 []).length = 16 ∧
    opFw (Cmd.opcode { q := 1, e := 0, words := cmdWords (3 * 2 ^ 16) 0 [], seqNo := 1 }) = false ∧
    mayNotify { q := 1, e := 0, words := cmdWords (3 * 2 ^ 16) 0 [], seqNo := 1 } = false ∧
    (check4 rung { q := 1, e := 0, words := cmdWords (3 * 2 ^ 16) 0 [], seqNo := 1 }).1 = none ∧
    Cmd.genCheck { q := 1, e := 0, words := cmdWords (3 * 2 ^ 16) 0 [], seqNo := 1 } = false ∧
    isFence { q := 1, e := 0, words := cmdWords (3 * 2 ^ 16) 0 [], seqNo := 1 } = false ∧
    fwRoom rung 3 = true ∧ ringRoom rung 1 2 = true := by decide +kernel
theorem test_fetch : fetchTurn rung = some 1 ∧ checks123 rung (slotOf rung 1) { q := 1, e := 0, words := cmdWords (3 * 2 ^ 16) 0 [] } = none ∧
    checks123 rung (slotOf rung 1) { q := 1, e := 0, words := cmdWords (2 * 2 ^ 16) 0 [] } = some stDenied ∧
    ((nx (exec (.commandFetch 1 (cmdWords (3 * 2 ^ 16) 0 [])) rung)).fe.flight.map (·.phase)) = [.running] ∧
    (slotOf (nx (exec (.commandFetch 1 (cmdWords (3 * 2 ^ 16) 0 [])) rung)) 1).sqHead = 1 ∧
    (nx (exec (.commandFetch 1 (cmdWords (2 * 2 ^ 16) 0 [])) rung)).out.length = 1 := by decide +kernel

/-- A NOP with NOTIFY on a slot with its interrupt on; the completion ring is at its last entry. -/
def notifying (legacy : Bool) : State := { fly up (run (opNop + 2 ^ 10) 0 []) with
  regs := { legacy := legacy }
  fe := { slots := [(0, { slot 0 0 with irqEn := true, vector := 6, cqTail := 31 })], flight := [run (opNop + 2 ^ 10) 0 []] } }
theorem test_completion : (run (opNop + 2 ^ 10) 0 []).notify = true ∧ runCmd (notifying false) 0 5 opNop = some (run (opNop + 2 ^ 10) 0 []) ∧
    (nx (exec (.nop 0 5) (notifying false))).out = [.irq 0 6, .completion 0 31 [w32 (2 ^ 23), 5, 0, 0, 0, 0, 0, 0]] ∧
    (slotOf (nx (exec (.nop 0 5) (notifying false))) 0).cqTail = 0 ∧ (slotOf (nx (exec (.nop 0 5) (notifying false))) 0).pass = false ∧
    (nx (exec (.nop 0 5) (notifying true))).out.length = 2 ∧
    erase { fe := true, out := true } (nx (exec (.nop 0 5) (notifying false))) = erase { fe := true, out := true } (notifying false) := by
  decide +kernel

theorem test_nop_fence : runCmd (runs up opNop 0 []) 0 5 opNop = some (run opNop 0 []) ∧ reservedOk (run opNop 0 []) [] = true ∧
    runCmd (runs up opFence 0 []) 0 5 opFence = some (run opFence 0 []) ∧
    (nx (exec (.nop 0 5) (runs up opNop 0 []))).out =
      [.completion 0 0 [w32 (2 ^ 23), 5, 0, 0, 0, 0, 0, 0]] ∧
    (nx (exec (.fence 0 5) (runs up opFence 0 []))).out = [.completion 0 0 [w32 (2 ^ 23), 5, 0, 0, 0, 0, 0, 0]] := by decide +kernel

def heldOf (op w2 : Nat) (fails : List Nat) : State :=
  { fly up (cmdIn .held op w2 []) with fe := { (fly up (cmdIn .held op w2 [])).fe with slots := [(0, { slot 0 0 with failed := fails })] } }
theorem test_held : mayStart (heldOf 0x200 0 []) (cmdIn .held 0x200 0 []) = true ∧
    isFence (cmdIn .held 0x200 0 []) = true ∧ 0 < scopeFailures (heldOf 0x200 0 [3]) (cmdIn .held 0x200 0 []) ∧
    genOk (heldOf 0 0 []) (cmdIn .held 0 0 []) = true ∧ genOk (heldOf 0 (2 ^ 10 + 16) []) (cmdIn .held 0 (2 ^ 10 + 16) []) = false ∧
    ((nx (exec (.orderedCommandStart 0 5) (heldOf 0 0 []))).fe.flight.map (·.phase)) = [.running] ∧
    ((nx (exec (.orderedCommandStart 0 5) (heldOf 0x200 0 [3]))).out.length) = 1 := by decide +kernel


/-! ### Map, policy, Bench and Hutch commands -/

theorem test_cores : (nextForCores (fly up (cmdIn .queuedFw opMapGrid 0 []))).map (·.e) = some 5 ∧
    ((nx (exec .fwCommandDispatch (fly up (cmdIn .queuedFw opMapGrid 0 [])))).fe.flight.map (·.phase)) = [.running] := by decide +kernel

def opDone : State := { served with fe := { served.fe with ops := [{ handle := 4, notify := true, tag := 3, final := some (0, [1]) }] } }
theorem test_outcome : (nx (exec (.operationOutcome 4) opDone)).fe.ops = [] ∧
    (nx (exec (.operationOutcome 4) opDone)).out = [.completion 0 0 [w32 (3 * 2 ^ 8 + 2 ^ 23 + 2 ^ 24), 0, 4, 1, 0, 0, 0, 0]] := by
  decide +kernel

theorem test_define : definedPart (run opMapGrid 2 [1, 0x30010]) = part01 ∧
    (∀ f ∈ partFields part01, fieldPart up f = none ∧ tget up.cab.marks 0 f = 0 ∧ notReady (fieldOf up f) = false) ∧
    partOf (nx (exec (.mapGridDefine 0 5) (runs up opMapGrid 2 [1, 0x30010]))) 2 = some part01 ∧
    ends (exec (.mapGridDefine 0 5) (runs parted opMapGrid 1 [1, 0x30010])) parted opMapGrid 1 [1, 0x30010] stDenied [] = true := by
  decide +kernel

def oneField : State := { up with parts := [(2, { part01 with colHi := 0 })] }
/-- A program is loaded on one field, which is held at a seam of a held partition. -/
def heldPart : State := { up with
  parts := [(2, { part01 with colHi := 0, prog := some prog2, heldAll := true })]
  fields := [(0, { stage := 7, warden := .up, run := .held }), (1, { stage := 7, warden := .up })] }
theorem test_unmap : (nx (exec (.unmapUnload 0 5) (runs parted opUnmap 2 [0]))).out.length = 1 ∧
    ((nx (exec (.unmapUnload 0 5) (runs loaded opUnmap 2 [0]))).fe.flight.map (·.phase)) = [.background] ∧
    ((partFields part01).filter (fun f => standsStill loaded f && (false || (fieldOf loaded f).run == .gated))).length = 0 ∧
    ends (exec (.unmapDissolve 0 5) (runs loaded opUnmap 2 [1])) loaded opUnmap 2 [1] stBusy [] = true := by decide +kernel
theorem test_unmap_held : ((partFields { part01 with colHi := 0 }).filter (fun f =>
      standsStill heldPart f && (true || (fieldOf heldPart f).run == .gated))).length = 1 ∧
    (partFields { part01 with colHi := 0 }).length = 1 ∧ (runCmd (runs heldPart opUnmap 2 [0]) 0 5 opUnmap).isSome = true ∧
    (runCmd (runs parted opUnmap 2 [1]) 0 5 opUnmap).isSome = true ∧ reservedOk (run opUnmap 2 [1]) [(3, 1)] = true := by decide +kernel

/-- Field 0 with the logical place 1 unfilled. -/
def unfilledAt1 : State := { parted with fields := [(0, { stage := 7, warden := .up, map := { owners := [(1, unfilled)] } }), (1, { stage := 7, warden := .up })] }
theorem test_query_map : logicalOk 0x000001 = true ∧ ownerOf (fieldOf parted 0) 1 = 1 ∧ partHas part01 0 = true ∧
    reservedOk (run opQueryMap 2 [1]) [(3, 0x1FFFFFF)] = true ∧
    ((nx (exec (.queryMap 0 5) (runs parted opQueryMap 2 [1]))).out.length) = 1 ∧
    ownerOf (fieldOf unfilledAt1 0) (posOf (fieldOf unfilledAt1 0) 1) = unfilled ∧
    ends (exec (.queryMap 0 5) (runs unfilledAt1 opQueryMap 2 [1])) unfilledAt1 opQueryMap 2 [1] stOk
      [0xFFFFFF, 0xFFFFFF, 5, 0, 0xFFFFFF] = true := by decide +kernel
theorem test_query_map_physical : physicalOk (tileAddr 0 true 1) = true ∧ physicalOk (tileAddr 0 true 9600) = true ∧
    servedBy (fieldOf parted 0) 1 = some 1 ∧ servedBy (fieldOf parted 0) 9600 = none ∧
    ends (exec (.queryMap 0 5) (runs parted opQueryMap 2 [2 ^ 24 + tileAddr 0 true 9600])) parted opQueryMap 2
      [2 ^ 24 + tileAddr 0 true 9600] stOk
      [0xFFFFFF, 0xFFFFFF, w32 (mapState parted 0 9600 + 1000 * 2 ^ 4), 0, 0xFFFFFF] = true := by decide +kernel

theorem test_spot_rate : lendingCap oneField 0 ≠ 0 ∧
    (partOf (nx (exec (.spotRate 0 5) (runs oneField opSpotRate 2 [12]))) 2).map (·.spotN) = some 12 := by decide +kernel
theorem test_settings_complete : partFields part01 = [0, 1] ∧
    got (exec (.replayPolicy 0 5) (runs parted opReplayPolicy 2 [0x6401])) =
      some (applySetting (setPart (runs parted opReplayPolicy 2 [0x6401]) 2 { part01 with spareFirst := true, lateOk := false, warnPct := 100 })
        (run opReplayPolicy 2 [0x6401]) 2 stOk [w32 (replayWord3 part01)]) ∧
    (applySetting (runs loaded opTraceCfg 2 [3]) (run opTraceCfg 2 [3]) 2 stOk [4]).fe.flight.map (fun d => (d.phase, d.waits, d.results)) =
      [(.applying, [0, 1], [4])] := by decide +kernel
theorem test_settings :
    (partOf (nx (exec (.checkPolicy 0 5) (runs parted opCheckPolicy 2 [7]))) 2).map (·.policy) = some 7 ∧
    (partOf (nx (exec (.replayPolicy 0 5) (runs parted opReplayPolicy 2 [0x6401]))) 2).map (·.warnPct) = some 100 ∧
    (partOf (nx (exec (.opmode 0 5) (runs parted opOpmode 2 [2]))) 2).map (·.opmode) = some 2 ∧
    (partOf (nx (exec (.redundancy 0 5) (runs parted opRedundancy 2 [0]))) 2).map (·.redund) = some false ∧
    ends (exec (.opmode 0 5) (runs loaded opOpmode 2 [2])) loaded opOpmode 2 [2] stBusy [] = true ∧
    ends (exec (.redundancy 0 5) (runs loaded opRedundancy 2 [1])) loaded opRedundancy 2 [1] stBusy [] = true ∧
    ((nx (exec (.replayPolicy 0 5) (runs loaded opReplayPolicy 2 [0x6401]))).fe.flight.map (·.waits)) = [[0, 1]] ∧
    (partOf (nx (exec (.traceCfg 0 5) (runs parted opTraceCfg 2 [3, 1, 8]))) 2).map (·.sampleExp) = some 8 := by decide +kernel

theorem test_bench_commands :
    (nx (exec (.benchSchedule 0 5) (runs up opBenchSchedule 0 [0x401, 60]))).sched.period = 60 ∧
    ((fieldOf (nx (exec (.benchRun 0 5) (runs up opBenchRun 0 [tileAddr 83 true 9999, 3]))) 83).waitTests.map (fun w => (w.tile, w.corner))) =
      [(taPlace (tileAddr 83 true 9999), 3)] ∧ physicalOk (tileAddr 83 true 9999) = true ∧
    ends (exec (.benchResult 0 5) (runs up opBenchResult 0 [tileAddr 0 true 1])) up opBenchResult 0 [tileAddr 0 true 1] stOk [15, 1000, 0, 0] = true := by
  decide +kernel

/-- A spare place of field 0 that serves nothing: P(0, 96). -/
def spareAddr : Nat := tileAddr 0 true 9600
theorem test_quarantine : physicalOk spareAddr = true ∧ servedBy (fieldOf up 0) (taPlace spareAddr) = none ∧
    isLent (fieldOf up 0) (taPlace spareAddr) = false ∧ replaysHere up 0 9600 = false ∧
    tileRec (nx (exec (.quarantine 0 5) (runs up opQuarantine 0 [spareAddr, 0]))) spareAddr = { quar := true, qreason := 8 } ∧
    (nx (exec (.quarantine 0 5) (runs up opQuarantine 0 [0, 3, 1535]))).hutch.img.badSectors = [1535] := by decide +kernel
theorem test_quarantine_due : fieldLoaded loaded 0 = true ∧
    ((nx (exec (.quarantine 0 5) (runs loaded opQuarantine 0 [spareAddr, 1, 1023]))).fe.flight.map (fun d => (d.phase, d.waits))) =
      [(.applying, [0])] ∧
    (fieldOf (nx (exec (.quarantine 0 5) (runs loaded opQuarantine 0 [spareAddr, 1, 1023]))) 0).rowsDue = [(9600, 1023, 0)] ∧
    (fieldOf (nx (exec (.quarantine 0 5) (runs loaded opQuarantine 0 [spareAddr, 4, 39]))) 0).slotsDue = [39] := by decide +kernel

def quarred : State := { up with hutch := { img := { recs := [(spareAddr, { quar := true, qreason := 8 })] } } }
theorem test_release : inBench (fieldOf quarred 0) (taPlace spareAddr) = false ∧
    tileRec (nx (exec (.release 0 5) (runs quarred opRelease 0 [spareAddr, 0]))) spareAddr = { suspect := true, qreason := 0, rows := 0 } ∧
    ends (exec (.release 0 5) (runs up opRelease 0 [spareAddr, 0])) up opRelease 0 [spareAddr, 0] stBadParam [] = true := by decide +kernel

theorem test_status_export :
    ends (exec (.sigExport 0 5) (runs up opSigExport 0 [1, 0, 0, 0, 0, 0, 0, 0, 4096, 4096, 0])) up opSigExport 0
      [1, 0, 0, 0, 0, 0, 0, 0, 4096, 4096, 0] stOk [0, 0, 1] = true ∧
    outDescOk (run opSigExport 0 [1, 0, 0, 0, 0, 0, 0, 0, 4096, 4096, 0]) = true := by decide +kernel

def waiting : State := { up with fields := [(0, { stage := 7, warden := .up, waitTests := [⟨9600, 2, 0, 1, [], none⟩], benchLock := true })] }
theorem test_bench_events : (firstStart waiting 0 (waitOrder (fieldOf waiting 0)) 0).1.isSome = true ∧
    ((tfind (fieldOf (nx (exec (.benchSlotStart 0 3) waiting)) 0).bench 3).map (·.tile)) = some 9600 ∧
    (fieldOf (nx (exec (.benchIdleWindow 0) up)) 0).window = 1000 * windowLen up 0 ∧ 0 < windowLen up 0 ∧
    (fieldOf (nx (exec (.benchDroopLockoutEnd 0) waiting)) 0).benchLock = false ∧
    lastCompleted { up with cab := { opTime := 691200 } } spareAddr = 0 ∧
    (nx (exec (.benchOverdue spareAddr) { up with cab := { opTime := 691200 } })).sched.overdue = [(spareAddr, 691200)] := by
  decide +kernel

def testing : State := { up with fields := [(0, { stage := 7, warden := .up, bench := [(3, { tile := 9600, admitted := true })] })] }
def goodSeg : SegmentEnd := { expected := 0, rows := [], instrBad := false, links := [], virusMw := 0 }
/-- A droop has struck the admitted window, after `n` earlier ones. -/
def struck (n : Nat) : State := { up with fields := [(0, { stage := 7, warden := .up, bench := [(3, { tile := 9600, admitted := true, drooped := true, droops := n })] })] }
theorem test_bench_segments :
    (tfind (fieldOf (nx (exec (.benchSegmentEnd 0 3 goodSeg) (struck 1))) 0).bench 3).map (fun b => (b.droops, b.admitted)) = some (2, false) ∧
    (fieldOf (nx (exec (.benchSegmentEnd 0 3 goodSeg) (struck 2))) 0).benchLock = true ∧
    (guardOf testing (pa 0 9600)).digest = 0 ∧ (guardOf testing (pa 0 9600)).pin = false ∧
    (tfind (fieldOf (nx (exec (.benchSegmentEnd 0 3 goodSeg) testing)) 0).bench 3).map (·.left) =
      some (810000 - (windowLen testing 0 - 16)) ∧
    (tfind (fieldOf (nx (exec (.benchSegmentEnd 0 3 { goodSeg with expected := 1 }) testing)) 0).bench 3).map
      (fun b => (b.failOnce, b.left)) = some (true, 810000) := by
  decide +kernel


/-! ### Power -/

theorem test_caps : reservedOk (run opPowerCap 0 [3600, 0xFFFF0000]) [(3, 0xFFFF), (4, 0xFFFFFFFF)] = true ∧
    floorWatts up = 0 ∧ (nx (exec (.powerCap 0 5) (runs up opPowerCap 0 [600, 0xFFFF0000]))).arb.cap = 600 ∧
    (nx (exec (.powerCap 0 5) (runs { up with arb := { cap := 700 } } opPowerCap 0 [0, 0xFFFF0000]))).arb.cap = 0 ∧
    (nx (exec (.smbCapLimit true 360) up)).tray.capCeil = 360 ∧ got (exec (.smbCapLimit true 361) up) = some up ∧
    (nx (exec (.smbCapLimit true 60) up)).tray.capCeil = 60 ∧ got (exec (.smbCapLimit true 59) up) = some up ∧
    got (exec (.smbCapLimit false 360) up) = some up := by decide +kernel
/-- Field 0 draws 20 kW on its VSRAM rail: no cap below that can be met. -/
def hungry : State := { up with fields := [(0, { stage := 7, warden := .up, power := { watts := [(0, [0, 20000, 0])] } })] }
theorem test_cap_floor : ((700 * 10 : Nat) : Rat) < floorWatts hungry ∧
    (nx (exec (.powerCap 0 5) (runs hungry opPowerCap 0 [700, 0xFFFF0000]))).arb.cap = 0 ∧
    (nx (exec (.powerCap 0 5) (runs hungry opPowerCap 0 [700, 0xFFFF0000]))).out.length = 1 := by decide +kernel

/-- A frequency change of field 0 that ends at 100 us; the lockout is on. -/
def changing (c : FreqChange) : State := { up with
  now := 100000
  fields := [(0, { stage := 7, warden := .up, power := { change := some c, lockout := true } })] }
theorem test_power_events : (got (exec .arbiterReplan up)).isSome = true ∧
    (fieldOf (nx (exec (.freqChangeEnd 0) (changing { from_ := 1000, dest := 900, stage := 2 }))) 0).power.change = none ∧
    (fieldOf (nx (exec (.freqChangeEnd 0) (changing { from_ := 900, dest := 1000, stage := 1 }))) 0).power.change = none ∧
    (fieldOf (nx (exec (.droopLockoutEnd 0) (changing { from_ := 900, dest := 1000 }))) 0).power.lockout = false := by decide +kernel

theorem test_pmbus : (nx (exec (.pmbusSlot 7 false .failed) up)).arb.segFails = [(7, 1)] ∧
    (nx (exec (.pmbusSlot 7 false .failed) { up with arb := { segFails := [(7, 2)] } })).arb.segDown = [7] ∧
    (nx (exec (.pmbusSegmentRetry 7 (.iout 0)) { up with arb := { segDown := [7] } })).arb.segDown = [] ∧
    tget (nx (exec (.pmbusSlot 7 false (.iout 0)) up)).arb.segPage 0 7 = 1 := by decide +kernel

theorem test_pmbus_turns : (nx (exec (.pmbusSlot 7 false .failed) { up with arb := { segFails := [(7, 1)] } })).arb.segFails = [(7, 2)] ∧
    (nx (exec (.pmbusSlot 7 true (.status 0)) up)).out = [.pmbus 7 0 0x79 0] ∧
    tfind (nx (exec (.pmbusSlot 7 true (.status 8)) up)).arb.segStatus 7 = some (zonePages 7 - 1) ∧
    tget (nx (exec (.pmbusSlot 7 true (.status 8)) up)).arb.segFault [] 7 = [0] ∧
    (nx (exec (.pmbusSlot 7 true .acked) { up with arb := { segFault := [(7, [4, 5])] } })).out = [.pmbus 7 4 0x03 0] ∧
    (nx (exec (.pmbusSlot 7 false .acked) { up with arb := { writes := [(7, [(2, 0x21, 700)])] } })).out = [.pmbus 7 2 0x21 700] := by
  decide +kernel
theorem test_feed_zones : feedGone (setPgood { up with arb := { pgood := [true, true, false, true, true, true, true, true] } } 1 false) = true ∧
    3 ∈ zoneFields 1 ∧ feedGone (setPgood up 1 false) = false ∧ (fieldOf up 3).zoneDown = false := by decide +kernel

theorem test_zone_power : 0 ∈ zoneFields 0 ∧ (fieldOf (nx (exec (.zonePgoodLoss 0) { up with boot := { stage := 1 } })) 0).run = .gated ∧
    (fieldOf (nx (exec (.zonePgoodReturn 0) (nx (exec (.zonePgoodLoss 0) { up with boot := { stage := 4 } })))) 0).zoneDown = false := by
  decide +kernel

/-! ### Tray, panel, service port, Cabinet -/

theorem test_smbus_ignored : (∀ d ∈ [0, 0xA4, 0xFF], got (exec (.smbQuiesce true d) up) = some up) ∧
    (∀ d ∈ [2, 0xFF], got (exec (.smbLocate true d) up) = some up) ∧
    (nx (exec (.smbLocate true 0) { up with panel := { locate := true } })).panel.locate = false := by decide +kernel

theorem test_smbus : (nx (exec (.smbStatusClr true 0xFFFF) { up with tray := { status := 0xFFFF } })).tray.status = 0xFFFF &&& ~~~tsW1c ∧
    (nx (exec (.smbQuiesce true 0xA5) up)).hang.quiesce = 1 ∧ (nx (exec (.smbLocate true 1) up)).panel.locate = true ∧
    got (exec (.smbLocate false 1) up) = some up ∧ got (exec (.alertResponse false) up) = some up ∧
    tsBit (nx (exec (.alertResponse true) { up with tray := { status := 0xFFFF } })) tsAlertAssert = false ∧
    (nx (exec .smbClockTimeout { up with tray := { smbActive := true } })).tray.smbActive = false := by decide +kernel

def confirming (n : Nat) (faulty : Bool) : State := { up with tray := { pins := [(4, { confirm := n, fault := faulty }), (7, { fault := faulty })] }, panel := { pressed := true } }
theorem test_pins : disagrees (confirming 0 false) .locLed true = true ∧ disagrees (confirming 0 false) .locLed false = false ∧
    (pinOf (nx (exec (.pinReadbackSample .locLed true) (confirming 2 false))) .locLed).confirm = 3 ∧
    (pinOf (nx (exec (.pinReadbackSample .locLed true) (confirming 3 false))) .locLed).fault = true ∧
    tsBit (nx (exec (.pinReadbackSample .locLed true) (confirming 3 false))) tsPinFault = true ∧
    (pinOf (nx (exec (.pinRetry .locLed false) (confirming 0 true))) .locLed).fault = false ∧
    (pinOf (nx (exec .attnStuck (confirming 0 false))) .attnBtn).fault = true ∧
    (pinOf (nx (exec .attnFaultRecover (confirming 0 true))) .attnBtn).fault = false := by decide +kernel

theorem test_pin_retry : pinOf (nx (exec (.pinRetry .locLed true) (confirming 0 true))) .locLed = { fault := true, retries := 1 } ∧
    pinOf (nx (exec (.pinReadbackSample .locLed false) (confirming 2 false))) .locLed = { confirm := 0 } := by decide +kernel

theorem test_panel : (nx (exec .buttonPress up)).panel.pressed = true ∧
    (nx (exec .buttonShortRelease (nx (exec .buttonPress up)))).panel = { locate := true } ∧
    (nx (exec .buttonHold4s (nx (exec .buttonPress up)))).hang.quiesce = 1 ∧
    (nx (exec .buttonHold10s { nx (exec .buttonHold4s (nx (exec .buttonPress up))) with arm := { hold10 := true } })).hang.cycleWant = some 5 ∧
    (nx (exec .buttonLongRelease (nx (exec .buttonHold4s (nx (exec .buttonPress up)))))).panel = { blink := true } ∧
    (nx (exec .heldActionBlinkEnd { up with panel := { blink := true } })).panel = {} := by decide +kernel

theorem test_alarms : bitAt up.arm.active 0 = false ∧ (nx (exec (.lidChange true) { up with arm := { actions := [1, 1, 1, 1] } })).arm.locked = 1 ∧
    tsBit (nx (exec (.lidChange true) { up with arm := { actions := [1, 1, 1, 1] } })) tsAlarm = true ∧
    got (exec (.lidChange false) { up with panel := { lidOpen := true } }) = some up ∧
    (nx (exec .supplyGlitch up)).arm.active = 4 ∧ (nx (exec .clockGlitch up)).arm.active = 8 := by decide +kernel

def session (r : Option Nat) : State := { up with svc := { vbus := true, role := r } }
theorem test_service : consoleServed up = true ∧ (nx (exec .usbConnect up)).svc.vbus = true ∧
    (nx (exec (.svcSessionEnd .idle) (session (some 1)))).svc.role = none ∧
    (nx (exec (.consoleAuth none) (session none))).svc.challenge.isSome = true ∧
    (nx (exec (.consoleAuth none) { up with now := 9999999999, svc := { vbus := true, wrongTime := some 0 } })).out = [.console []] := by
  decide +kernel

/-- A challenge stands, 60 s old; the response does not name a role. -/
def challenged : State := { up with now := 60000000000, svc := { vbus := true, challenge := some 5 } }
theorem test_auth_refused : (nx (exec (.consoleAuth (some (1, 2, 2))) challenged)).svc.wrongTime = some 60000000000 ∧
    (nx (exec (.consoleAuth (some (1, 2, 2))) challenged)).svc.challenge = none ∧
    (decide (2 < 2) && true) = false := by decide +kernel

theorem test_console : consoleMay (session (some 1)) 1 false = true ∧ consoleMay (session (some 0)) 1 false = false ∧
    consoleMay (session (some 0)) 0 true = true ∧
    (nx (exec .consoleStatus (session (some 0)))).out = [.console [0, 0, 0, 0, 1]] ∧
    (nx (exec (.consoleLog 0) (session (some 0)))).out = [.console []] ∧
    (nx (exec (.consoleRing true 0) (session (some 0)))).out = [.console []] ∧
    (nx (exec (.consolePanelPolicy true) (session (some 1)))).arm.hold10 = true ∧
    (nx (exec (.consolePanelPolicy true) (session (some 0)))).out = [.console []] ∧
    (nx (exec (.consoleAlarmPolicy 3 3) (session (some 1)))).arm.actions = [0, 1, 1, 3] ∧
    (nx (exec (.consoleBoard [1]) (session (some 1)))).nor.boardNext = some [1] ∧
    (nx (exec (.consoleIdentity (some [2])) { session (some 1) with
      arm := { identity := none }
      svc := { vbus := true, role := some 1, request := some 6 } })).arm.identity = some 6 ∧
    (nx (exec (.consoleDump 1) { session (some 0) with nor := { dumps := [(1, {})] } })).out.length = 1 := by decide +kernel

theorem test_cycle : ({ up with hang := { cycleWant := some 5 } } : State).hang.cycleWant = some 5 ∧
    (nx (exec .pwrcycTimeout { up with tray := { pwrcycLow := true, status := 0xFFFF } })).tray.pwrcycLow = false ∧
    tsBit (nx (exec .pwrcycTimeout { up with tray := { pwrcycLow := true, status := 0xFFFF } })) tsCycleReq = false := by decide +kernel

def arriving : RecIn := { typ := evReset, tenant := 3, part := none, words := [1, 2, 3, 4] }
def queued : State := { up with cab := { queue := [recd], opTime := 77, cycles := 9 } }
theorem test_records : evDefined evReset = true ∧ ((nx (exec (.recordArrival arriving) up)).cab.queue.map (·.seqNo)) = [1] ∧
    queued.nor.offset + recBytes recd ≤ sectorBytes queued.nor ∧ (nx (exec (.recordCommit true) queued)).cab.queue = [] ∧
    ((nx (exec (.recordCommit true) queued)).nor.ring.map (fun r => (r.seqNo, r.opTime, r.cycles))) = [(5, 77, 9)] := by decide +kernel

theorem test_nor : ((nx (exec (.norFail 3 4096) up)).cab.store.map (·.typ)) = [evNorFail] ∧
    tsBit (nx (exec (.norFail 3 4096) up)) tsDegraded = true ∧ (nx (exec (.norRetry 3) { up with cab := { failed := true } })).cab =
      { failed := true } ∧
    (nx (exec (.norRetry 2) { up with cab := { failed := true }, nor := { journal := [(1, {})] } })).nor.journal = [] := by decide +kernel

theorem test_cabinet : ((nx (exec .snapshotTimer up)).nor.snap.map (·.num)) = some 0 ∧
    (nx (exec .operatingTimeTick { up with cab := { opTime := 2 ^ 40 - 1 } })).cab.opTime = 0 ∧
    (nx (exec .meterIntervalEnd { up with cab := { meterDue := some (3, []) } })).cab.meterDue = none ∧
    ((nx (exec (.journalEntryWrite none) { up with hutch := { dirty := true } })).nor.journal.map (·.1)) = [1] ∧
    (nx (exec (.journalFold none) { up with nor := { journal := List.replicate 47 (3, {}) ++ [(4, { nextSig := 9 })] } })).nor.base.nextSig = 9 ∧
    ((nx (exec .deferredRecordsResume { up with cab := { deferred := [recd] } })).cab.queue.map (·.seqNo)) = [1] := by decide +kernel

def clearedRing : State := { up with
  nor := { ring := [{ recd with cleared := true, sector := 4 }, { recd with seqNo := 6, sector := 5 }], sector := 5 }
  cab := { reclaim := true } }
theorem test_reclaim : reclaimable clearedRing = some 4 ∧ sectorUnits clearedRing.nor 4 = [4] ∧
    ((nx (exec .sectorReclaim clearedRing)).nor.ring.map (·.seqNo)) = [6] := by decide +kernel

theorem test_cabinet_due : queueBytes { up with cab := { deferred := [recd] } } < 6144 ∧
    (nx (exec .operatingTimeTick { up with cab := { opTime := 57599, meters := [(3, (1, 1))] } })).cab.meters = [] ∧
    (nx (exec .operatingTimeTick { up with cab := { opTime := 57599, meters := [(3, (1, 1))] } })).cab.meterDue.isSome = true ∧
    foldEntries = 48 := by decide +kernel

theorem test_log_commands : visibleRecs logged 0 = logged.nor.ring ∧
    cursorOf (nx (exec (.logOpen 0 5) (runs logged opLogOpen 0 [0x100]))) 0 = { opened := true, atEnd := false, follow := true, seqNo := 5 } ∧
    ((nx (exec (.logClear 0 5) (runs logged opLogClear 0 [5]))).nor.ring.map (·.cleared)) = [true, false] ∧
    ((tfind (nx (exec (.dumpFetch 0 5) (runs { up with nor := { dumps := [(2, {})] } } opDumpFetch 0
      [2, 0, 0, 0, 0, 0, 0, 0, 4096, 4096]))).nor.dumps 2).map (·.readEnd)) = some true := by decide +kernel


/-! ### The Sideboard -/

theorem test_digest_define :
    fitsGroup loaded 3 8 1 8192 4 1 = true ∧ noRoom loaded 3 8 1 4 = false ∧
    ((findContext (nx (exec (.digestDefine 0 5 []) (runs loaded opDigestDefine 2 [8 + 2 ^ 17, 0, 8192, 4 + 2 ^ 16]))) 3 8).map
      (fun k => (k.kind, k.length, k.ready))) = some (1, 8192, true) ∧
    shardMasks [(1 : BitVec 1024)] 1 = some [(1 : BitVec 1024)] ∧
    ((findContext (nx (exec (.digestDefine 0 5 [1]) (runs loaded opDigestDefine 2 [8, 0, 64, 4 + 2 ^ 16]))) 3 8).map
      (fun k => (k.kind, k.ready, k.masks))) = some (0, false, [1]) := by decide +kernel

def reading : State := { sharded { shard with ready := false } with
  fe := { slots := [(0, slot 0 0)], flight := [cmdIn .background opDigestDefine 2 [8, 0, 64, 4 + 2 ^ 16]] } }
theorem test_digest_read :
    ((findContext (nx (exec (.digestDefineReadDone 0 5 [List.replicate 16 0]) reading)) 3 8).map (fun k => (k.ready, k.changed))) =
      some (true, false) ∧
    ((findContext (nx (exec (.digestDefineReadDone 0 5 [List.replicate 16 0]) reading)) 3 8).map (·.digest)) =
      some (sumParts (tileParts weightKey 0 [List.replicate 16 0])) := by decide +kernel

def threeInView : State := sharded { shard with remotes := [2, 7], known := [(2, 0), (7, 0)] }
theorem test_digest_answers : viewOf threeInView 3 4 = [1, 2, 7] ∧
    ((findContext (nx (exec (.digestCompare 0 5) (runs (sharded shard) opDigestCompare 2 [8, 65535]))) 3 8).map (·.interval)) = some 65535 ∧
    ((findContext (nx (exec (.digestCompare 0 5) (runs (sharded shard) opDigestCompare 2 [8, 2 ^ 31]))) 3 8).map
      (fun k => (k.interval, k.nowCmd))) = some (64, [(0, 5)]) ∧
    (nx (exec (.expel 0 5) (runs threeInView opExpel 2 [4, 7]))).out.length = 1 := by decide +kernel

def heard (job : Nat) : Exchange :=
  let ws := [w32 (job + 4 * 2 ^ 16), 2, 0, 5, 0, 0]
  { words := ws ++ [w32 (crc32c (bytesOf ws)), 0], port := 63 }
def joined : State := { sharded shard with parts := [(2, { part01 with prog := some prog2, tree := some { job := 9 } })] }
theorem test_exchange : (nx (exec (.exchangeRecordReceive { words := List.replicate 8 1, port := 0 }) joined)).side.crcBad = 1 ∧
    (nx (exec (.exchangeRecordReceive (heard 8)) joined)).side.discards = 1 ∧
    ((nx (exec (.exchangeRecordReceive (heard 9)) joined)).side.contexts.map (·.remotes)) = [[2]] := by decide +kernel
/-- A record of a given TYPE for `joined`'s context. -/
def heardType (t : Nat) : Exchange :=
  let ws := [w32 (9 + 4 * 2 ^ 16), w32 (2 + t * 2 ^ 10), 0, 5, 0, 0]
  { words := ws ++ [w32 (crc32c (bytesOf ws)), 0], port := 0 }
theorem test_exchange_types : ((nx (exec (.exchangeRecordReceive (heardType 1)) joined)).side.contexts.map (·.matches_)) = [[(2, 0, false)]] ∧
    (nx (exec (.exchangeRecordReceive (heardType 2)) joined)).side.discards = 1 ∧
    (nx (exec (.exchangeRecordReceive (heardType 3)) joined)).side.discards = 1 := by decide +kernel

def atBoundary (k : Context) : State :=
  { sharded { k with interval := 1 } with fields := [(0, { stage := 7, warden := .up, seam := 1, run := .running })] }
/-- A comparison of interval 0 in which the one known replica has reported. -/
def reported : Context := { shard with opens := [⟨0, 0, []⟩], reports := [⟨1, 0, 5, false, 0, false⟩], known := [(1, 0)] }
theorem test_sideboard_boundary :
    boundaryDue (atBoundary shard) { shard with interval := 1 } = true ∧ fieldLoaded (atBoundary shard) 0 = true ∧
    ((findContext (nx (exec (.digestIntervalBoundary 3 8) (atBoundary shard))) 3 8).map (fun k => k.opens.map (·.interval))) = some [1] ∧
    (nx (exec (.digestIntervalBoundary 3 8) (atBoundary { shard with sentAt := 1 }))).side.skipped = 1 := by decide +kernel
theorem test_sideboard_close : (heardFor reported 0).contains 1 = true ∧
    ((findContext (nx (exec (.comparisonClose 3 8) (sharded reported))) 3 8).map (·.opens)) = some [] := by decide +kernel
theorem test_sideboard_events :
    passMayEnd (sharded shard) shard = true ∧ sumParts [5] = 5 ∧
    ((findContext (nx (exec (.scrubPassDone 3 8 [5]) (sharded shard))) 3 8).map (fun k => (k.digest, k.changed))) = some (5, false) ∧
    ((findContext (nx (exec (.scrubPassDone 3 8 [6]) (sharded shard))) 3 8).map (fun k => (k.digest, k.changed))) = some (6, true) ∧
    resultsHeard { shard with reverify := true } = [] ∧
    (nx (exec (.reverifyDone 3 4 [(8, 5)]) { sharded { shard with reverify := true } with nor := { golden := [⟨3, 4, 64, 5⟩] } })).side.transients = 1 := by
  decide +kernel

/-! ### Resets, hangs, watchdogs, security -/

theorem test_reset_command :
    ((nx (exec (.reset 0 5) (runs parted opReset 0 [1, 83]))).hang.requests.map (·.level)) = [1] ∧
    ((nx (exec (.reset 0 5) (runs parted opReset 2 [2, 0]))).fe.flight.map (·.phase)) = [.background] ∧
    (nx (exec (.reset 0 5) (runs parted opReset 0 [4, 0]))).hang.cycleWant = some 1 ∧
    reservedOk (run opReset 0 [1, 83]) [(3, 7), (4, resetMask 1)] = true := by decide +kernel

def wants (level dom : Nat) : State := { parted with hang := { fwUp := true, requests := [{ level := level, dom := dom, cause := 2 }] } }
theorem test_reset_start : (nextReset (wants 1 144)).map (·.dom) = some 144 ∧
    (nextReset (wants 2 130)).map (·.dom) = some 130 ∧ (nextReset (wants 3 228)).map (·.dom) = some 228 ∧
    genOf (nx (exec .resetStart (wants 0 24))) 25 = 0 ∧
    genOf (nx (exec .resetStart (wants 0 24))) 24 = 1 ∧
    ((nx (exec .resetStart (wants 0 24))).hang.running.map (·.dom)) = [24] := by decide +kernel

def resetting (level dom : Nat) : State := { parted with hang := { fwUp := true, running := [{ level := level, dom := dom, cause := 2 }] }, now := 500000001 }
theorem test_reset_ends : ((resetting 1 144).hang.running.find? (fun k => k.dom == 144)).isSome = true ∧
    (nx (exec (.resetComplete 24 9) (resetting 0 24))).hang.running = [] ∧
    ((nx (exec (.resetEscalate 144) (resetting 1 144))).hang.requests.map (fun r => (r.level, r.dom))) = [(2, 130)] ∧
    ((nx (exec (.resetEscalate 150) (resetting 1 150))).hang.requests.map (·.level)) = [3] ∧
    ((nx (exec (.resetEscalate 130) (resetting 2 130))).hang.requests.map (·.level)) = [3] ∧
    (nx (exec (.resetEscalate 228) (resetting 3 228))).hang.cycleWant = some 2 := by decide +kernel

def misfired (n : Nat) : State := { up with hang := { fires := n, windowOpen := true } }
theorem test_generations : mayRestart (misfired 1) = true ∧ genOf (nx (exec .hubRestart (misfired 1))) 228 = 1 ∧
    genOf (nx (exec .hubFeedLoss { up with hang := { gens := [(4, 9)] } })) 4 = 0 := by decide +kernel

theorem test_stale : (tget (nx (exec (.staleMessageDrop 228 1) up)).hang.stale (0, 0, 0) 228).1 = 1 ∧ genOf up 228 = 0 ∧
    (nx (exec (.staleRecordTimer 228) { up with hang := { stale := [(228, (3, 1, 0))] } })).hang.stale = [] := by decide +kernel

def staged (t : Nat) : State := { up with drawer := { staging := some { tenant := t, level := 1, plain := [1, 2] } }, arm := { admin := some [7], unsealed := true } }
theorem test_dump : dumpKey (staged 0) 0 = some [7] ∧ dumpKey (staged 3) 3 = none ∧
    (nx (exec (.dumpWriteDone none) (staged 3))).drawer.staging = none ∧ (nx (exec (.dumpWriteDone none) (staged 3))).nor = {} ∧
    (nx (exec (.dumpWriteDone none) (staged 0))).drawer.staging = none ∧ dumpSlot (staged 0) = 0 := by decide +kernel

def midStep (r : Run) : State := { loaded with fields := [(0, { stage := 7, warden := .up, run := r, waitBarrier := true }), (1, { stage := 7, warden := .up })] }
theorem test_hang_sources : (seamAt (midStep .running) 0).map (·.pos) = some 4000 ∧
    (fieldOf (nx (exec (.seamOverrun 0 4009) (midStep .running))) 0).lostCause = some 1 ∧
    (fieldOf (nx (exec (.deadlock 0) (midStep .running))) 0).lostCause = some 2 ∧
    ((nx (exec (.deadlock 83) { up with fields := [(83, { stage := 7, warden := .up })] })).hang.requests.map (·.dom)) = [227] ∧
    ((nx (exec (.barrierWaitLimit 0) { midStep .held with now := 50000001 })).hang.requests.map (fun r => (r.dom, r.cause))) = [(130, 5)] ∧
    (nx (exec (.wardenSlotParity 0 39) up)).hutch.img.badSlots = [(0, 39)] := by decide +kernel

theorem test_link_resend : facing 0 101 0 ≠ none ∧ linkDead up 0 101 0 = false ∧ linkUsed up 0 101 0 = false ∧
    (∀ g ∈ (linkEnds 0 101 0).map (·.1), fieldLoaded up g = false) ∧
    (fieldOf (nx (exec (.linkResendThreshold (tileAddr 0 true 101) 0 32) up)) 0).resends = [(404, [(0, 32)])] ∧
    (nx (exec (.linkResendThreshold (tileAddr 0 true 101) 0 33) up)).hutch = (markLink up 0 101 0).hutch := by decide +kernel

def wardenIs (w : WardenState) (beats starts : Nat) : State := { up with fields := [(0, { stage := 7, warden := w, beats := beats, starts := starts }), (1, { stage := 7, warden := .up })] }
theorem test_wardens : (fieldOf (nx (exec (.wardenHeartbeat 0) (wardenIs .up 3 0))) 0).beats = 0 ∧
    (fieldOf (nx (exec (.wardenHeartbeatMiss 0) (wardenIs .up 2 0))) 0).beats = 3 ∧
    (fieldOf (nx (exec (.wardenHeartbeatMiss 0) (wardenIs .up 3 0))) 0).warden = .inReset ∧
    (fieldOf (nx (exec (.wardenHeartbeatMiss 0) (wardenIs .up 3 0))) 1).warden = .inReset ∧
    (fieldOf (nx (exec (.wardenRestartDone 0) (wardenIs .inReset 0 2))) 0).warden = .up ∧
    (fieldOf (nx (exec (.wardenRestartTimeout 0) (wardenIs .inReset 0 1))) 0).starts = 2 ∧
    (nx (exec (.wardenRestartTimeout 0) (wardenIs .inReset 0 2))).hang.cycleWant = some 4 := by decide +kernel

theorem test_watchdog_no_ref : (nx (exec .hubWatchdogFire { up with hang := { fwUp := true, refOk := false } })).hang.heldRef = true ∧
    (nx (exec .hubWatchdogFire { up with hang := { fwUp := true, refOk := false } })).hang.fires = 0 ∧
    mayRestart (misfired 1) = true := by decide +kernel

theorem test_hub_watchdog : tsBit (nx (exec .hubWatchdogFire up)) tsHang = true ∧
    ((nx (exec .hubWatchdogFire { up with hang := { fwUp := true, fires := 1 } })).hang.requests.map (fun r => (r.level, r.cause))) = [(3, 7)] ∧
    (nx (exec .hubWatchdogFire { up with hang := { fwUp := true, fires := 2 } })).hang.cycleWant = some 3 ∧
    (nx (exec .hubHeartbeatToggle { up with hang := { fwUp := true, windowOpen := true, restarted := true, hbCount := 65535 } })).hang.windowOpen = false ∧
    (nx (exec .hubHeartbeatToggle { up with hang := { fwUp := true, hbCount := 65535 } })).hang.hbCount = 0 ∧
    (nx (exec .watchdogCountClear { up with hang := { fwUp := true, fires := 2 } })).hang.fires = 0 ∧
    tsBit (nx (exec .refClockLoss up)) tsRefloss = true ∧
    (nx (exec .refClockRestore { up with hang := { refOk := false } })).hang.refOk = true := by decide +kernel

theorem test_host_loss :
    (nx (exec (.heartbeatCfg 0 5) (runs up opHeartbeatCfg 0 [0xEA600001, 1, 255]))).hang.lossTimeout = 60000 ∧
    (nx (exec (.heartbeatCfg 0 5) (runs up opHeartbeatCfg 0 [0x00640001, 0, 0]))).hang.lossTimeout = 100 ∧
    (nx (exec .hostLoss { up with hang := { fwUp := true, lossOn := true, lossAction := 1 } })).hang.quiesce = 1 ∧
    (nx (exec .hostLoss { up with hang := { fwUp := true, lossOn := true } })).hang.hostLost = true ∧
    quietField { up with hang := { fwUp := true, quiesce := 1 } } 83 = true := by decide +kernel

theorem test_scrub :
    ((nx (exec (.tenantScrub 0 5) (runs parted opTenantScrub 0 [3, 4]))).fe.ops.map (fun o => (o.handle, o.opcode))) = [(1, opTenantScrub)] ∧
    ((nx (exec (.tenantScrub 0 5) (runs { parted with side := { contexts := [shard] } } opTenantScrub 0 [3, 4]))).side.contexts) = [] ∧
    reservedOk (run opTenantScrub 0 [3, 4]) [(3, 0xF), (4, 0xFFFF)] = true := by decide +kernel

theorem test_keys : tfind (nx (exec (.keyLoad 0 5 []) (runs { up with arm := { tenantKeys := [(14, [1])] } } opKeyLoad 0 [0x10F]))).arm.tenantKeys 15 = none ∧
    reservedOk (run opKeyLoad 0 [0x00F, 0, 0, 112]) [(3, 0x10F), (4, 0xFFFFFFFF), (5, 0xFFFFFFFF), (6, 0xFFFFFFFF)] = true ∧
    ackMask { up with arm := { active := 3 } } 3 = 3 ∧
    (nx (exec (.alarmAck 0 5) (runs { up with arm := { active := 3, locked := 3 } } opAlarmAck 0 [2]))).arm.active = 1 := by decide +kernel


/-! ### Counters, lanes, barrier -/

theorem test_latch : latchFields loaded (run opCounterLatch 2 [0, 0, 0, 0, 0, 0, 0, 0, 2 ^ 20, 4096]) = [0, 1] ∧
    (fieldOf (nx (exec (.counterLatch 0 5) (runs loaded opCounterLatch 2 [0, 0, 0, 0, 0, 0, 0, 0, 2 ^ 20, 4096]))) 1).latchWait = [(0, 5)] ∧
    (fieldOf (nx (exec (.computeCmdBoundary 0 { layer := 1, op := 2, startSeam := 1, endSeam := 2 })
      { loaded with parts := [(2, { part01 with prog := some { prog2 with seams := [(0, List.replicate 3 ⟨4000, 8, false, false, false⟩)] } })] })) 0).computeDue.length = 1 := by
  decide +kernel

def latchedOut : State := { fly loaded (cmdIn .background opCounterLatch 2 [1, 0, 0, 0, 0, 0, 0, 0, 2 ^ 24, 4096]) with
  fields := [(0, { stage := 7, warden := .up, latchOut := some (0, 5), latchTs := 6 })] }
theorem test_latch_fields : latchFields latchedOut (cmdIn .background opCounterLatch 2 [1]) = [0] ∧
    fieldLoaded latchedOut 0 = true ∧ (fieldOf latchedOut 0).frozen = none := by decide +kernel

def freezing : State := { loaded with parts := [(2, { part01 with prog := some prog2, freeze := some { freeze := true, trigger := 4, local_ := 4 } })], now := 5 }
theorem test_freeze : partFrozen loaded 2 = false ∧
    ((partOf (nx (exec (.counterFreeze 0 5) (runs loaded opCounterFreeze 2 [1]))) 2).bind (·.freeze)).map (·.left) = some [0, 1] ∧
    (fieldOf (nx (exec (.freezeTrigger 2 []) freezing)) 1).frozen.isSome = true ∧
    ((partOf (nx (exec (.freezeTrigger 2 []) freezing)) 2).bind (·.freeze)) = none := by decide +kernel

def laned (l : Lane) : State := { parted with lanes := [(63, l)], parts := [(2, { part01 with ports := [63] })], now := 2300000000 }
theorem test_lanes : measures (laned {}) 63 = true ∧
    (nx (exec (.probeSend 63) (laned { seqNo := 15 }))).out = [.frame 63 (frameChars 1 15 2300000000)] ∧
    (laneOf (nx (exec (.probeSend 63) (laned { seqNo := 15 }))) 63).seqNo = 0 ∧
    (nx (exec (.probeReceive 63 15 7 true) (laned {}))).out = [.frame 63 (frameChars 2 15 2300000000)] ∧
    (laneOf (nx (exec (.echoReceive 63 3 (2 ^ 40 - 1)) (laned { sync := true, sent := [(3, 1)], peerProbe := some (1, 2, 3) }))) 63).rounds.length = 1 ∧
    got (exec (.echoReceive 63 4 0) (laned {})) = some (laned {}) ∧
    (laneOf (nx (exec (.laneSyncLoss 63) (laned { sync := true }))) 63).sync = false ∧
    (laneOf (nx (exec (.laneSyncRegain 63) (laned {}))) 63).sync = true ∧
    (laneOf (nx (exec (.laneFrameCrcDiscard 63 [0x5A, 0, 0, 0, 0, 0, 1]) (laned {}))) 63).crcBad = 1 ∧
    crc8 [0x5A, 0, 0, 0, 0, 0] ≠ 1 := by decide +kernel

/-- R402's worked example: the round's offset, a quarter of the model's quarter nanoseconds. -/
theorem test_round_offset : roundOffset 1000000000 (3300000304 % 2 ^ 40) 3299999792 (2 * 1000000872) / 4 = 2299999612 := by decide +kernel

def peer : PeerInfo := ⟨63, 9, 10, 9, 2, 1, true, 0, 0⟩
def usable : Lane := { sync := true, rounds := [(0, 0)] }
def aligning : State := { fly (laned usable) (cmdIn .background opTimeAlign 2 [0, 2 ^ 31, 9]) with
  parts := [(2, { part01 with ports := [63], aligning := some (0, 5), job := 9 })] }
theorem test_align :
    ((partOf (nx (exec (.timeAlign 0 5) (runs parted opTimeAlign 2 [0, 2 ^ 31, 9]))) 2).map (·.ports)) = some [63] ∧
    laneUsable (laned usable) 63 = true ∧
    (((partOf (nx (exec (.timeAlignTreeStable 2 [peer]) aligning)) 2).bind (·.tree)).map (·.job)) = some 9 ∧
    (nx (exec (.timeAlignTreeStable 2 [peer]) aligning)).out.length = 1 := by decide +kernel

def treed (t : Tree) (b : Option Barrier) : State := { laned {} with parts := [(2, { part01 with tree := some t, barrier := b })] }
theorem test_parent_loss : usablePorts (treed { peers := [peer], parent := some 63 } none) { peers := [peer], parent := some 63 } 63 = [] ∧
    (((partOf (nx (exec (.parentLoss 2) (treed { peers := [peer], parent := some 63 } none))) 2).bind (·.tree)).map (·.lost)) = some true := by
  decide +kernel

def armed (r : Option Int) : Option Barrier := some { id := 4, count := 2, timeout := 50000, sent := true, rel := r, q := 0, e := 5 }
theorem test_barrier :
    ((((partOf (nx (exec (.barrierArm 0 5) (runs parted opBarrierArm 2 [65535, 1, 0]))) 2).bind (·.barrier)).map (fun b => (b.id, b.timeout, b.rel)))) =
      some (65535, 50000, some 10000) ∧
    ((((partOf (nx (exec (.barrierArm 0 5) (runs (treed { size := 256 } none) opBarrierArm 2 [1, 256, 9]))) 2).bind (·.barrier)).map (·.count))) =
      some 256 ∧
    ((partOf (nx (exec (.armReceive 63 65535) (treed { peers := [peer] } none))) 2).map (·.arms)) = some [(9, 65535)] ∧
    ((((partOf (nx (exec (.releaseReceive 63 (2 ^ 40 - 1)) (treed { peers := [peer], parent := some 63 } (armed none)))) 2).bind (·.barrier)).map (·.rel.isSome))) =
      some true ∧
    ((nx (exec (.barrierTimeout 2) (treed {} (armed none)))).hang.requests.map (fun r => (r.dom, r.cause))) = [(130, 5)] := by decide +kernel

def waitsStart : State := { loaded with
  parts := [(2, { part01 with prog := some prog2, barrier := armed (some 7) })]
  fields := [(0, { stage := 7, warden := .up, run := .held, atStart := true, waitBarrier := true }), (1, { stage := 7, warden := .up, run := .running })] }
/-- Another neighbour on lane 62 can be reached; the parent's lane cannot. -/
def twoWays : Tree := { peers := [peer, { peer with port := 62, serial := 11, child := false, depth := 3 }], parent := some 63 }
theorem test_new_parent : laneUsable { treed twoWays none with lanes := [(62, usable)] } 62 = true ∧ peerLanes twoWays 63 = [63] ∧
    (((partOf (nx (exec (.parentLoss 2) { treed twoWays none with lanes := [(62, usable)] })) 2).bind (·.tree)).map
      (fun t => (t.parent, t.depth, t.lost))) = some (some 62, 4, false) := by decide +kernel

theorem test_barrier_release : (fieldOf (nx (exec (.barrierRelease 2 7) waitsStart)) 0).run = .running ∧
    (fieldOf (nx (exec (.barrierRelease 2 7) waitsStart)) 0).releaseTs = 7 ∧
    (fieldOf (nx (exec (.barrierRelease 2 7) waitsStart)) 1).run = .running := by decide +kernel

/-! ### Guards, seams, replays -/

/-- An INT8 contraction of no products, with an accumulator that holds `n` at its first place. -/
def contr (n : Nat) : Contraction :=
  let zeros : List (List Nat) := List.replicate 8 (List.replicate 16 0)
  { tile := tileAddr 0 true 0, fmtA := 1, fmtB := 1, base := 0, steps := [], acc := (n :: List.replicate 15 0) :: zeros.drop 1
    outs := zeros, outHalf := false, mode := .nearestEven, load := none, exactExport := false, stepCycle := 4, index := 2
    instrAddr := 64 }
/-- A step under way on field 0, with no check observed or every one. -/
def stepping (obs : Nat) : State := { loaded with fields := [(0, { stage := 7, warden := .up, run := .running, observe := obs, level := 4 }), (1, { stage := 7, warden := .up })] }
theorem test_contraction : contractionOk (contr 0) = true ∧ inStep (stepping 0) (tileAddr 0 true 0) = true ∧
    (verdictOf (contr 0) false 0 1).fails = [] ∧ (verdictOf (contr 0) false 0 1).applied = false ∧
    (verdictOf (contr 1) false 0 1).fails ≠ [] ∧ (verdictOf (contr 1) false 0 1).fails.all (fun e => observed (fieldOf (stepping 3) 0) e.1) = true ∧
    (guardOf (nx (exec (.contractionEnd (contr 1)) (stepping 0))) (tileAddr 0 true 0)).gateShut = true ∧
    (guardOf (nx (exec (.contractionEnd (contr 1)) (stepping 3))) (tileAddr 0 true 0)).gateShut = false ∧
    (nx (exec (.contractionEnd (contr 0)) (stepping 0))).guards = [] := by decide +kernel

def export_ (d : Dest) : Export := { tile := tileAddr 0 true 0, header := [1, 2, 3, 4], payload := [5], dest := d, cycle := 9, release := 0 }
def shut : State := { stepping 0 with guards := [(tileAddr 0 true 0, { gateShut := true })] }
def group (ts : List Nat) (st : GroupState) : Group := { id := 1, field := 0, fields := [0], tiles := ts, failed := [], trigger := 0, state := st, spareFirst := false, round := ts }
def grouped (g : Group) (r : Run) : State := { loaded with
  groups := [g]
  fields := [(0, { stage := 7, warden := .up, run := r }), (1, { stage := 7, warden := .up })] }
theorem test_export : (nx (exec (.exportAttempt (export_ (.tile 1))) (stepping 0))).out =
      [.released (tileAddr 0 true 0) (digestOf 0 [1, 2, 3, 4, 5]) (.tile 1) false] ∧
    (guardOf (nx (exec (.exportAttempt (export_ (.tile 1))) (stepping 0))) (tileAddr 0 true 0)).exportNo = 1 ∧
    (guardOf (nx (exec (.exportAttempt (export_ (.fabricPort 3))) (stepping 0))) (tileAddr 0 true 0)).ports =
      [(digestOf 0 [1, 2, 3, 4, 5], .fabricPort 3)] ∧
    (nx (exec (.exportAttempt (export_ .hostPort)) shut)).out = [.marker (tileAddr 0 true 0) [1, 2, 3, 4] 1 .hostPort] := by decide +kernel
theorem test_export_replayed : execOf (grouped (group [0] .same) .held) (tileAddr 0 true 0) = some (.same (group [0] .same)) ∧
    (nx (exec (.exportAttempt (export_ (.tile 1))) (grouped (group [0] .same) .held))).out = [] ∧
    (nx (exec (.exportAttempt (export_ (.tile 1))) (grouped (group [0, 1] .same) .held))).out.length = 1 := by decide +kernel

/-- An injection at site 1 is armed in the tile. -/
def injecting : State := { stepping 0 with fields := [(0, { stage := 7, warden := .up, run := .running, injected := some (tileAddr 0 true 0, 1, 1) }), (1, { stage := 7, warden := .up })] }
theorem test_injection : armedSite injecting (tileAddr 0 true 0) .original = 1 ∧ (verdictOf (contr 0) false 1 1).applied = true ∧
    (guardOf (nx (exec (.contractionEnd (contr 0)) injecting)) (tileAddr 0 true 0)).gateShut = true := by decide +kernel

theorem test_tile_events : execOf (stepping 0) (tileAddr 0 true 0) = some .original ∧
    (guardOf (nx (exec (.sramOwnWrite (tileAddr 0 true 0) 1023 (1023 * 64) [1] false false 0) (stepping 0))) (tileAddr 0 true 0)).touched = [1023] ∧
    (guardOf (nx (exec (.meshWriteReceive (tileAddr 0 true 0) 1023 true) (stepping 0))) (tileAddr 0 true 0)).inbound = true ∧
    (guardOf (nx (exec (.withheldMarkerReceive (tileAddr 0 true 0) 1 3 0) (stepping 0))) (tileAddr 0 true 0)).tainted = true ∧
    (guardOf (nx (exec (.recallMarkerReceive (tileAddr 0 true 0) 1 3) (stepping 0))) (tileAddr 0 true 0)).recalled = true ∧
    (guardOf (nx (exec (.tileSeamReach (tileAddr 0 true 0) 4000 (List.replicate 64 7) none) (stepping 0))) (tileAddr 0 true 0)).arrived = true ∧
    (fieldOf (nx (exec (.tileSeamReach (tileAddr 0 true 0) 4000 (List.replicate 64 7) none) (stepping 0))) 0).arrived = 1 := by decide +kernel

def allIn : State := { stepping 0 with fields := [(0, { stage := 7, warden := .up, run := .running, arrived := 9216 })] }
theorem test_seam_arrival : (fieldPlaces (fieldOf allIn 0)).length = 9216 ∧ (fieldSeams allIn 0).length = 2 := by decide +kernel

def atSeam (n : Nat) : State := { loaded with fields := [(0, { stage := 7, warden := .up, run := .held, seam := n }), (1, { stage := 7, warden := .up, run := .held, seam := n })] }
theorem test_seam_release : mayRelease (atSeam 0) 0 40 = true ∧ mayRelease (atSeam 1) 0 40 = true ∧
    (fieldOf (atSeam 0) 0).power.excessLost = none ∧ borderLinks (atSeam 0) 0 = [] ∧ (fieldPart (atSeam 0) 0).map (·.1) = some 2 := by decide +kernel

def failing (st : GroupState) (sp : List (Nat × Nat)) (cs : List Nat) : Group := { group [1] st with failed := [⟨1, 1, 0, 0⟩], round := [1], spares := sp, copies := cs }
theorem test_replay_groups :
    startable (grouped (failing .waiting [] []) .held) (failing .waiting [] []) = true ∧
    skipsSame (grouped (failing .waiting [] []) .held) (failing .waiting [] []) ⟨1, 1, 0, 0⟩ = false ∧
    ((nx (exec (.replayGroupStart 0) (grouped (failing .waiting [] []) .held))).groups.map (·.state)) = [.same] ∧
    ((nx (exec (.imageCopyDone 0 9600 5 5 7) (grouped (failing .copying [(1, pa 0 9600)] [1]) .held))).groups.map (fun g => (g.state, g.copies))) =
      [(.spare, [])] ∧
    isPair (grouped (failing .spare [(1, pa 0 9600)] []) .held) 1 = false := by decide +kernel

/-- Tile 1 of field 0 has run the step again, and so has the spare. -/
def redone (st : GroupState) (sp : List (Nat × Nat)) : State := { grouped (failing st sp []) .held with
  guards := [(tileAddr 0 true 1, { redone := true }), (pa 0 9600, { redone := true })] }
theorem test_replay_verdict : rerunDone (redone .same []) (failing .same [] []) = true ∧
    ([1].filterMap (againOf (redone .same []))) = [] ∧
    ((nx (exec (.replayVerdict 1 50) (redone .same []))).groups.map (fun h => (h.id, h.state, h.cycles))) = [(1, .done, 50)] := by
  decide +kernel
theorem test_spare_verdict : rerunDone (redone .spare [(1, pa 0 9600)]) (failing .spare [(1, pa 0 9600)] []) = true ∧
    spareAgain (redone .spare [(1, pa 0 9600)]) (1, pa 0 9600) = none ∧ isPair (redone .spare [(1, pa 0 9600)]) 1 = false := by
  decide +kernel
theorem test_replay_abandoned : overLimit { grouped (failing .same [] []) .held with now := 100000000 } (failing .same [] []) = true ∧
    (nx (exec (.replayAbandoned 1) { grouped (failing .same [] []) .held with now := 100000000 })).groups = [] ∧
    (fieldOf (nx (exec (.replayAbandoned 1) { grouped (failing .spare [(1, pa 0 9600)] []) .held with now := 100000000 })) 0).lostCause = some 3 := by
  decide +kernel

def spotting (b : Bool) : State := { loaded with
  fields := [(0, { stage := 7, warden := .up, run := .running, idleDirty := true, spots := [{ tile := 1, phys := 1, spare := 9600, seamNo := 0, running := b, digest := 5 }], lent := [(9600, 0)] })]
  guards := [(pa 0 9600, { redone := true, digest := 5 })] }
theorem test_spot_checks : (fieldOf (nx (exec (.idleVersionDrained 0) (spotting false))) 0).idleDirty = false ∧
    ((fieldOf (nx (exec (.snapshotDone 0 1) (spotting false))) 0).spots.map (·.running)) = [true] ∧
    (findSpot (spotting true) 0 1 true).isSome = true := by decide +kernel
theorem test_spot_agrees : (fieldOf (nx (exec (.spotCheckVerdict 0 1 100) (spotting true))) 0).spots = [] ∧
    (fieldOf (nx (exec (.spotCheckVerdict 0 1 100) (spotting true))) 0).cnt.agree = 1 := by decide +kernel


/-! ### Fault collection, thermal, bring-up -/

def pinned (l : Option SourceDetail) (ep : Option Episode) : State := { up with
  fields := [(83, { stage := 7, warden := .up, guardPins := [tileAddr 83 true 5], latched := l, episode := ep })]
  guards := [(tileAddr 83 true 5, { pin := true, cls := 1 })] }
def det (cls : Nat) : SourceDetail := { cls := cls, tile := tileAddr 83 true 5, master := 1, access := 0, loc := 0, detail := 0 }
def epi (r : Bool) : Episode := { first := det 1, time := 4, gen := 0, classes := 2, released := r }
theorem test_fault_episodes :
    (fieldOf (nx (exec (.errorSourceLatch 83 .guardRoot 63 7) (pinned none none))) 83).latched = some (guardDetail (pinned none none) (tileAddr 83 true 5)) ∧
    ((fieldOf (nx (exec (.errorSourceLatch 83 (.level (det 12)) 63 7) (pinned none none))) 83).episode.map (·.first)) = some (det 12) ∧
    ((fieldOf (nx (exec (.errorSourceLatch 83 (.router (det 6)) 63 7) (pinned (some (det 1)) none))) 83).routerPins) = [det 6] ∧
    (guardOf (nx (exec (.sourceAcknowledge 83) (pinned (some (det 1)) none))) (tileAddr 83 true 5)).pin = false ∧
    (fieldOf (nx (exec (.episodeClose 83) { up with fields := [(83, { warden := .up, episode := some (epi true) })] })) 83).episode = none ∧
    (got (exec (.rateSummary 83) { up with
      now := 2000000000
      fields := [(83, { warden := .up, summary := some (epi true, 4) })] })).isSome = true := by decide +kernel

def stormOf : Storm := { start := 5, stopped := 0, bursts := 2, peak := 3, counts := [], droop := false, prog := false, continued := false, first := 7 }
def find_ : Finding := { kind := 1, confirm := 1, phys := 5, severity := 2, d0 := 0, d1 := 0, d2 := 0, opTime := 0, eventSeq := 0, occ := 1, seen := detected up 0 none }
theorem test_storms :
    ((nx (exec (.stormClose 83) { up with now := 2000000, fields := [(83, { warden := .up, storm := some stormOf })] })).storms.map
      (fun e => (e.1, e.2.stopped))) = [(83, 2000000)] ∧
    mergeWaits { up with storms := [(83, { stormOf with counts := List.replicate 13 0 })] } = false ∧
    (nx (exec .signatureSigned { up with sig := { queue := [find_] } })).sig.queue = [] ∧
    (fieldOf (nx (exec (.droopDetect 0 500 9) (stepping 0))) 0).droop = true := by decide +kernel

theorem test_ecc : servesProgram (stepping 0) (tileAddr 0 true 0) = true ∧
    (guardOf (nx (exec (.eccCorrectedNotice (tileAddr 0 true 0) 1023 511) up)) (tileAddr 0 true 0)).rowUses = [(1023, 0)] ∧
    ((fieldOf (nx (exec (.eccUncorrectable (tileAddr 0 true 0) 1023 0 false) (stepping 0))) 0).rowsDue.map (fun e => (e.1, e.2.1))) = [(0, 1023)] ∧
    ((fieldOf (nx (exec (.scrubUncorrectable (tileAddr 0 true 0) 1023) (stepping 0))) 0).rowsDue.map (fun e => (e.1, e.2.1))) = [(0, 1023)] := by
  decide +kernel

def heated (t : Thermal) : State := { loaded with fields := [(0, { stage := 7, warden := .up, therm := t }), (1, { stage := 7, warden := .up })] }
theorem test_thermal : thermUp (heated {}) 0 = true ∧ thermUp (heated {}) hubField = true ∧
    (thermOf (nx (exec (.diodeRotation 0) (heated { next := 3 }))) 0).pending = [3] ∧ readGood {} (some 410) = true ∧
    ((thermOf (nx (exec (.diodeReadDone 0 3 (some 410) []) (heated { pending := [3] }))) 0).diodes) = [none, none, none, some 410] ∧
    ends (exec (.thermalRead 0 5 []) (runs up opThermalRead 0 [0x7F])) up opThermalRead 0 [0x7F] stOk
      (thermalResults up hubField) = true ∧
    (got (exec .thermalThrottleReplan loaded)).isSome = true := by decide +kernel

theorem test_shutdown : (fieldOf (nx (exec (.fieldShutdown 0) (heated { node0 := 1680 }))) 0).therm.shut = some 1 ∧
    recordCommitted { heated { shut := some 5 } with nor := { ring := [recd] } } 5 = true ∧
    (fieldOf (nx (exec (.shutdownProceed 0) { heated { shut := some 5 } with nor := { ring := [recd] } })) 0).run = .gated ∧
    (fieldOf (nx (exec (.thermalRestart 0) { heated { shut := some 5, shutDone := true, node0 := 1359, coolFrom := some 0, diodes := [some 1359, none, none, none] } with now := 60000000000 })) 0).run = .idle := by
  decide +kernel

def trippedAt (t : TripSource) : State := { up with
  arb := { trips := [⟨t, 0, 0⟩], hubOff := t == .hub }
  cab := { opTime := 960 } }
theorem test_trips : tripped up (.zone 7) = false ∧ tsBit (nx (exec (.zoneTrip 7) up)) tsThermtrip = true ∧
    (nx (exec .hubTrip up)).arb.hubOff = true ∧ tripped (trippedAt (.zone 7)) (.zone 7) = true ∧
    tripped (nx (exec (.tripRestart (.zone 7) 4) (trippedAt (.zone 7)))) (.zone 7) = false ∧
    ((nx (exec (.tripRestart .hub 4) (trippedAt .hub))).hang.requests.map (fun r => (r.level, r.cause))) = [(3, 0x0B)] := by decide +kernel

/-! ### Power loss, power-on, bring-up -/

theorem test_power_loss : (nx (exec .hubFeedLoss loaded)).parts = [] ∧ (nx (exec .hubFeedLoss loaded)).feed = false ∧
    (nx (exec .hubFeedLoss { up with arm := { tenantKeys := [(4, [1])], unsealed := true } })).arm.tenantKeys = [(4, [1])] := by decide +kernel

def rises : PowerOnFound := { norFails := 2, norBig := false, lidOpen := true, buttonLow := false, smbAddrHigh := true, mfr := [], pmbus := [], hubDiodes := [], pgood := List.replicate 8 true }
/-- The feed is off; the journal holds a snapshot of operating time 9, with the power-cycle count at its top. -/
def unfed : State := { State.reset with feed := false, nor := { snap := some { opTime := 9, cycles := 0xFFFFFF, aCounter := 4, reason := 2 } } }
theorem test_power_on_witness : unfed.feed = false ∧ rises.norFails < 3 ∧ (unfed.nor.snap.map (·.opTime)) = some 9 := by decide +kernel

def foundAt (w : Bool) (cause : Nat) (ex : List Nat) : StageFound := { redo := false, cause := cause, waferFail := w, excluded := ex, durationMs := 5, quickPass := [], quickFail := [], links := [], routers := [], ports := [], lanes := [], rows := [], badTiles := [], hotLow := 0, cutShort := 0, passes := [], outliers := [], vchar := [], diodes := [], unsealed := true, image := [], repeats := 0 }
/-- Bring-up stands at a stage; fields 0 and 83 take part. -/
def stageIs (n : Nat) : State := { State.reset with
  boot := { stage := n }
  fields := [(0, { stage := n, warden := .starting }), (83, { stage := n, warden := .starting })] }
theorem test_bring_up : (stageIs 0).feed = true ∧ (stageIs 0).arb.hubOff = false ∧ (stageIs 0).boot.failed = false ∧
    (nx (exec (.stageComplete (foundAt true 4 [])) (stageIs 0))).boot.failed = true ∧
    (nx (exec (.stageComplete (foundAt true 1 [])) (stageIs 0))).svc.romOnly = false := by decide +kernel
/-- A board descriptor with its CRC-32C in its last word: the text takes the CRC register to 0, where zeros keep it. -/
def boardText : List Byte := List.replicate 4 0xFF ++ List.replicate 4088 0
def board : List Byte := boardText ++ List.replicate 4 0xFF
def boarded : State := { stageIs 0 with nor := { board := board } }
theorem foldl_replicate_fixed {α β : Type} (f : β → α → β) (b : β) (a : α) (h : f b a = b) : ∀ n, (List.replicate n a).foldl f b = b
  | 0 => rfl
  | n + 1 => by rw [List.replicate_succ, List.foldl_cons, h]; exact foldl_replicate_fixed f b a h n
theorem boardText_length : boardText.length = 4092 := by
  rw [boardText, List.length_append, List.length_replicate, List.length_replicate]
theorem board_crc : crc32c boardText = 0xFFFFFFFF := by
  rw [crc32c, boardText, List.foldl_append]
  have h4 : (List.replicate 4 (0xFF : Byte)).foldl (fun r b => (List.range 8).foldl (fun x _ => crc32cBit x) (r ^^^ b.toNat)) 0xFFFFFFFF = 0 := by
    decide +kernel
  rw [h4, foldl_replicate_fixed _ _ _ (by decide +kernel)]; exact Nat.zero_xor _
theorem test_board_good : boardGood boarded = true := by
  have hl : board.length = 4096 := by rw [board, List.length_append, boardText_length, List.length_replicate]
  have ht : board.take 4092 = boardText := List.take_left' boardText_length
  have hw : boardWord boarded 4092 = 0xFFFFFFFF := by decide +kernel
  rw [boardGood, hw]
  show (decide (board.length = 4096) && decide (crc32c (board.take 4092) = 0xFFFFFFFF)) = true
  rw [ht, hl, board_crc]; rfl
theorem test_board : boardGood (stageIs 0) = false ∧ stageOverdue (stageIs 1) = false ∧
    (nx (exec (.stageComplete (foundAt false 0 [])) (stageIs 0))).boot.failed = true ∧
    stageOverdue { stageIs 2 with now := 10 ^ 12 } = true := by decide +kernel
theorem test_warden_start : ((fieldOf (nx (exec (.wardenStartFail 83) (stageIs 2))) 83).starts) = 1 := by decide +kernel

/-- Two fields wait for a wave; 0 serves a program. -/
def waving : State := { loaded with boot := { s1 := true, stage := 4, pendingFields := [2, 0] } }
theorem test_waves : waveLimit waving [2, 0] = 12 ∧ fieldLoaded waving 2 = false ∧ fieldLoaded waving 0 = true ∧
    waving.boot.inWave = [] ∧ waving.boot.redo = [] ∧ waving.hang.fwUp = true := by decide +kernel

/-- A seam table entry: eight seams 4,000 cycles apart, the first with a test window, the last ending the token. -/
def entry (i : Nat) : Dword := BitVec.ofNat 64 (4000 * (i + 1) + 8 * 2 ^ 40 + (if i = 7 then 2 ^ 56 else 0) + (if i = 0 then 2 ^ 57 else 0))
def dir0 : List DirEntry := [{ field := 0, reserved := 0, entries := (List.range 8).map entry }]
theorem test_load : directoryOk (partFields { part01 with colHi := 0 }) 500 0 0 dir0 = true ∧ (run opMapGrid 2 [0, 0, 0, 1, 500, 0, 7]).f 6 0 7 = 1 ∧
    wantRedund oneField 0 = false := by decide +kernel
theorem test_load_layout : (layoutAt oneField 0 1000 false 0 0).missing = [] := by decide +kernel

/-! ### Worked examples of the spec -/

/-- Chapter 4's example (Tables 4.9 and 4.10): MXFP8 E5M2, scales 130 and 120, with the stuck product bit of lane (2,5). -/
def exampleContraction : Contraction :=
  let z (s : Nat) : Opnd := ⟨0, s⟩
  let colA (v : Nat) : List Opnd := (List.range 8).map (fun i => if i = 2 then ⟨v, 130⟩ else z 130)
  let rowB (v : Nat) : List Opnd := (List.range 16).map (fun j => if j = 5 then ⟨v, 120⟩ else z 120)
  let zeros : List (List Nat) := List.replicate 8 (List.replicate 16 0)
  { tile := tileAddr 28 true 2010, fmtA := 9, fmtB := 9, base := -4, steps := [(colA 0x02, rowB 0x4D), (colA 0xB9, rowB 0x52)]
    acc := zeros.set 2 ((List.replicate 16 0).set 5 (2 ^ 96 + 10 * 2 ^ 18 - 26 * 2 ^ 32))
    outs := zeros, outHalf := false, mode := .nearestEven, load := none, exactExport := false, stepCycle := 1730, index := 14
    instrAddr := 0xC40 }
theorem test_residue_example :
    (verdictOf exampleContraction false 0 1).fails.head?.map (fun e => (e.1, e.2.row, e.2.col, e.2.syn)) = some (1, 2, 5, 256) ∧
    ((verdictOf exampleContraction false 0 1).fails.head?.map (fun e => syndromeWord exampleContraction 0 e.1 false false e.2)) =
      some 0x01CD853310802A01 ∧
    (residueFail (predictRes (decodeContr exampleContraction) exampleContraction)
      (observedRes (decodeContr exampleContraction) exampleContraction.acc)).map (·.syn) = some 256 := by decide +kernel

/-- The fault record of Table 10.10's episode: w0, w1 and the DETAIL words. -/
def exampleEpisode : Episode :=
  { first := { cls := 1, tile := 0x39140A, master := 0, access := 0, loc := 0xC40, detail := 0x01CD853310802A01 }, time := 3612004501753
    gen := 5, classes := 1, second := 0x394737, layer := 0x12, op := 0x301 }
theorem test_fault_record_example : (faultWords 28 1 exampleEpisode 1 0).take 3 = [0x00051C01, 0x0039140A, 0xC40] ∧
    ((faultWords 28 1 exampleEpisode 1 0).drop 5).take 2 = [0x10802A01, 0x01CD8533] ∧ (faultWords 28 1 exampleEpisode 1 0).length = 12 := by
  decide +kernel

/-- Chapter 7's digest word of context 291, group 0x0105, replica 1, and chapter 11's reset word of the CTX reset with generation 22. -/
theorem test_word_examples :
    digestWord { tenant := 3, num := 291, part := 2, first := 0, length := 64, masks := [], group := 0x105, replica := 1, ready := true, defined := 5, digest := 5, parts := [5] } 2 1 2 true =
      0x2020A04020280123 ∧
    resetWord 2 1 3 22 false true 4 2095 = 0x00041780024B030A := by decide +kernel

/-- Chapter 1's example: L(40,12) of F(8,2) is served by P(97,12) at physical address 0x410C61. -/
def remapped : State := { up with
  parts := [(2, { part01 with colLo := 8, colHi := 8, rowLo := 2, rowHi := 2 })]
  fields := [(32, { stage := 7, warden := .up, map := { owners := [(1240, 1297)] } })] }
theorem test_address_example : taField 0x400C28 = 32 ∧ taPlace 0x400C28 = 1240 ∧
    pa 32 (ownerOf (fieldOf remapped 32) (posOf (fieldOf remapped 32) 1240)) = 0x410C61 := by decide +kernel

/-- FIPS 180-4's message "abc": the first word of its SHA-256 digest is ba7816bf. -/
theorem test_sha256 : (sha256 [0x61, 0x62, 0x63]).head? = some 0xba7816bf := by decide +kernel

/-! ### Commands that are not well-formed -/

/-- The rows of in-flight commands that have no further operand. -/
def queueRows : List (Nat → Nat → Instr) := [.orderedCommandStart, .nop, .fence, .mapGridDefine, .unmapUnload, .unmapDissolve, .queryMap,
  .checkPolicy, .spotRate, .redundancy, .replayPolicy, .digestCompare, .expel, .benchSchedule, .benchRun, .benchResult, .quarantine,
  .release, .spareStatus, .sigExport, .reset, .heartbeatCfg, .logOpen, .logClear, .dumpFetch, .powerCap, .opmode, .counterLatch,
  .latchOutputDone, .counterFreeze, .traceCfg, .timeAlign, .barrierArm, .tenantScrub, .alarmAck, fun q e => .mapGridLoad q e [],
  fun q e => .digestDefine q e [], fun q e => .digestDefineReadDone q e [], fun q e => .thermalRead q e [], fun q e => .keyLoad q e []]
/-- The rows of a field that have no further operand with a range. -/
def fieldRows : List (Nat → Instr) := [.replayGroupStart, .idleVersionDrained, .sourceAcknowledge, .episodeClose, .rateSummary, .stormClose,
  .deadlock, .barrierWaitLimit, .wardenHeartbeat, .wardenHeartbeatMiss, .wardenRestartDone, .wardenRestartTimeout, .freqChangeEnd,
  .droopLockoutEnd, .fieldShutdown, .shutdownProceed, .thermalRestart, .benchIdleWindow, .benchDroopLockoutEnd, .wardenStartFail,
  fun f => .fieldSeamArrival f 0 [], fun f => .fieldRelease f 0, fun f => .errorSourceLatch f .guardRoot 0 0, fun f => .droopDetect f 0 0,
  fun f => .seamOverrun f 0, fun f => .estimatePeriod f ⟨[], [], []⟩, fun f => .computeCmdBoundary f ⟨0, 0, 0, 1⟩,
  fun f => .wardenSlotParity f 0, fun f => .benchSegmentEnd f 0 goodSeg, fun f => .benchSlotStart f 0, fun f => .snapshotDone f 0,
  fun f => .spotCheckVerdict f 0 0, fun f => .imageCopyDone f 0 0 0 0]
/-- The rows of a lane, of a partition, of a domain and of a tenant's registers. -/
def laneRows : List (Nat → Instr) := [.probeSend, .laneSyncLoss, .laneSyncRegain, fun l => .probeReceive l 0 0 false,
  fun l => .echoReceive l 0 0, fun l => .armReceive l 0, fun l => .releaseReceive l 0, fun l => .laneFrameCrcDiscard l []]
def partRows : List (Nat → Instr) := [.parentLoss, .barrierTimeout, fun p => .barrierRelease p 0, fun p => .timeAlignTreeStable p [],
  fun p => .freezeTrigger p [], .logWindowReady, fun t => .legacyFmtWrite t 0, fun t => .statusIrqWrite t 0, fun t => .wallclockLoWrite t 0,
  fun t => .wallclockHiWrite t 0, fun t => .hostHbWrite t 0, fun t => .logAdvWrite t 0, fun t => .logLostClear t 0,
  fun t => .counterLowRead t 0, fun t => .registerWrite t 0 4 0, fun t => .sqDoorbell t 0 0, fun t => .cqDoorbell t 0 0,
  fun t => .dbBadClear t 0 0, fun t => .queueEnable t 0 0, fun t => .queueDisable t 0 0, fun t => .scrubPassDone t 0 [],
  fun t => .digestIntervalBoundary t 0, fun t => .comparisonClose t 0, fun t => .reverifyDone t 0 []]

/-- Each check of a row refuses the first value past its range, and lets its last value pass. -/
theorem test_wf_queue_rows : queueRows.all (fun k => !(k 128 0).wf && !(k 0 4096).wf && (k 127 4095).wf) = true := by decide +kernel
theorem test_wf_field_rows : fieldRows.all (fun k => !(k 84).wf && (k 83).wf) = true ∧ laneRows.all (fun k => !(k 64).wf && (k 63).wf) = true ∧
    partRows.all (fun k => !(k 16).wf && (k 15).wf) = true := by decide +kernel
/-- The further checks of single rows. -/
theorem test_wf_refuses :
    [Instr.sqDoorbell 0 8 0, .cqDoorbell 0 8 0, .dbBadClear 0 8 0, .commandFetch 128 (List.replicate 16 0), .commandFetch 0 (List.replicate 15 0),
     .digestDefine 0 0 (List.replicate 10001 0), .freezeTrigger 0 [⟨84, 0, []⟩], .counterLowRead 0 65536, .registerWrite 0 65536 4 0,
     .queueEnable 0 128 0, .queueDisable 0 128 0, .queueFault 128, .zonePgoodLoss 8, .zonePgoodReturn 8, .zoneTrip 8, .consoleDump 3,
     .consoleAlarmPolicy 4 0, .consoleAlarmPolicy 0 4, .pmbusSlot 8 false .failed, .pmbusSegmentRetry 8 .failed, .journalFold (some 1919),
     .journalEntryWrite (some 2048), .dumpWriteDone (some 1535), .dumpWriteDone (some 1920), .probeReceive 0 16 0 false,
     .probeReceive 0 0 (2 ^ 40) false, .echoReceive 0 16 0, .echoReceive 0 0 (2 ^ 40), .armReceive 0 65536, .sramOwnWrite (2 ^ 24) 0 0 [] false false 0,
     .sramOwnWrite 0 1024 0 [] false false 0, .meshWriteReceive (2 ^ 24) 0 false, .meshWriteReceive 0 1024 false,
     .withheldMarkerReceive (2 ^ 24) 0 0 0, .withheldMarkerReceive 0 0 4 0, .recallMarkerReceive (2 ^ 24) 0 0, .recallMarkerReceive 0 0 4,
     .tileSeamReach (2 ^ 24) 0 (List.replicate 64 0) none, .tileSeamReach 0 0 [] none, .imageCopyDone 0 10000 0 0 0, .snapshotDone 0 10000,
     .spotCheckVerdict 0 10000 0, .eccCorrectedNotice (2 ^ 24) 0 0, .eccCorrectedNotice 0 1024 0, .eccCorrectedNotice 0 0 512,
     .eccUncorrectable (2 ^ 24) 0 0 false, .eccUncorrectable 0 1024 0 false, .scrubUncorrectable (2 ^ 24) 0, .scrubUncorrectable 0 1024,
     .scrubPassDone 0 131072 [], .digestIntervalBoundary 0 131072, .comparisonClose 0 131072, .linkResendThreshold (2 ^ 24) 0 0,
     .linkResendThreshold 0 4 0, .wardenSlotParity 0 40, .resetComplete 229 0, .resetEscalate 229, .staleRecordTimer 229,
     .staleMessageDrop 229 0, .thermalModelUpdate 85, .diodeRotation 85, .diodeReadDone 85 0 none [], .diodeReadDone 0 4 none [],
     .benchSegmentEnd 0 4 goodSeg, .benchSlotStart 0 4, .benchOverdue (2 ^ 24)].all (fun i => !i.wf) = true ∧
    [Instr.sqDoorbell 15 7 0, .commandFetch 127 (List.replicate 16 0), .queueEnable 15 127 0, .journalFold (some 1920), .dumpWriteDone (some 1919),
     .resetEscalate 228, .wardenSlotParity 83 39, .benchSlotStart 83 3, .diodeRotation 84, .consoleDump 2].all (fun i => i.wf) = true := by
  decide +kernel

/-! ### The queue, idling, and refusals -/

/-- A command that is ill-formed faults; an event that cannot happen in the state changes nothing; an empty queue idles. -/
theorem test_step_idle : (nx (step State.reset)).now = 1 ∧ (nx (step { State.reset with feed := false })).now = 0 ∧
    got (step { up with pending := [.hubRestart] }) = some up ∧ got (step { up with pending := [.zonePgoodLoss 8] }) = none ∧
    got (step { up with pending := [.fwCommandDispatch, .snapshotTimer] }) = some { up with pending := [.snapshotTimer] } := by decide +kernel
theorem test_reset_holds : State.reset.pending = [] ∧ State.reset.feed = true ∧ State.reset.boot.stage = 0 ∧ decodeTableWord 8 1 = none ∧
    (State.reset.withFetchWord 8 1) = State.reset := by decide +kernel


/-! ### Further witnesses -/

/-- The operation of a scrub of tenant 3 over field 0, whose mark is its. -/
def scrubbing : State := { up with
  cab := { marks := [(0, 3)] }
  fe := { ops := [{ handle := 3, opcode := opTenantScrub, args := [3, 0, 0, 0, 0] }] } }
theorem test_scrub_done : (scrubbing.fe.ops.find? (fun x => x.handle == 3 && x.opcode == opTenantScrub && x.final.isNone)).isSome = true ∧
    scrubbing.cab.failed = false ∧ tget scrubbing.cab.marks 0 0 = 3 := by decide +kernel

/-- COUNTER_LATCH of field 0, with room for 16 MiB of output. -/
def latchCmd : Cmd := cmdIn .background opCounterLatch 2 [1, 0, 0, 0, 0, 0, 0, 0, 2 ^ 24, 4096]
theorem tileRecord_length_le (s : State) (f l : Nat) (h : (fieldOf s f).latchHead = []) : (tileRecord s f l).length ≤ 64 := by
  have hb (c : TileCount) (e : Table Nat) : ((tileBlock c ++ (engineBlocks 0 0 c.eng e).flatMap (fun n => lowBytes n 6)).length + 7) / 8 * 2 ≤ 64 := by
    rw [show engineBlocks 0 0 c.eng e = [] from rfl, List.flatMap_nil, List.append_nil]
    rw [show (tileBlock c).length = 76 from rfl]; decide
  simp only [tileRecord, h]
  split
  · rw [List.length_replicate]; exact hb _ _
  · rw [List.length_take]; exact Nat.le_trans (Nat.min_le_left _ _) (hb _ _)
theorem fieldPlaces_length_le (x : Field) : (fieldPlaces x).length ≤ 9216 := by
  have h : logicalPlaces.length = 9216 := by simp [logicalPlaces, List.length_flatMap]
  unfold fieldPlaces; split
  · exact Nat.le_trans (List.length_filter_le _ _) (Nat.le_of_eq h)
  · exact Nat.le_of_eq h
theorem latchOutput_length_le (s : State) (f : Nat) (h : (fieldOf s f).latchHead = []) (hp : (fieldOf s f).latchProfiles = []) :
    (latchOutput s 0 f).length ≤ 9216 * 64 := by
  have hs := List.sum_le_card_nsmul ((fieldPlaces (fieldOf s f)).map (fun l => (tileRecord s f l).length)) 64
    (by intro x hx; obtain ⟨l, -, rfl⟩ := List.mem_map.1 hx; exact tileRecord_length_le _ _ _ h)
  rw [List.length_map, smul_eq_mul] at hs
  simp only [latchOutput, h, hp, if_true, List.flatMap_nil, List.append_nil, List.nil_append, List.length_flatMap]
  exact Nat.le_trans hs (Nat.mul_le_mul_right 64 (fieldPlaces_length_le _))
theorem test_latch_place : latchFields latchedOut latchCmd = [0] ∧ (fieldOf latchedOut 0).latchHead = [] ∧
    (fieldOf latchedOut 0).latchProfiles = [] ∧ 4 * (9216 * 64) ≤ outLen latchCmd := by decide +kernel
theorem test_latch_room : 4 * ((latchFields latchedOut latchCmd).flatMap (latchOutput latchedOut 0)).length ≤ outLen latchCmd := by
  obtain ⟨hf, hh, hp, ho⟩ := test_latch_place
  rw [hf, List.flatMap_cons, List.flatMap_nil, List.append_nil]
  exact Nat.le_trans (Nat.mul_le_mul_left 4 (latchOutput_length_le _ _ hh hp)) ho

/-- The shard's context is being verified again; two more replicas of its group are known. -/
def verifying : State := sharded { shard with reverify := true, remotes := [2, 7], known := [(2, 0), (7, 0)] }
theorem test_digest_degraded : (nx (exec (.digestCompare 0 5) (runs verifying opDigestCompare 2 [8, 0]))).out =
      [.completion 0 0 (completionWords stDegraded 0 0 true false 5 0 0 0 0 [5, 0, 0, 0])] ∧
    ((findContext (nx (exec (.expel 0 5) (runs threeInView opExpel 2 [4, 1]))) 3 8).map (·.expelled)) = some true := by decide +kernel

theorem test_quiesce_done : tenantsDone { up with hang := { fwUp := true, quiesce := 1 } } = true ∧
    allFields.all (quietField { up with hang := { fwUp := true, quiesce := 1 } }) = true := by decide +kernel

theorem test_freeze_at_once : (got (exec (.counterFreeze 0 5) (runs loaded opCounterFreeze 2 [0]))).isSome = true ∧
    ((partOf (nx (exec (.counterFreeze 0 5) (runs loaded opCounterFreeze 2 [0]))) 2).map (·.freeze)) = some none := by decide +kernel

theorem test_router_pin_joins_storm : ((fieldOf (nx (exec (.errorSourceLatch 83 (.router (det 6)) 63 7)
      { up with fields := [(83, { warden := .up, latched := some (det 1), storm := some stormOf })] })) 83).storm.map (·.routers)) = some 1 := by
  decide +kernel

theorem test_thermal_witness : ({ loaded with arb := {} } : State).parts = [(2, { part01 with prog := some prog2 })] ∧
    (thermOf (heated { pending := [3] }) 0).shutDone = false ∧ thermUp up 0 = true := by decide +kernel

theorem test_stage_witnesses : (stageIs 1).boot.failed = false ∧ clocked (stageIs 1) = true ∧ (foundAt false 0 []).redo = false ∧
    (fieldOf (stageIs 2) 83).stage = 2 ∧ (fieldOf (stageIs 1) 7).excluded = false := by decide +kernel

end Sys2Proof.Tests
end

section
/-! SUPPORT. The frame of each command and of a step. Every row of `exec` has one lemma: where it answers a next state, that state agrees
with the old one outside the parts that `changes` lists for the row. The rows follow the order of the model's files. Their proofs open the
table by `delta`: as a simp lemma it would be compiled into one equation per row, for which all the proofs elaborated side by side wait. -/

namespace Sys2Proof.Machine

/-! ### Outcomes that keep what lies outside a choice of parts -/

/-- Where the outcome is a next state, it agrees with `s` outside the chosen parts. -/
def KeepsRest (κ : Mask) (s : State) : Result → Prop
  | .next t => erase κ t = erase κ s
  | .fault _ => True
  | .refused _ => True

@[simp] theorem keepsRest_next (κ : Mask) (s t : State) : KeepsRest κ s (.next t) ↔ erase κ t = erase κ s := Iff.rfl
@[simp] theorem keepsRest_fault (κ : Mask) (s : State) (r : Fault) : KeepsRest κ s (.fault r) := trivial
@[simp] theorem keepsRest_idle (κ : Mask) (s : State) (why : String) : KeepsRest κ s (idle s why) := rfl

@[simp] theorem keepsRest_ite (κ : Mask) (s : State) (c : Prop) [Decidable c] (a b : Result) :
    KeepsRest κ s (if c then a else b) ↔ (c → KeepsRest κ s a) ∧ (¬ c → KeepsRest κ s b) := by
  split <;> simp [*]

@[simp] theorem keepsRest_whenOk (κ : Mask) (s : State) (c : Bool) (why : String) (t : State) :
    KeepsRest κ s (whenOk s c why t) ↔ (c = true → erase κ t = erase κ s) := by
  cases c <;> simp

@[simp] theorem keepsRest_whenSome {α : Type} (κ : Mask) (s : State) (o : Option α) (why : String) (k : α → Result) :
    KeepsRest κ s (whenSome s o why k) ↔ ∀ a, o = some a → KeepsRest κ s (k a) := by
  cases o <;> simp

@[simp] theorem keepsRest_served (κ : Mask) (row : String) (t : Nat) (s u : State) :
    KeepsRest κ s (served row t s u) ↔ (t < 16 → apServed s = true → erase κ u = erase κ s) := by
  unfold served
  split <;> cases apServed s <;> simp_all

@[simp] theorem keepsRest_smbWrite (κ : Mask) (s t : State) (pecOk : Bool) :
    KeepsRest κ s (smbWrite s pecOk t) ↔ (s.feed = true → pecOk = true → s.tray.smbDead = false → erase κ t = erase κ s) := by
  unfold smbWrite
  cases s.feed <;> cases pecOk <;> cases s.tray.smbDead <;> simp

@[simp] theorem keepsRest_consoleRun (κ : Mask) (s t : State) (role : Nat) (rom : Bool) (h_out : κ.out = true) :
    KeepsRest κ s (consoleRun s role rom t) ↔
      (clocked s = true → s.svc.vbus = true → consoleMay s role rom = true → erase κ t = erase κ s) := by
  unfold consoleRun
  cases clocked s <;> cases s.svc.vbus <;> cases consoleMay s role rom <;> simp [h_out]

/-! ### Facts about operations that single rows need -/

theorem erase_setCab (κ : Mask) (s : State) (c : Cabinet) (h : SameCab κ c s.cab) : erase κ { s with cab := c } = erase κ s := by
  simp only [erase, eraseCab_same κ c s.cab (.inr h)]

/-- The state that check 4 hands on, where it is known what the check answers. -/
theorem erase_of_check4 (κ : Mask) {s u : State} {c : Cmd} {o : Option Nat} (h : check4 s c = (o, u)) (h_nor : κ.nor = true)
    (h_arm : κ.arm = true) (h_out : κ.out = true) (h_status : κ.status = true) (h_arrivals : κ.arrivals = true)
    (h_aCounter : κ.aCounter = true) : erase κ u = erase κ s := by
  rw [← erase_check4 κ s c h_nor h_arm h_out h_status h_arrivals h_aCounter, h]

/-! ### The front end -/

@[simp] theorem keepsRest_execCommandFetch (q : Nat) (words : List Word) (s : State) :
    KeepsRest (changes (.commandFetch q words)) s (execCommandFetch q words s) := by
  delta changes
  simp only [execCommandFetch, keepsRest_ite, keepsRest_fault, keepsRest_idle, implies_true, true_and]
  refine fun _ _ => ⟨fun _ => by simp, fun _ => ?_⟩
  split
  · simp
  · split
    next hu => simp [erase_of_check4 _ hu]
    next hu => simp [erase_of_check4 _ hu]

@[simp] theorem keepsRest_execOrderedCommandStart (q e : Nat) (s : State) :
    KeepsRest (changes (.orderedCommandStart q e)) s (execOrderedCommandStart q e s) := by
  delta changes; simp [execOrderedCommandStart]

@[simp] theorem keepsRest_execFwCommandDispatch (s : State) : KeepsRest (changes .fwCommandDispatch) s (execFwCommandDispatch s) := by
  delta changes; simp [execFwCommandDispatch]

@[simp] theorem keepsRest_execOperationOutcome (handle : Nat) (s : State) :
    KeepsRest (changes (.operationOutcome handle)) s (execOperationOutcome handle s) := by
  delta changes
  simp only [execOperationOutcome, keepsRest_whenSome, keepsRest_ite]
  intro o _
  refine ⟨fun _ => by simp, fun _ => ?_⟩
  split <;> simp

@[simp] theorem keepsRest_execNop (q e : Nat) (s : State) : KeepsRest (changes (.nop q e)) s (execNop q e s) := by
  delta changes; simp [execNop]

@[simp] theorem keepsRest_execFence (q e : Nat) (s : State) : KeepsRest (changes (.fence q e)) s (execFence q e s) := by
  delta changes; simp [execFence]

/-! ### The Bench -/

@[simp] theorem keepsRest_execBenchSchedule (q e : Nat) (s : State) :
    KeepsRest (changes (.benchSchedule q e)) s (execBenchSchedule q e s) := by
  delta changes; simp [execBenchSchedule]

@[simp] theorem keepsRest_execBenchRun (q e : Nat) (s : State) : KeepsRest (changes (.benchRun q e)) s (execBenchRun q e s) := by
  delta changes; simp [execBenchRun]

@[simp] theorem keepsRest_execBenchResult (q e : Nat) (s : State) : KeepsRest (changes (.benchResult q e)) s (execBenchResult q e s) := by
  delta changes; simp [execBenchResult]

@[simp] theorem keepsRest_execBenchSlotStart (f slot : Nat) (s : State) :
    KeepsRest (changes (.benchSlotStart f slot)) s (execBenchSlotStart f slot s) := by
  delta changes
  simp only [execBenchSlotStart, keepsRest_ite, keepsRest_fault, keepsRest_idle, implies_true, true_and]
  intro _ _
  split <;> simp

@[simp] theorem keepsRest_execBenchIdleWindow (f : Nat) (s : State) :
    KeepsRest (changes (.benchIdleWindow f)) s (execBenchIdleWindow f s) := by
  delta changes; simp [execBenchIdleWindow]

@[simp] theorem keepsRest_execBenchSegmentEnd (f slot : Nat) (seg : SegmentEnd) (s : State) :
    KeepsRest (changes (.benchSegmentEnd f slot seg)) s (execBenchSegmentEnd f slot seg s) := by
  delta changes; simp [execBenchSegmentEnd]

@[simp] theorem keepsRest_execBenchOverdue (tile : Nat) (s : State) :
    KeepsRest (changes (.benchOverdue tile)) s (execBenchOverdue tile s) := by
  delta changes; simp [execBenchOverdue]

@[simp] theorem keepsRest_execBenchDroopLockoutEnd (f : Nat) (s : State) :
    KeepsRest (changes (.benchDroopLockoutEnd f)) s (execBenchDroopLockoutEnd f s) := by
  delta changes; simp [execBenchDroopLockoutEnd]

/-! ### MAP_GRID, UNMAP, QUERY_MAP -/

@[simp] theorem keepsRest_execMapGridLoad (q e : Nat) (dir : List DirEntry) (s : State) :
    KeepsRest (changes (.mapGridLoad q e dir)) s (execMapGridLoad q e dir s) := by
  delta changes
  simp only [execMapGridLoad, keepsRest_whenSome]
  intro c _
  cases partOf s c.part <;> simp

@[simp] theorem keepsRest_execMapGridDefine (q e : Nat) (s : State) :
    KeepsRest (changes (.mapGridDefine q e)) s (execMapGridDefine q e s) := by
  delta changes; simp [execMapGridDefine]

@[simp] theorem keepsRest_execUnmapUnload (q e : Nat) (s : State) : KeepsRest (changes (.unmapUnload q e)) s (execUnmapUnload q e s) := by
  delta changes
  simp only [execUnmapUnload, keepsRest_whenSome]
  intro c _
  cases partOf s c.part <;> simp

@[simp] theorem keepsRest_execUnmapDissolve (q e : Nat) (s : State) :
    KeepsRest (changes (.unmapDissolve q e)) s (execUnmapDissolve q e s) := by
  delta changes
  simp only [execUnmapDissolve, keepsRest_whenSome]
  intro c _
  cases partOf s c.part <;> simp

@[simp] theorem keepsRest_execQueryMap (q e : Nat) (s : State) : KeepsRest (changes (.queryMap q e)) s (execQueryMap q e s) := by
  delta changes
  simp only [execQueryMap, keepsRest_whenSome]
  intro c _
  cases partOf s c.part with
  | none => simp
  | some y =>
    cases servedBy (fieldOf s (taField (c.f 3 0 24))) (taPlace (c.f 3 0 24)) <;> simp

/-! ### Settings of a partition -/

@[simp] theorem keepsRest_execCheckPolicy (q e : Nat) (s : State) : KeepsRest (changes (.checkPolicy q e)) s (execCheckPolicy q e s) := by
  delta changes
  simp only [execCheckPolicy, keepsRest_whenSome]
  intro c _
  cases partOf s c.part with
  | none => simp
  | some y =>
    cases h : injectionTile s y (c.f 4 0 24) <;> simp [h]

@[simp] theorem keepsRest_execSpotRate (q e : Nat) (s : State) : KeepsRest (changes (.spotRate q e)) s (execSpotRate q e s) := by
  delta changes
  simp only [execSpotRate, keepsRest_whenSome]
  intro c _
  cases partOf s c.part <;> simp

@[simp] theorem keepsRest_execRedundancy (q e : Nat) (s : State) : KeepsRest (changes (.redundancy q e)) s (execRedundancy q e s) := by
  delta changes
  simp only [execRedundancy, keepsRest_whenSome]
  intro c _
  cases partOf s c.part <;> simp

@[simp] theorem keepsRest_execReplayPolicy (q e : Nat) (s : State) :
    KeepsRest (changes (.replayPolicy q e)) s (execReplayPolicy q e s) := by
  delta changes
  simp only [execReplayPolicy, keepsRest_whenSome]
  intro c _
  cases partOf s c.part <;> simp

/-! ### Counters and compute commands -/

@[simp] theorem keepsRest_execCounterLatch (q e : Nat) (s : State) :
    KeepsRest (changes (.counterLatch q e)) s (execCounterLatch q e s) := by
  delta changes
  simp only [execCounterLatch, keepsRest_whenSome]
  intro c _
  cases partOf s c.part <;> simp

@[simp] theorem keepsRest_execLatchOutputDone (q e : Nat) (s : State) :
    KeepsRest (changes (.latchOutputDone q e)) s (execLatchOutputDone q e s) := by
  delta changes; simp [execLatchOutputDone]

@[simp] theorem keepsRest_execCounterFreeze (q e : Nat) (s : State) :
    KeepsRest (changes (.counterFreeze q e)) s (execCounterFreeze q e s) := by
  delta changes
  simp only [execCounterFreeze, keepsRest_whenSome]
  intro c _
  cases partOf s c.part <;> simp

@[simp] theorem keepsRest_execFreezeTrigger (p : Nat) (cuts : List FreezeCut) (s : State) :
    KeepsRest (changes (.freezeTrigger p cuts)) s (execFreezeTrigger p cuts s) := by
  delta changes; simp [execFreezeTrigger]

@[simp] theorem keepsRest_execTraceCfg (q e : Nat) (s : State) : KeepsRest (changes (.traceCfg q e)) s (execTraceCfg q e s) := by
  delta changes
  simp only [execTraceCfg, keepsRest_whenSome]
  intro c _
  cases partOf s c.part <;> simp

@[simp] theorem keepsRest_execComputeCmdBoundary (f : Nat) (c : ComputeCmd) (s : State) :
    KeepsRest (changes (.computeCmdBoundary f c)) s (execComputeCmdBoundary f c s) := by
  delta changes; simp [execComputeCmdBoundary]

/-! ### Tile guards -/

@[simp] theorem keepsRest_execContractionEnd (c : Contraction) (s : State) :
    KeepsRest (changes (.contractionEnd c)) s (execContractionEnd c s) := by
  delta changes; simp [execContractionEnd]

@[simp] theorem keepsRest_execExportAttempt (x : Export) (s : State) :
    KeepsRest (changes (.exportAttempt x)) s (execExportAttempt x s) := by
  delta changes; simp [execExportAttempt]

@[simp] theorem keepsRest_execSramOwnWrite (tile row addr : Nat) (data : List Word) (full readBefore : Bool) (old : BitVec 512)
    (s : State) :
    KeepsRest (changes (.sramOwnWrite tile row addr data full readBefore old)) s
      (execSramOwnWrite tile row addr data full readBefore old s) := by
  delta changes
  simp only [execSramOwnWrite, keepsRest_whenSome, keepsRest_ite, keepsRest_fault, implies_true, true_and]
  intro _ m _
  split <;> simp

@[simp] theorem keepsRest_execMeshWriteReceive (tile row : Nat) (readBefore : Bool) (s : State) :
    KeepsRest (changes (.meshWriteReceive tile row readBefore)) s (execMeshWriteReceive tile row readBefore s) := by
  delta changes; simp [execMeshWriteReceive]

@[simp] theorem keepsRest_execWithheldMarkerReceive (tile origin edge : Nat) (header : Word) (s : State) :
    KeepsRest (changes (.withheldMarkerReceive tile origin edge header)) s (execWithheldMarkerReceive tile origin edge header s) := by
  delta changes; simp [execWithheldMarkerReceive]

@[simp] theorem keepsRest_execRecallMarkerReceive (tile origin edge : Nat) (s : State) :
    KeepsRest (changes (.recallMarkerReceive tile origin edge)) s (execRecallMarkerReceive tile origin edge s) := by
  delta changes; simp [execRecallMarkerReceive]

@[simp] theorem keepsRest_execTileSeamReach (tile cycle : Nat) (checkpoint : List Word) (openAt : Option OpenContraction) (s : State) :
    KeepsRest (changes (.tileSeamReach tile cycle checkpoint openAt)) s (execTileSeamReach tile cycle checkpoint openAt s) := by
  delta changes; cases openAt <;> simp [execTileSeamReach]

/-! ### Fault collection -/

@[simp] theorem keepsRest_execErrorSourceLatch (f : Nat) (src : ErrSource) (rootCount cycle : Nat) (s : State) :
    KeepsRest (changes (.errorSourceLatch f src rootCount cycle)) s (execErrorSourceLatch f src rootCount cycle s) := by
  delta changes
  cases src with
  | guardRoot => cases h : (fieldOf s f).guardPins <;> simp [execErrorSourceLatch, h]
  | router d => simp [execErrorSourceLatch]
  | level d => simp [execErrorSourceLatch]

@[simp] theorem keepsRest_execSourceAcknowledge (f : Nat) (s : State) :
    KeepsRest (changes (.sourceAcknowledge f)) s (execSourceAcknowledge f s) := by
  delta changes
  simp only [execSourceAcknowledge, keepsRest_whenSome, keepsRest_ite, keepsRest_fault, implies_true, true_and]
  intro _ d _
  refine ⟨fun _ => by simp, fun _ => ?_⟩
  split <;> simp

@[simp] theorem keepsRest_execEpisodeClose (f : Nat) (s : State) : KeepsRest (changes (.episodeClose f)) s (execEpisodeClose f s) := by
  delta changes; simp [execEpisodeClose]

@[simp] theorem keepsRest_execRateSummary (f : Nat) (s : State) : KeepsRest (changes (.rateSummary f)) s (execRateSummary f s) := by
  delta changes; simp [execRateSummary]

@[simp] theorem keepsRest_execStormClose (f : Nat) (s : State) : KeepsRest (changes (.stormClose f)) s (execStormClose f s) := by
  delta changes; simp [execStormClose]

@[simp] theorem keepsRest_execStormMergeCommit (s : State) : KeepsRest (changes .stormMergeCommit) s (execStormMergeCommit s) := by
  delta changes; simp [execStormMergeCommit]

@[simp] theorem keepsRest_execEccCorrectedNotice (tile row bit : Nat) (s : State) :
    KeepsRest (changes (.eccCorrectedNotice tile row bit)) s (execEccCorrectedNotice tile row bit s) := by
  delta changes; simp [execEccCorrectedNotice]

@[simp] theorem keepsRest_execEccUncorrectable (tile row byteAddr : Nat) (instr : Bool) (s : State) :
    KeepsRest (changes (.eccUncorrectable tile row byteAddr instr)) s (execEccUncorrectable tile row byteAddr instr s) := by
  delta changes
  simp only [execEccUncorrectable, keepsRest_whenSome, keepsRest_ite, keepsRest_fault, implies_true, true_and]
  intro _ m _
  cases m <;> simp

@[simp] theorem keepsRest_execScrubUncorrectable (tile row : Nat) (s : State) :
    KeepsRest (changes (.scrubUncorrectable tile row)) s (execScrubUncorrectable tile row s) := by
  delta changes; simp [execScrubUncorrectable]

@[simp] theorem keepsRest_execDroopDetect (f lowestMv cycle : Nat) (s : State) :
    KeepsRest (changes (.droopDetect f lowestMv cycle)) s (execDroopDetect f lowestMv cycle s) := by
  delta changes; simp [execDroopDetect]

@[simp] theorem keepsRest_execSignatureSigned (s : State) : KeepsRest (changes .signatureSigned) s (execSignatureSigned s) := by
  delta changes
  simp only [execSignatureSigned]
  split <;> simp

/-! ### Timing lanes, tree, start barrier -/

@[simp] theorem keepsRest_execProbeSend (lane : Nat) (s : State) : KeepsRest (changes (.probeSend lane)) s (execProbeSend lane s) := by
  delta changes; simp [execProbeSend]

@[simp] theorem keepsRest_execProbeReceive (lane : Nat) (seqNo : Nat) (payload : Nat) (half : Bool) (s : State) :
    KeepsRest (changes (.probeReceive lane seqNo payload half)) s (execProbeReceive lane seqNo payload half s) := by
  delta changes; simp [execProbeReceive]

@[simp] theorem keepsRest_execEchoReceive (lane : Nat) (seqNo : Nat) (payload : Nat) (s : State) :
    KeepsRest (changes (.echoReceive lane seqNo payload)) s (execEchoReceive lane seqNo payload s) := by
  delta changes
  simp only [execEchoReceive, keepsRest_ite, keepsRest_fault, keepsRest_idle, implies_true, true_and]
  intro _ _
  split <;> simp

@[simp] theorem keepsRest_execLaneSyncLoss (lane : Nat) (s : State) :
    KeepsRest (changes (.laneSyncLoss lane)) s (execLaneSyncLoss lane s) := by
  delta changes; simp [execLaneSyncLoss]

@[simp] theorem keepsRest_execLaneSyncRegain (lane : Nat) (s : State) :
    KeepsRest (changes (.laneSyncRegain lane)) s (execLaneSyncRegain lane s) := by
  delta changes; simp [execLaneSyncRegain]

@[simp] theorem keepsRest_execLaneFrameCrcDiscard (lane : Nat) (chars : List Byte) (s : State) :
    KeepsRest (changes (.laneFrameCrcDiscard lane chars)) s (execLaneFrameCrcDiscard lane chars s) := by
  delta changes; simp [execLaneFrameCrcDiscard]

@[simp] theorem keepsRest_execTimeAlign (q e : Nat) (s : State) : KeepsRest (changes (.timeAlign q e)) s (execTimeAlign q e s) := by
  delta changes
  simp only [execTimeAlign, keepsRest_whenSome]
  intro c _
  cases partOf s c.part <;> simp

@[simp] theorem keepsRest_execTimeAlignTreeStable (p : Nat) (peers : List PeerInfo) (s : State) :
    KeepsRest (changes (.timeAlignTreeStable p peers)) s (execTimeAlignTreeStable p peers s) := by
  delta changes; simp [execTimeAlignTreeStable]

@[simp] theorem keepsRest_execParentLoss (p : Nat) (s : State) : KeepsRest (changes (.parentLoss p)) s (execParentLoss p s) := by
  delta changes
  simp only [execParentLoss, keepsRest_whenSome, keepsRest_ite, keepsRest_idle, implies_true, true_and]
  intro y _ t _ l _ _
  split <;> simp

@[simp] theorem keepsRest_execBarrierArm (q e : Nat) (s : State) : KeepsRest (changes (.barrierArm q e)) s (execBarrierArm q e s) := by
  delta changes
  simp only [execBarrierArm, keepsRest_whenSome]
  intro c _
  cases partOf s c.part <;> simp

@[simp] theorem keepsRest_execArmReceive (lane : Nat) (barrier : Nat) (s : State) :
    KeepsRest (changes (.armReceive lane barrier)) s (execArmReceive lane barrier s) := by
  delta changes; simp [execArmReceive]

@[simp] theorem keepsRest_execReleaseReceive (lane : Nat) (time : Nat) (s : State) :
    KeepsRest (changes (.releaseReceive lane time)) s (execReleaseReceive lane time s) := by
  delta changes
  simp only [execReleaseReceive, keepsRest_ite, keepsRest_fault, keepsRest_whenOk, implies_true, true_and]
  intro _ _
  exact erase_foldl _ _ (fun s h => by simp) _ _

@[simp] theorem keepsRest_execBarrierRelease (p : Nat) (edge : Nat) (s : State) :
    KeepsRest (changes (.barrierRelease p edge)) s (execBarrierRelease p edge s) := by
  delta changes
  simp only [execBarrierRelease, keepsRest_whenSome]
  intro x _
  split <;> simp

@[simp] theorem keepsRest_execBarrierTimeout (p : Nat) (s : State) :
    KeepsRest (changes (.barrierTimeout p)) s (execBarrierTimeout p s) := by
  delta changes; simp [execBarrierTimeout]

/-! ### Pins, SMBus target, CYCLE -/

@[simp] theorem keepsRest_execPinReadbackSample (pin : PinId) (high : Bool) (s : State) :
    KeepsRest (changes (.pinReadbackSample pin high)) s (execPinReadbackSample pin high s) := by
  delta changes; simp [execPinReadbackSample]

@[simp] theorem keepsRest_execPinRetry (pin : PinId) (high : Bool) (s : State) :
    KeepsRest (changes (.pinRetry pin high)) s (execPinRetry pin high s) := by
  delta changes; simp [execPinRetry]

@[simp] theorem keepsRest_execAttnStuck (s : State) : KeepsRest (changes .attnStuck) s (execAttnStuck s) := by
  delta changes; simp [execAttnStuck]

@[simp] theorem keepsRest_execAttnFaultRecover (s : State) : KeepsRest (changes .attnFaultRecover) s (execAttnFaultRecover s) := by
  delta changes; simp [execAttnFaultRecover]

@[simp] theorem keepsRest_execSmbStatusClr (pecOk : Bool) (data : BitVec 16) (s : State) :
    KeepsRest (changes (.smbStatusClr pecOk data)) s (execSmbStatusClr pecOk data s) := by
  delta changes; simp [execSmbStatusClr]

@[simp] theorem keepsRest_execSmbQuiesce (pecOk : Bool) (data : Byte) (s : State) :
    KeepsRest (changes (.smbQuiesce pecOk data)) s (execSmbQuiesce pecOk data s) := by
  delta changes; simp [execSmbQuiesce]

@[simp] theorem keepsRest_execSmbLocate (pecOk : Bool) (data : Byte) (s : State) :
    KeepsRest (changes (.smbLocate pecOk data)) s (execSmbLocate pecOk data s) := by
  delta changes; simp [execSmbLocate]

@[simp] theorem keepsRest_execAlertResponse (wins : Bool) (s : State) :
    KeepsRest (changes (.alertResponse wins)) s (execAlertResponse wins s) := by
  delta changes; simp [execAlertResponse]

@[simp] theorem keepsRest_execSmbClockTimeout (s : State) : KeepsRest (changes .smbClockTimeout) s (execSmbClockTimeout s) := by
  delta changes; simp [execSmbClockTimeout]

@[simp] theorem keepsRest_execCycleRequest (s : State) : KeepsRest (changes .cycleRequest) s (execCycleRequest s) := by
  delta changes
  simp only [execCycleRequest]
  split <;> simp

@[simp] theorem keepsRest_execPwrcycTimeout (s : State) : KeepsRest (changes .pwrcycTimeout) s (execPwrcycTimeout s) := by
  delta changes; simp [execPwrcycTimeout]

/-! ### Power -/

@[simp] theorem keepsRest_execSmbCapLimit (pecOk : Bool) (data : BitVec 16) (s : State) :
    KeepsRest (changes (.smbCapLimit pecOk data)) s (execSmbCapLimit pecOk data s) := by
  delta changes; simp [execSmbCapLimit]

@[simp] theorem keepsRest_execEstimatePeriod (f : Nat) (act : Activity) (s : State) :
    KeepsRest (changes (.estimatePeriod f act)) s (execEstimatePeriod f act s) := by
  delta changes; simp [execEstimatePeriod]

@[simp] theorem keepsRest_execArbiterReplan (s : State) : KeepsRest (changes .arbiterReplan) s (execArbiterReplan s) := by
  delta changes; simp [execArbiterReplan]

@[simp] theorem keepsRest_execFreqChangeEnd (f : Nat) (s : State) : KeepsRest (changes (.freqChangeEnd f)) s (execFreqChangeEnd f s) := by
  delta changes
  simp only [execFreqChangeEnd]
  split <;> simp

@[simp] theorem keepsRest_execDroopLockoutEnd (f : Nat) (s : State) :
    KeepsRest (changes (.droopLockoutEnd f)) s (execDroopLockoutEnd f s) := by
  delta changes; simp [execDroopLockoutEnd]

@[simp] theorem keepsRest_execPmbusSlot (seg : Nat) (alertLow : Bool) (reply : PmbusReply) (s : State) :
    KeepsRest (changes (.pmbusSlot seg alertLow reply)) s (execPmbusSlot seg alertLow reply s) := by
  delta changes
  simp only [execPmbusSlot, keepsRest_ite, keepsRest_fault, keepsRest_idle, implies_true, true_and]
  intro _ _
  split
  · simp
  · split
    next t ht => exact erase_slotDone _ s t _ _ _ rfl rfl rfl ht
    next => simp

@[simp] theorem keepsRest_execPmbusSegmentRetry (seg : Nat) (reply : PmbusReply) (s : State) :
    KeepsRest (changes (.pmbusSegmentRetry seg reply)) s (execPmbusSegmentRetry seg reply s) := by
  delta changes; cases reply <;> simp [execPmbusSegmentRetry]

@[simp] theorem keepsRest_execZonePgoodLoss (z : Nat) (s : State) : KeepsRest (changes (.zonePgoodLoss z)) s (execZonePgoodLoss z s) := by
  delta changes; simp [execZonePgoodLoss]

@[simp] theorem keepsRest_execZonePgoodReturn (z : Nat) (s : State) :
    KeepsRest (changes (.zonePgoodReturn z)) s (execZonePgoodReturn z s) := by
  delta changes; simp [execZonePgoodReturn]

@[simp] theorem keepsRest_execPowerCap (q e : Nat) (s : State) : KeepsRest (changes (.powerCap q e)) s (execPowerCap q e s) := by
  delta changes; simp [execPowerCap]

@[simp] theorem keepsRest_execOpmode (q e : Nat) (s : State) : KeepsRest (changes (.opmode q e)) s (execOpmode q e s) := by
  delta changes
  simp only [execOpmode, keepsRest_whenSome]
  intro c _
  cases partOf s c.part <;> simp

/-! ### Seams, replays, spot checks -/

@[simp] theorem keepsRest_execFieldSeamArrival (f cycles : Nat) (taps : List EngineTap) (s : State) :
    KeepsRest (changes (.fieldSeamArrival f cycles taps)) s (execFieldSeamArrival f cycles taps s) := by
  delta changes; cases h : fieldPart s f <;> simp [execFieldSeamArrival, h]

@[simp] theorem keepsRest_execReplayGroupStart (f : Nat) (s : State) :
    KeepsRest (changes (.replayGroupStart f)) s (execReplayGroupStart f s) := by
  delta changes; simp [execReplayGroupStart]

@[simp] theorem keepsRest_execReplayVerdict (g cycles : Nat) (s : State) :
    KeepsRest (changes (.replayVerdict g cycles)) s (execReplayVerdict g cycles s) := by
  delta changes
  simp only [execReplayVerdict, keepsRest_whenSome]
  intro x _
  split <;> simp

@[simp] theorem keepsRest_execImageCopyDone (f target sent received cycles : Nat) (s : State) :
    KeepsRest (changes (.imageCopyDone f target sent received cycles)) s (execImageCopyDone f target sent received cycles s) := by
  delta changes
  simp only [execImageCopyDone, keepsRest_ite, keepsRest_fault, keepsRest_idle, implies_true, true_and]
  intro _ _
  split
  · simp
  · simp only [keepsRest_whenSome, keepsRest_next]
    intro t ht
    split at ht
    · exact erase_seamCopyDone _ s t f target _ rfl rfl ht
    · cases ht

@[simp] theorem keepsRest_execSpareReplayVerdict (g cycles : Nat) (s : State) :
    KeepsRest (changes (.spareReplayVerdict g cycles)) s (execSpareReplayVerdict g cycles s) := by
  delta changes
  simp only [execSpareReplayVerdict, keepsRest_whenSome]
  intro h _
  split
  · simp
  · split <;> simp

@[simp] theorem keepsRest_execReplayAbandoned (g : Nat) (s : State) :
    KeepsRest (changes (.replayAbandoned g)) s (execReplayAbandoned g s) := by
  delta changes; simp [execReplayAbandoned]

@[simp] theorem keepsRest_execIdleVersionDrained (f : Nat) (s : State) :
    KeepsRest (changes (.idleVersionDrained f)) s (execIdleVersionDrained f s) := by
  delta changes; simp [execIdleVersionDrained]

@[simp] theorem keepsRest_execSnapshotDone (f tile : Nat) (s : State) :
    KeepsRest (changes (.snapshotDone f tile)) s (execSnapshotDone f tile s) := by
  delta changes; simp [execSnapshotDone]

@[simp] theorem keepsRest_execSpotCheckVerdict (f tile cycles : Nat) (s : State) :
    KeepsRest (changes (.spotCheckVerdict f tile cycles)) s (execSpotCheckVerdict f tile cycles s) := by
  delta changes
  simp only [execSpotCheckVerdict, keepsRest_whenSome, keepsRest_ite, keepsRest_fault, implies_true, true_and]
  intro _ c _
  split <;> simp

/-! ### The release of a field -/

@[simp] theorem keepsRest_execFieldRelease (f heldCycles : Nat) (s : State) :
    KeepsRest (changes (.fieldRelease f heldCycles)) s (execFieldRelease f heldCycles s) := by
  delta changes
  simp only [execFieldRelease]
  split
  · simp
  · rw [keepsRest_whenOk]
    intro _
    repeat' split
    all_goals simp

/-! ### Resets, hangs, watchdogs -/

@[simp] theorem keepsRest_execReset (q e : Nat) (s : State) : KeepsRest (changes (.reset q e)) s (execReset q e s) := by
  delta changes; simp [execReset]

@[simp] theorem keepsRest_execResetStart (s : State) : KeepsRest (changes .resetStart) s (execResetStart s) := by
  delta changes; simp [execResetStart]

@[simp] theorem keepsRest_execResetComplete (domain : Nat) (micros : Nat) (s : State) :
    KeepsRest (changes (.resetComplete domain micros)) s (execResetComplete domain micros s) := by
  delta changes
  simp only [execResetComplete, keepsRest_whenSome]
  intro x _
  split <;> simp

@[simp] theorem keepsRest_execResetEscalate (domain : Nat) (s : State) :
    KeepsRest (changes (.resetEscalate domain)) s (execResetEscalate domain s) := by
  delta changes
  simp only [execResetEscalate, keepsRest_whenSome, keepsRest_whenOk]
  intro r _ _
  split
  · simp
  · split <;> simp

@[simp] theorem keepsRest_execStaleMessageDrop (domain : Nat) (gen : BitVec 6) (s : State) :
    KeepsRest (changes (.staleMessageDrop domain gen)) s (execStaleMessageDrop domain gen s) := by
  delta changes; simp [execStaleMessageDrop]

@[simp] theorem keepsRest_execStaleRecordTimer (domain : Nat) (s : State) :
    KeepsRest (changes (.staleRecordTimer domain)) s (execStaleRecordTimer domain s) := by
  delta changes; simp [execStaleRecordTimer]

@[simp] theorem keepsRest_execDumpWriteDone (bad : Option Nat) (s : State) :
    KeepsRest (changes (.dumpWriteDone bad)) s (execDumpWriteDone bad s) := by
  delta changes; simp [execDumpWriteDone]

@[simp] theorem keepsRest_execSeamOverrun (f : Nat) (count : Nat) (s : State) :
    KeepsRest (changes (.seamOverrun f count)) s (execSeamOverrun f count s) := by
  delta changes; simp [execSeamOverrun]

@[simp] theorem keepsRest_execDeadlock (f : Nat) (s : State) : KeepsRest (changes (.deadlock f)) s (execDeadlock f s) := by
  delta changes; simp [execDeadlock]

@[simp] theorem keepsRest_execBarrierWaitLimit (f : Nat) (s : State) :
    KeepsRest (changes (.barrierWaitLimit f)) s (execBarrierWaitLimit f s) := by
  delta changes; simp [execBarrierWaitLimit]

@[simp] theorem keepsRest_execLinkResendThreshold (tile edge resends : Nat) (s : State) :
    KeepsRest (changes (.linkResendThreshold tile edge resends)) s (execLinkResendThreshold tile edge resends s) := by
  delta changes; simp [execLinkResendThreshold]

@[simp] theorem keepsRest_execWardenSlotParity (f slot : Nat) (s : State) :
    KeepsRest (changes (.wardenSlotParity f slot)) s (execWardenSlotParity f slot s) := by
  delta changes; simp [execWardenSlotParity]

@[simp] theorem keepsRest_execWardenHeartbeat (f : Nat) (s : State) :
    KeepsRest (changes (.wardenHeartbeat f)) s (execWardenHeartbeat f s) := by
  delta changes; simp [execWardenHeartbeat]

@[simp] theorem keepsRest_execWardenHeartbeatMiss (f : Nat) (s : State) :
    KeepsRest (changes (.wardenHeartbeatMiss f)) s (execWardenHeartbeatMiss f s) := by
  delta changes; simp [execWardenHeartbeatMiss]

@[simp] theorem keepsRest_execWardenRestartDone (f : Nat) (s : State) :
    KeepsRest (changes (.wardenRestartDone f)) s (execWardenRestartDone f s) := by
  delta changes; simp [execWardenRestartDone]

@[simp] theorem keepsRest_execWardenRestartTimeout (f : Nat) (s : State) :
    KeepsRest (changes (.wardenRestartTimeout f)) s (execWardenRestartTimeout f s) := by
  delta changes; simp [execWardenRestartTimeout]

@[simp] theorem keepsRest_execHubWatchdogFire (s : State) : KeepsRest (changes .hubWatchdogFire) s (execHubWatchdogFire s) := by
  delta changes; simp [execHubWatchdogFire]

@[simp] theorem keepsRest_execHubRestart (s : State) : KeepsRest (changes .hubRestart) s (execHubRestart s) := by
  delta changes; simp [execHubRestart]

@[simp] theorem keepsRest_execHubHeartbeatToggle (s : State) : KeepsRest (changes .hubHeartbeatToggle) s (execHubHeartbeatToggle s) := by
  delta changes; simp [execHubHeartbeatToggle]

@[simp] theorem keepsRest_execWatchdogCountClear (s : State) : KeepsRest (changes .watchdogCountClear) s (execWatchdogCountClear s) := by
  delta changes; simp [execWatchdogCountClear]

@[simp] theorem keepsRest_execRefClockLoss (s : State) : KeepsRest (changes .refClockLoss) s (execRefClockLoss s) := by
  delta changes; simp [execRefClockLoss]

@[simp] theorem keepsRest_execRefClockRestore (s : State) : KeepsRest (changes .refClockRestore) s (execRefClockRestore s) := by
  delta changes; simp [execRefClockRestore]

@[simp] theorem keepsRest_execHeartbeatCfg (q e : Nat) (s : State) :
    KeepsRest (changes (.heartbeatCfg q e)) s (execHeartbeatCfg q e s) := by
  delta changes; simp [execHeartbeatCfg]

@[simp] theorem keepsRest_execHostLoss (s : State) : KeepsRest (changes .hostLoss) s (execHostLoss s) := by
  delta changes; simp [execHostLoss]

@[simp] theorem keepsRest_execQuiesceComplete (s : State) : KeepsRest (changes .quiesceComplete) s (execQuiesceComplete s) := by
  delta changes; simp [execQuiesceComplete]

/-! ### Heat and trips -/

@[simp] theorem keepsRest_execThermalModelUpdate (f : Nat) (s : State) :
    KeepsRest (changes (.thermalModelUpdate f)) s (execThermalModelUpdate f s) := by
  delta changes; simp [execThermalModelUpdate]

@[simp] theorem keepsRest_execDiodeRotation (f : Nat) (s : State) : KeepsRest (changes (.diodeRotation f)) s (execDiodeRotation f s) := by
  delta changes; simp [execDiodeRotation]

@[simp] theorem keepsRest_execDiodeReadDone (f diode : Nat) (reading : Option Int) (others : List (Nat × Option Int)) (s : State) :
    KeepsRest (changes (.diodeReadDone f diode reading others)) s (execDiodeReadDone f diode reading others s) := by
  delta changes; simp [execDiodeReadDone]

@[simp] theorem keepsRest_execThermalRead (q e : Nat) (readings : List (Option Int)) (s : State) :
    KeepsRest (changes (.thermalRead q e readings)) s (execThermalRead q e readings s) := by
  delta changes; simp [execThermalRead]

@[simp] theorem keepsRest_execThermalThrottleReplan (s : State) :
    KeepsRest (changes .thermalThrottleReplan) s (execThermalThrottleReplan s) := by
  delta changes; simp [execThermalThrottleReplan]

@[simp] theorem keepsRest_execFieldShutdown (f : Nat) (s : State) : KeepsRest (changes (.fieldShutdown f)) s (execFieldShutdown f s) := by
  delta changes; simp [execFieldShutdown]

@[simp] theorem keepsRest_execShutdownProceed (f : Nat) (s : State) :
    KeepsRest (changes (.shutdownProceed f)) s (execShutdownProceed f s) := by
  delta changes; simp [execShutdownProceed]

@[simp] theorem keepsRest_execThermalRestart (f : Nat) (s : State) :
    KeepsRest (changes (.thermalRestart f)) s (execThermalRestart f s) := by
  delta changes; simp [execThermalRestart]

@[simp] theorem keepsRest_execZoneTrip (z : Nat) (s : State) : KeepsRest (changes (.zoneTrip z)) s (execZoneTrip z s) := by
  delta changes; simp [execZoneTrip]

@[simp] theorem keepsRest_execHubTrip (s : State) : KeepsRest (changes .hubTrip) s (execHubTrip s) := by
  delta changes; simp [execHubTrip]

@[simp] theorem keepsRest_execTripRestart (source : TripSource) (broken : Nat) (s : State) :
    KeepsRest (changes (.tripRestart source broken)) s (execTripRestart source broken s) := by
  delta changes
  simp only [execTripRestart, keepsRest_whenSome]
  intro x _
  split <;> simp

/-! ### Power loss, power-on, bring-up -/

@[simp] theorem keepsRest_execHubFeedLoss (s : State) : KeepsRest (changes .hubFeedLoss) s (execHubFeedLoss s) := by
  delta changes; simp [execHubFeedLoss]

@[simp] theorem keepsRest_execPowerOn (found : PowerOnFound) (s : State) :
    KeepsRest (changes (.powerOn found)) s (execPowerOn found s) := by
  delta changes; simp [execPowerOn]

@[simp] theorem keepsRest_execStageComplete (found : StageFound) (s : State) :
    KeepsRest (changes (.stageComplete found)) s (execStageComplete found s) := by
  delta changes; simp [execStageComplete]

@[simp] theorem keepsRest_execStageTimeout (s : State) : KeepsRest (changes .stageTimeout) s (execStageTimeout s) := by
  delta changes; simp [execStageTimeout]

@[simp] theorem keepsRest_execWardenStartFail (f : Nat) (s : State) :
    KeepsRest (changes (.wardenStartFail f)) s (execWardenStartFail f s) := by
  delta changes; simp [execWardenStartFail]

@[simp] theorem keepsRest_execWaveStart (s : State) : KeepsRest (changes .waveStart) s (execWaveStart s) := by
  delta changes; simp [execWaveStart]

/-! ### The Cabinet -/

@[simp] theorem keepsRest_execNorFail (cause : Nat) (addr : Nat) (s : State) :
    KeepsRest (changes (.norFail cause addr)) s (execNorFail cause addr s) := by
  delta changes; simp [execNorFail]

@[simp] theorem keepsRest_execNorRetry (fails : Nat) (s : State) : KeepsRest (changes (.norRetry fails)) s (execNorRetry fails s) := by
  delta changes; simp [execNorRetry]

@[simp] theorem keepsRest_execRecordArrival (r : RecIn) (s : State) : KeepsRest (changes (.recordArrival r)) s (execRecordArrival r s) := by
  delta changes; simp [execRecordArrival]

@[simp] theorem keepsRest_execRecordCommit (verified : Bool) (s : State) :
    KeepsRest (changes (.recordCommit verified)) s (execRecordCommit verified s) := by
  delta changes; simp [execRecordCommit]

@[simp] theorem keepsRest_execSectorReclaim (s : State) : KeepsRest (changes .sectorReclaim) s (execSectorReclaim s) := by
  delta changes; simp [execSectorReclaim]

@[simp] theorem keepsRest_execSnapshotTimer (s : State) : KeepsRest (changes .snapshotTimer) s (execSnapshotTimer s) := by
  delta changes; simp [execSnapshotTimer]

@[simp] theorem keepsRest_execOperatingTimeTick (s : State) : KeepsRest (changes .operatingTimeTick) s (execOperatingTimeTick s) := by
  simp only [execOperatingTimeTick, keepsRest_whenOk]
  intro _
  exact erase_setCab _ s _ ⟨.inr ⟨rfl, rfl, rfl, rfl, rfl⟩, .inr rfl, .inl rfl⟩

@[simp] theorem keepsRest_execMeterIntervalEnd (s : State) : KeepsRest (changes .meterIntervalEnd) s (execMeterIntervalEnd s) := by
  delta changes; simp [execMeterIntervalEnd]

@[simp] theorem keepsRest_execJournalEntryWrite (bad : Option Nat) (s : State) :
    KeepsRest (changes (.journalEntryWrite bad)) s (execJournalEntryWrite bad s) := by
  delta changes; simp [execJournalEntryWrite]

@[simp] theorem keepsRest_execJournalFold (bad : Option Nat) (s : State) :
    KeepsRest (changes (.journalFold bad)) s (execJournalFold bad s) := by
  delta changes
  simp only [execJournalFold]
  split <;> simp

@[simp] theorem keepsRest_execDeferredRecordsResume (s : State) :
    KeepsRest (changes .deferredRecordsResume) s (execDeferredRecordsResume s) := by
  delta changes; simp [execDeferredRecordsResume]

@[simp] theorem keepsRest_execLogOpen (q e : Nat) (s : State) : KeepsRest (changes (.logOpen q e)) s (execLogOpen q e s) := by
  delta changes; simp [execLogOpen]

@[simp] theorem keepsRest_execLogClear (q e : Nat) (s : State) : KeepsRest (changes (.logClear q e)) s (execLogClear q e s) := by
  delta changes; simp [execLogClear]

@[simp] theorem keepsRest_execDumpFetch (q e : Nat) (s : State) : KeepsRest (changes (.dumpFetch q e)) s (execDumpFetch q e s) := by
  delta changes
  simp only [execDumpFetch, keepsRest_whenSome]
  intro c _
  cases tfind s.nor.dumps (c.f 3 0 2) <;> simp

/-! ### The aperture -/

@[simp] theorem keepsRest_execSqDoorbell (t qnum : Nat) (value : Word) (s : State) :
    KeepsRest (changes (.sqDoorbell t qnum value)) s (execSqDoorbell t qnum value s) := by
  delta changes; simp [execSqDoorbell]

@[simp] theorem keepsRest_execCqDoorbell (t qnum : Nat) (value : Word) (s : State) :
    KeepsRest (changes (.cqDoorbell t qnum value)) s (execCqDoorbell t qnum value s) := by
  delta changes; simp [execCqDoorbell]

@[simp] theorem keepsRest_execLegacyFmtWrite (t : Nat) (value : Word) (s : State) :
    KeepsRest (changes (.legacyFmtWrite t value)) s (execLegacyFmtWrite t value s) := by
  delta changes; simp [execLegacyFmtWrite]

@[simp] theorem keepsRest_execStatusIrqWrite (t : Nat) (value : Word) (s : State) :
    KeepsRest (changes (.statusIrqWrite t value)) s (execStatusIrqWrite t value s) := by
  delta changes; simp [execStatusIrqWrite]

@[simp] theorem keepsRest_execWallclockLoWrite (t : Nat) (value : Word) (s : State) :
    KeepsRest (changes (.wallclockLoWrite t value)) s (execWallclockLoWrite t value s) := by
  delta changes; simp [execWallclockLoWrite]

@[simp] theorem keepsRest_execWallclockHiWrite (t : Nat) (value : Word) (s : State) :
    KeepsRest (changes (.wallclockHiWrite t value)) s (execWallclockHiWrite t value s) := by
  delta changes; simp [execWallclockHiWrite]

@[simp] theorem keepsRest_execHostHbWrite (t : Nat) (value : Word) (s : State) :
    KeepsRest (changes (.hostHbWrite t value)) s (execHostHbWrite t value s) := by
  delta changes; simp [execHostHbWrite]

@[simp] theorem keepsRest_execLogAdvWrite (t : Nat) (value : Word) (s : State) :
    KeepsRest (changes (.logAdvWrite t value)) s (execLogAdvWrite t value s) := by
  delta changes; simp [execLogAdvWrite]

@[simp] theorem keepsRest_execLogLostClear (t : Nat) (value : Word) (s : State) :
    KeepsRest (changes (.logLostClear t value)) s (execLogLostClear t value s) := by
  delta changes; simp [execLogLostClear]

@[simp] theorem keepsRest_execDbBadClear (t qnum : Nat) (value : Word) (s : State) :
    KeepsRest (changes (.dbBadClear t qnum value)) s (execDbBadClear t qnum value s) := by
  delta changes; simp [execDbBadClear]

@[simp] theorem keepsRest_execLogWindowReady (t : Nat) (s : State) :
    KeepsRest (changes (.logWindowReady t)) s (execLogWindowReady t s) := by
  delta changes; simp [execLogWindowReady]

@[simp] theorem keepsRest_execCounterLowRead (t : Nat) (offset : Nat) (s : State) :
    KeepsRest (changes (.counterLowRead t offset)) s (execCounterLowRead t offset s) := by
  delta changes; simp [execCounterLowRead]

@[simp] theorem keepsRest_execQueueEnable (t n : Nat) (value : Word) (s : State) :
    KeepsRest (changes (.queueEnable t n value)) s (execQueueEnable t n value s) := by
  delta changes; simp [execQueueEnable]

@[simp] theorem keepsRest_execQueueDisable (t n : Nat) (value : Word) (s : State) :
    KeepsRest (changes (.queueDisable t n value)) s (execQueueDisable t n value s) := by
  delta changes; simp [execQueueDisable]

@[simp] theorem keepsRest_execRegisterWrite (t : Nat) (offset size : Nat) (value : Word) (s : State) :
    KeepsRest (changes (.registerWrite t offset size value)) s (execRegisterWrite t offset size value s) := by
  delta changes; simp [execRegisterWrite]

@[simp] theorem keepsRest_execQueueFault (q : Nat) (s : State) : KeepsRest (changes (.queueFault q)) s (execQueueFault q s) := by
  delta changes; simp [execQueueFault]

/-! ### QUARANTINE, RELEASE, SPARE_STATUS, SIG_EXPORT -/

@[simp] theorem keepsRest_execQuarantine (q e : Nat) (s : State) : KeepsRest (changes (.quarantine q e)) s (execQuarantine q e s) := by
  delta changes; simp [execQuarantine]

@[simp] theorem keepsRest_execRelease (q e : Nat) (s : State) : KeepsRest (changes (.release q e)) s (execRelease q e s) := by
  delta changes; simp [execRelease]

@[simp] theorem keepsRest_execSpareStatus (q e : Nat) (s : State) : KeepsRest (changes (.spareStatus q e)) s (execSpareStatus q e s) := by
  delta changes; simp [execSpareStatus]

@[simp] theorem keepsRest_execSigExport (q e : Nat) (s : State) : KeepsRest (changes (.sigExport q e)) s (execSigExport q e s) := by
  delta changes; simp [execSigExport]

/-! ### Scrubs, keys, alarm -/

@[simp] theorem keepsRest_execTenantScrub (q e : Nat) (s : State) : KeepsRest (changes (.tenantScrub q e)) s (execTenantScrub q e s) := by
  delta changes; simp [execTenantScrub]

@[simp] theorem keepsRest_execScrubComplete (handle : Nat) (stuck : List (Nat × Nat)) (durationMs : Nat) (s : State) :
    KeepsRest (changes (.scrubComplete handle stuck durationMs)) s (execScrubComplete handle stuck durationMs s) := by
  unfold execScrubComplete
  rw [keepsRest_whenSome]
  intro o _
  extract_lets t fs s1 s2 golden owned slots s3 _ s4 s5 s6 key front seqNo r s7
  have h2 : erase (changes (.scrubComplete handle stuck durationMs)) s2 = erase (changes (.scrubComplete handle stuck durationMs)) s := by
    refine (erase_foldl _ _ (fun s r => ?_) _ _).trans (by simp [s1, changes])
    split
    · simp [changes]
    · split
      next u hu => exact erase_retireRow _ _ u _ _ _ _ rfl rfl hu
      next => simp [changes]
  clear_value s2
  simp_all [changes, s7, s6, s5, s4, s3]

@[simp] theorem keepsRest_execKeyLoad (q e : Nat) (blob : List Byte) (s : State) :
    KeepsRest (changes (.keyLoad q e blob)) s (execKeyLoad q e blob s) := by
  delta changes
  simp only [execKeyLoad, keepsRest_whenSome]
  intro c _
  cases unwrapBlob s (c.f 3 0 4) blob <;> simp

@[simp] theorem keepsRest_execAlarmAck (q e : Nat) (s : State) : KeepsRest (changes (.alarmAck q e)) s (execAlarmAck q e s) := by
  delta changes; simp [execAlarmAck]

/-! ### Panel and service port -/

@[simp] theorem keepsRest_execButtonPress (s : State) : KeepsRest (changes .buttonPress) s (execButtonPress s) := by
  delta changes; simp [execButtonPress]

@[simp] theorem keepsRest_execButtonShortRelease (s : State) : KeepsRest (changes .buttonShortRelease) s (execButtonShortRelease s) := by
  delta changes; simp [execButtonShortRelease]

@[simp] theorem keepsRest_execButtonLongRelease (s : State) : KeepsRest (changes .buttonLongRelease) s (execButtonLongRelease s) := by
  delta changes; simp [execButtonLongRelease]

@[simp] theorem keepsRest_execButtonHold4s (s : State) : KeepsRest (changes .buttonHold4s) s (execButtonHold4s s) := by
  delta changes; simp [execButtonHold4s]

@[simp] theorem keepsRest_execButtonHold10s (s : State) : KeepsRest (changes .buttonHold10s) s (execButtonHold10s s) := by
  delta changes; simp [execButtonHold10s]

@[simp] theorem keepsRest_execHeldActionBlinkEnd (s : State) : KeepsRest (changes .heldActionBlinkEnd) s (execHeldActionBlinkEnd s) := by
  delta changes; simp [execHeldActionBlinkEnd]

@[simp] theorem keepsRest_execLidChange (isOpen : Bool) (s : State) :
    KeepsRest (changes (.lidChange isOpen)) s (execLidChange isOpen s) := by
  delta changes; simp [execLidChange]

@[simp] theorem keepsRest_execSupplyGlitch (s : State) : KeepsRest (changes .supplyGlitch) s (execSupplyGlitch s) := by
  delta changes; simp [execSupplyGlitch]

@[simp] theorem keepsRest_execClockGlitch (s : State) : KeepsRest (changes .clockGlitch) s (execClockGlitch s) := by
  delta changes; simp [execClockGlitch]

@[simp] theorem keepsRest_execUsbConnect (s : State) : KeepsRest (changes .usbConnect) s (execUsbConnect s) := by
  delta changes; simp [execUsbConnect]

@[simp] theorem keepsRest_execSvcSessionEnd (why : SvcEnd) (s : State) :
    KeepsRest (changes (.svcSessionEnd why)) s (execSvcSessionEnd why s) := by
  delta changes; simp [execSvcSessionEnd]

@[simp] theorem keepsRest_execConsoleAuth (response : Option (Nat × Nat × Nat)) (s : State) :
    KeepsRest (changes (.consoleAuth response)) s (execConsoleAuth response s) := by
  delta changes
  simp only [execConsoleAuth]
  match response with
  | none => simp
  | some (r, sg, role) => cases s.svc.challenge <;> simp

@[simp] theorem keepsRest_execConsoleStatus (s : State) : KeepsRest (changes .consoleStatus) s (execConsoleStatus s) := by
  delta changes; simp [execConsoleStatus]

@[simp] theorem keepsRest_execConsoleLog (fromSeq : Nat) (s : State) :
    KeepsRest (changes (.consoleLog fromSeq)) s (execConsoleLog fromSeq s) := by
  delta changes; simp [execConsoleLog]

@[simp] theorem keepsRest_execConsoleRing (tileRing : Bool) (which : Nat) (s : State) :
    KeepsRest (changes (.consoleRing tileRing which)) s (execConsoleRing tileRing which s) := by
  delta changes; simp [execConsoleRing]

@[simp] theorem keepsRest_execConsoleDump (slot : Nat) (s : State) :
    KeepsRest (changes (.consoleDump slot)) s (execConsoleDump slot s) := by
  delta changes
  simp only [execConsoleDump]
  split <;> simp

@[simp] theorem keepsRest_execConsoleAlarmAck (mask : Byte) (s : State) :
    KeepsRest (changes (.consoleAlarmAck mask)) s (execConsoleAlarmAck mask s) := by
  delta changes; simp [execConsoleAlarmAck]

@[simp] theorem keepsRest_execConsoleAlarmPolicy (source action : Nat) (s : State) :
    KeepsRest (changes (.consoleAlarmPolicy source action)) s (execConsoleAlarmPolicy source action s) := by
  delta changes; simp [execConsoleAlarmPolicy]

@[simp] theorem keepsRest_execConsolePanelPolicy (enable : Bool) (s : State) :
    KeepsRest (changes (.consolePanelPolicy enable)) s (execConsolePanelPolicy enable s) := by
  delta changes; simp [execConsolePanelPolicy]

@[simp] theorem keepsRest_execConsoleAdminkey (blob : List Byte) (s : State) :
    KeepsRest (changes (.consoleAdminkey blob)) s (execConsoleAdminkey blob s) := by
  delta changes
  simp only [execConsoleAdminkey]
  split <;> simp

@[simp] theorem keepsRest_execConsoleIdentity (certificate : Option (List Byte)) (s : State) :
    KeepsRest (changes (.consoleIdentity certificate)) s (execConsoleIdentity certificate s) := by
  delta changes
  cases certificate with
  | none => simp [execConsoleIdentity]
  | some cert => cases h : s.svc.request <;> simp [execConsoleIdentity, h]

@[simp] theorem keepsRest_execConsoleSvckey (newKey : Nat × Nat) (sig : Nat × Nat) (s : State) :
    KeepsRest (changes (.consoleSvckey newKey sig)) s (execConsoleSvckey newKey sig s) := by
  delta changes; simp [execConsoleSvckey]

@[simp] theorem keepsRest_execConsoleBoard (descriptor : List Byte) (s : State) :
    KeepsRest (changes (.consoleBoard descriptor)) s (execConsoleBoard descriptor s) := by
  delta changes; simp [execConsoleBoard]

/-! ### The Sideboard -/

@[simp] theorem keepsRest_execDigestDefine (q e : Nat) (masks : List (BitVec 1024)) (s : State) :
    KeepsRest (changes (.digestDefine q e masks)) s (execDigestDefine q e masks s) := by
  delta changes
  simp only [execDigestDefine, keepsRest_whenSome]
  intro c _
  cases partOf s c.part with
  | none => simp
  | some y =>
    simp only [keepsRest_ite]
    refine ⟨fun _ => by simp, fun _ => ?_⟩
    split <;> simp

@[simp] theorem keepsRest_execDigestDefineReadDone (q e : Nat) (tiles : List (List Word)) (s : State) :
    KeepsRest (changes (.digestDefineReadDone q e tiles)) s (execDigestDefineReadDone q e tiles s) := by
  delta changes; simp [execDigestDefineReadDone]

@[simp] theorem keepsRest_execDigestCompare (q e : Nat) (s : State) :
    KeepsRest (changes (.digestCompare q e)) s (execDigestCompare q e s) := by
  delta changes
  simp only [execDigestCompare, keepsRest_whenSome]
  intro c _
  cases partOf s c.part with
  | none => simp
  | some y =>
    cases h : findContext s y.tenant (c.f 3 0 17) <;> simp [h]

@[simp] theorem keepsRest_execExpel (q e : Nat) (s : State) : KeepsRest (changes (.expel q e)) s (execExpel q e s) := by
  delta changes
  simp only [execExpel, keepsRest_whenSome]
  intro c _
  cases partOf s c.part with
  | none => simp
  | some y =>
    simp only [keepsRest_ite]
    refine ⟨fun _ => by simp, fun _ => ⟨fun _ => by simp, fun _ => ?_⟩⟩
    split <;> simp

@[simp] theorem keepsRest_execScrubPassDone (t ctx : Nat) (parts : List Nat) (s : State) :
    KeepsRest (changes (.scrubPassDone t ctx parts)) s (execScrubPassDone t ctx parts s) := by
  delta changes; simp [execScrubPassDone]

@[simp] theorem keepsRest_execDigestIntervalBoundary (t ctx : Nat) (s : State) :
    KeepsRest (changes (.digestIntervalBoundary t ctx)) s (execDigestIntervalBoundary t ctx s) := by
  delta changes; simp [execDigestIntervalBoundary]

@[simp] theorem keepsRest_execExchangeRecordReceive (x : Exchange) (s : State) :
    KeepsRest (changes (.exchangeRecordReceive x)) s (execExchangeRecordReceive x s) := by
  delta changes; simp [execExchangeRecordReceive]

@[simp] theorem keepsRest_execComparisonClose (t ctx : Nat) (s : State) :
    KeepsRest (changes (.comparisonClose t ctx)) s (execComparisonClose t ctx s) := by
  delta changes; simp [execComparisonClose]

@[simp] theorem keepsRest_execReverifyDone (t group : Nat) (fresh : List (Nat × Nat)) (s : State) :
    KeepsRest (changes (.reverifyDone t group fresh)) s (execReverifyDone t group fresh s) := by
  unfold execReverifyDone
  extract_lets ks
  split
  · extract_lets res heard s1 s2 _ s3 s4 w s5
    have h2 : erase (changes (.reverifyDone t group fresh)) s2 = erase (changes (.reverifyDone t group fresh)) s := by
      simp [s2, s1, changes]
    have h4 : erase (changes (.reverifyDone t group fresh)) s4 = erase (changes (.reverifyDone t group fresh)) s2 :=
      erase_foldl _ _ (fun s e => by split <;> simp [changes]) _ _
    clear_value s4 s2
    simp_all [changes, s3, s5]
  · simp

/-! ### Every command, and a step -/

/-- A command that answers a next state changes no part of State outside those that `changes` lists for it. -/
theorem keepsRest_exec (i : Instr) (s : State) : KeepsRest (changes i) s (exec i s) := by
  cases i <;> simp [exec]

theorem erase_exec (i : Instr) (s t : State) (h : exec i s = .next t) : erase (changes i) t = erase (changes i) s := by
  simpa [h] using keepsRest_exec i s

@[simp] theorem changes_pending (i : Instr) : (changes i).pending = false := by
  cases i <;> rfl

@[simp] theorem changes_mfg (i : Instr) : (changes i).mfg = false := by
  cases i <;> rfl

theorem pending_of_erase (κ : Mask) (s t : State) (hκ : κ.pending = false) (h : erase κ t = erase κ s) : t.pending = s.pending := by
  simpa [erase, hκ] using congrArg State.pending h

theorem mfg_of_erase (κ : Mask) (s t : State) (hκ : κ.mfg = false) (h : erase κ t = erase κ s) : t.mfg = s.mfg := by
  simpa [erase, hκ] using congrArg State.mfg h

theorem exec_pending (i : Instr) (s t : State) (h : exec i s = .next t) : t.pending = s.pending :=
  pending_of_erase _ s t (changes_pending i) (erase_exec i s t h)

theorem exec_mfg (i : Instr) (s t : State) (h : exec i s = .next t) : t.mfg = s.mfg :=
  mfg_of_erase _ s t (changes_mfg i) (erase_exec i s t h)

theorem step_cons (s : State) (c : Instr) (rest : List Instr) (h : s.pending = c :: rest) :
    step s = exec c { s with pending := rest } := by
  simp [step, h]

theorem step_nil (s : State) (h : s.pending = []) : step s = .next (passTime s) := by
  simp [step, h]

/-- Settles O1: both clauses are the two equations of `step`. -/
theorem stepRunsFront : Obligations.StepRunsFront :=
  ⟨step_cons, step_nil⟩

/-- Settles O2: no command's frame lists the queue or what manufacture fixed. -/
theorem stepKeepsQueueAndMfg : Obligations.StepKeepsQueueAndMfg := by
  intro s t c rest hs ht
  rw [step_cons s c rest hs] at ht
  exact ⟨exec_pending c _ t ht, exec_mfg c { s with pending := rest } t ht⟩

end Sys2Proof.Machine
end

section
/-! SUPPORT. What a frame says of single parts of State, what is read of a field, and the frame of the events of the wafer. -/

namespace Sys2Proof.Machine

/-- Settles O58: the frame that every command has. -/
theorem frameOfWaferEvents : Obligations.FrameOfWaferEvents :=
  fun i s t _ _ h => erase_exec i s t h

/-! ### Parts that an operation leaves alone -/

theorem parts_of_erase (κ : Mask) {s t : State} (hκ : κ.parts = false) (h : erase κ t = erase κ s) : t.parts = s.parts := by
  simpa [erase, hκ] using congrArg State.parts h

theorem nor_of_erase (κ : Mask) {s t : State} (hκ : κ.nor = false) (h : erase κ t = erase κ s) : t.nor = s.nor := by
  simpa [erase, hκ] using congrArg State.nor h

theorem arm_of_erase (κ : Mask) {s t : State} (hκ : κ.arm = false) (h : erase κ t = erase κ s) : t.arm = s.arm := by
  simpa [erase, hκ] using congrArg State.arm h

theorem feed_of_erase (κ : Mask) {s t : State} (hκ : κ.feed = false) (h : erase κ t = erase κ s) : t.feed = s.feed := by
  simpa [erase, hκ] using congrArg State.feed h

theorem now_of_erase (κ : Mask) {s t : State} (hκ : κ.now = false) (h : erase κ t = erase κ s) : t.now = s.now := by
  simpa [erase, hκ] using congrArg State.now h

theorem boot_of_erase (κ : Mask) {s t : State} (hκ : κ.boot = false) (h : erase κ t = erase κ s) : t.boot = s.boot := by
  simpa [erase, hκ] using congrArg State.boot h

theorem panel_of_erase (κ : Mask) {s t : State} (hκ : κ.panel = false) (h : erase κ t = erase κ s) : t.panel = s.panel := by
  simpa [erase, hκ] using congrArg State.panel h

theorem cycleReason_of_erase (κ : Mask) {s t : State} (hκ : κ.tray = false) (h : erase κ t = erase κ s) :
    t.tray.cycleReason = s.tray.cycleReason := by
  simpa [erase, eraseTray, hκ] using congrArg (fun u : State => u.tray.cycleReason) h

/-- The Cabinet's time, counts and marks, where the frame lists neither it nor the A+ counter. -/
theorem cab_of_erase (κ : Mask) {s t : State} (hκ : κ.cab = false) (ha : κ.aCounter = false) (h : erase κ t = erase κ s) :
    t.cab.opTime = s.cab.opTime ∧ t.cab.cycles = s.cab.cycles ∧ t.cab.aCounter = s.cab.aCounter ∧ t.cab.marks = s.cab.marks := by
  refine ⟨?_, ?_, ?_, ?_⟩
  · simpa [erase, eraseCab, hκ] using congrArg (fun u : State => u.cab.opTime) h
  · simpa [erase, eraseCab, hκ] using congrArg (fun u : State => u.cab.cycles) h
  · simpa [erase, eraseCab, ha] using congrArg (fun u : State => u.cab.aCounter) h
  · simpa [erase, eraseCab, hκ] using congrArg (fun u : State => u.cab.marks) h

theorem fields_of_erase (κ : Mask) {s t : State} (hκ : κ.fields = false) (h : erase κ t = erase κ s) : t.fields = s.fields := by
  simpa [erase, hκ] using congrArg State.fields h

theorem genOf_of_erase (κ : Mask) {s t : State} (hκ : κ.gens = false) (h : erase κ t = erase κ s) (d : Nat) :
    genOf t d = genOf s d := by
  have hg : t.hang.gens = s.hang.gens := by simpa [erase, eraseHang, hκ] using congrArg (fun u : State => u.hang.gens) h
  rw [genOf, genOf, hg]

/-! ### What is read of a field -/

/-- What a reading `π` shows of every field. -/
def fieldView {α : Type} (π : Field → α) (s : State) (f : Nat) : α := π (fieldOf s f)

section
variable {α : Type} {π : Field → α} {s t : State}

theorem fieldView_of_fields (h : t.fields = s.fields) : fieldView π t = fieldView π s := by
  funext f
  rw [fieldView, fieldView, fieldOf, fieldOf, h]

theorem fieldView_of_erase (κ : Mask) (hκ : κ.fields = false) (h : erase κ t = erase κ s) : fieldView π t = fieldView π s :=
  fieldView_of_fields (fields_of_erase κ hκ h)

theorem read_of_fieldView (h : fieldView π t = fieldView π s) (f : Nat) : π (fieldOf t f) = π (fieldOf s f) := congrFun h f

/-- An update of a field that leaves the reading of this field alone leaves it alone in all. -/
@[simp] theorem fieldView_setField (f : Nat) (x : Field) (h : π x = π (fieldOf s f)) :
    fieldView π (setField s f x) = fieldView π s := by
  funext g
  by_cases hg : g = f
  · subst hg
    simpa [fieldView] using h
  · rw [fieldView, fieldOf_setField_other s f g x hg, fieldView]

@[simp] theorem fieldView_modField (f : Nat) (g : Field → Field) (h : π (g (fieldOf s f)) = π (fieldOf s f)) :
    fieldView π (modField s f g) = fieldView π s := fieldView_setField f _ h

@[simp] theorem fieldView_ite (c : Prop) [Decidable c] :
    fieldView π (if c then s else t) = if c then fieldView π s else fieldView π t := by
  split <;> rfl

theorem fieldView_foldl {β : Type} (u : State → β → State) (h : ∀ s b, fieldView π (u s b) = fieldView π s) (l : List β) (s : State) :
    fieldView π (l.foldl u s) = fieldView π s := by
  induction l generalizing s with
  | nil => rfl
  | cons b l ih => rw [List.foldl_cons, ih, h]

@[simp] theorem fieldView_drive (s : State) (o : Out) : fieldView π (drive s o) = fieldView π s := rfl

/-- An entry of a warden's ring changes the ring alone. -/
@[simp] theorem fieldView_wring (s : State) (f typ : Nat) (l : List Nat) (h : ∀ x r, π { x with ring := r } = π x) :
    fieldView π (wring s f typ l) = fieldView π s := fieldView_modField f _ (h _ _)

@[simp] theorem fieldView_emitWords (s : State) (typ : Nat) (part : Option Nat) (ws : List Word) :
    fieldView π (emitWords s typ part ws) = fieldView π s := rfl

end

/-! ### Operations that change no field -/

/-- Every part of State that a command may change but the fields. -/
def exceptFields : Mask :=
  { free := true, feed := true, now := true, fe := true, regs := true, tray := true, panel := true, nor := true, cab := true,
    drawer := true, arm := true, svc := true, hutch := true, parts := true, guards := true, tiles := true, groups := true,
    side := true, lanes := true, hang := true, arb := true, boot := true, sched := true, sig := true, storms := true, out := true,
    status := true, capCeil := true, arrivals := true, aCounter := true, gens := true, cap := true }

section
variable {α : Type} {π : Field → α}

theorem fieldView_of_exceptFields {s t : State} (h : erase exceptFields t = erase exceptFields s) : fieldView π t = fieldView π s :=
  fieldView_of_erase exceptFields rfl h

@[simp] theorem fieldView_countField (s : State) (f : Nat) (g : FieldCount → FieldCount) (h : ∀ x c, π { x with cnt := c } = π x) :
    fieldView π (countField s f g) = fieldView π s := by
  unfold countField
  split
  · rfl
  · exact fieldView_modField f _ (h _ _)

@[simp] theorem fieldView_countTap (s : State) (f : Nat) (e : EngineTap) : fieldView π (countTap s f e) = fieldView π s :=
  fieldView_of_exceptFields (by simp [exceptFields])

@[simp] theorem fieldView_holdPartition (s : State) (f : Nat) : fieldView π (holdPartition s f) = fieldView π s :=
  fieldView_of_exceptFields (by simp [exceptFields])

@[simp] theorem fieldView_autoReset (s : State) (level dom cause : Nat) : fieldView π (autoReset s level dom cause) = fieldView π s :=
  fieldView_of_exceptFields (by simp [exceptFields])

@[simp] theorem fieldView_quarantineFailed (s : State) (l : List ReplayFail) :
    fieldView π (quarantineFailed s l) = fieldView π s :=
  fieldView_of_exceptFields (by simp [exceptFields])

@[simp] theorem fieldView_formGroups (s : State) (f : Nat) : fieldView π (formGroups s f) = fieldView π s :=
  fieldView_of_exceptFields (by simp [exceptFields])

@[simp] theorem fieldView_noteCause (s : State) (phys kind severity : Nat) (word : Dword) (seen : Detection) :
    fieldView π (noteCause s phys kind severity word seen) = fieldView π s := rfl

@[simp] theorem fieldView_markQuarantined (s : State) (f p reason source : Nat) :
    fieldView π (markQuarantined s f p reason source) = fieldView π s :=
  fieldView_of_exceptFields (by simp [exceptFields])

@[simp] theorem fieldView_runOwn (s : State) (g : Group) (st : GroupState) : fieldView π (runOwn s g st) = fieldView π s :=
  fieldView_of_exceptFields (by simp [exceptFields])

@[simp] theorem fieldView_modGuard (s : State) (a : Nat) (g : Guard → Guard) : fieldView π (modGuard s a g) = fieldView π s := rfl
@[simp] theorem fieldView_sendImage (s : State) (e : Nat × Nat) : fieldView π (sendImage s e) = fieldView π s := rfl
@[simp] theorem fieldView_setGroup (s : State) (g : Group) : fieldView π (setGroup s g) = fieldView π s := rfl
@[simp] theorem fieldView_dropGroup (s : State) (id : Nat) : fieldView π (dropGroup s id) = fieldView π s := rfl
@[simp] theorem fieldView_finishFreeze (s : State) (p : Nat) (z : FreezePend) (acted lateNs : Nat) :
    fieldView π (finishFreeze s p z acted lateNs) = fieldView π s :=
  fieldView_of_exceptFields (by simp [exceptFields])
@[simp] theorem fieldView_modPart (s : State) (p : Nat) (g : Part → Part) : fieldView π (modPart s p g) = fieldView π s :=
  fieldView_of_exceptFields (by simp [exceptFields])
end

end Sys2Proof.Machine
end

section
/-! SUPPORT. The loss and the rise of the hub feed (R28, R37, R308, R328, R339, R453). -/

namespace Sys2Proof.Machine

/-! ### The loss of the hub feed -/

/-- What no commit of a record touches: what manufacture fixed, the Armoire, the snapshot and the dumps of the NOR. -/
def durable (s : State) : Mfg × Armoire × Option Snapshot × Table Dump := (s.mfg, s.arm, s.nor.snap, s.nor.dumps)

/-- The parts that a commit changes beside the NOR. -/
def commitMask : Mask := { cab := true, hutch := true, out := true, status := true, arrivals := true }

theorem durable_of_erase {s t : State} (h : erase commitMask t = erase commitMask s) : durable t = durable s := by
  rw [durable, mfg_of_erase commitMask s t rfl h, nor_of_erase commitMask rfl h, arm_of_erase commitMask rfl h, durable]

@[simp] theorem durable_eraseRingSector (s : State) (k : Nat) : durable (eraseRingSector s k) = durable s := by
  unfold eraseRingSector
  exact (durable_of_erase ((erase_eraseUnits commitMask _ _ rfl rfl rfl rfl rfl).trans (erase_cursorsPast commitMask _ _ rfl))).trans rfl

@[simp] theorem durable_clearAhead (s : State) (k : Nat) : durable (clearAhead s k) = durable s := by
  unfold clearAhead
  split
  · exact durable_eraseRingSector s k
  · rfl

@[simp] theorem durable_moveSector (s : State) : durable (moveSector s) = durable s := by
  unfold moveSector
  simp only [durable_clearAhead]
  exact durable_clearAhead s _

@[simp] theorem durable_ringAppend (s : State) (r : Rec) : durable (ringAppend s r) = durable s := by
  have h : durable (ringAppend s r) =
      durable (if s.nor.offset + recBytes r ≤ sectorBytes s.nor then s else moveSector s) := rfl
  rw [h]
  split
  · rfl
  · exact durable_moveSector s

/-- R327, R339: a commit writes the ring or the fallback store alone. -/
theorem durable_commitFront (s : State) : durable (commitFront s) = durable s := by
  unfold commitFront
  split
  · rfl
  · refine (durable_of_erase (erase_noteDropped commitMask _ rfl)).trans ?_
    split
    · exact durable_of_erase (erase_storeAppend commitMask _ _ rfl)
    · exact durable_ringAppend _ _

/-- R328, R320: the record that was being programmed and the fold that was under way change the ring and the spare alone. -/
theorem loseFeed_eq (s : State) : ∃ u, loseFeed s = afterLoss u ∧ durable u = durable s := by
  refine ⟨_, rfl, ?_⟩
  have hspare (u : State) : durable (if (u.cab.failed || u.nor.journal.isEmpty) = true then u
      else advFree { u with nor := { u.nor with spare := decide (freeVal u 2 = 1) } }) = durable u := by
    split <;> rfl
  refine (hspare _).trans ?_
  split
  · rfl
  · dsimp only
    split
    · rfl
    · split
      · rfl
      · exact durable_commitFront _

/-- R28, R37, R453: what the loss of the feed leaves, of what stood when the last record was dealt with. -/
theorem hubFeedLoss_leaves (s : State) (h : s.feed = true) : ∃ t, exec .hubFeedLoss s = .next t ∧ t.feed = false ∧ t.parts = [] ∧
    t.fields = [] ∧ t.fe = {} ∧ t.cab = {} ∧ t.hang = {} ∧ t.mfg = s.mfg ∧ t.arm.tenantKeys = s.arm.tenantKeys ∧
    t.arm.admin = s.arm.admin ∧ t.arm.active = s.arm.active ∧ t.arm.unsealed = false ∧ t.nor.snap = s.nor.snap ∧
    t.nor.dumps = s.nor.dumps := by
  obtain ⟨u, hu, hd⟩ := loseFeed_eq s
  simp only [durable, Prod.mk.injEq] at hd
  obtain ⟨hmfg, harm, hsnap, hdumps⟩ := hd
  refine ⟨afterLoss u, ?_, ?_⟩
  · rw [← hu]
    simp [exec, execHubFeedLoss, h]
  · simp [afterLoss, hmfg, harm, hsnap, hdumps]

/-! ### The rise of the hub feed -/

/-- The parts that S0 writes once the NOR is recovered. -/
def riseMask : Mask := { nor := true, arm := true, fields := true, arb := true, out := true, status := true, arrivals := true }

/-- The block once the NOR is recovered and the levels of its pins are read, before S0 writes a record. -/
def risen (s : State) (found : PowerOnFound) : State :=
  let u := bringNorUp (recovered { s with feed := true, now := 0 } true) found.norFails
  { u with
    nor := { u.nor with big := found.norBig }
    tray := { u.tray with smbAddrHigh := found.smbAddrHigh }
    panel := { u.panel with lidOpen := found.lidOpen, ignored := found.buttonLow }
    arb := { u.arb with pgood := (found.pgood ++ List.replicate 8 true).take 8, mfrOk := found.mfr } }

theorem powerOn_next (s : State) (found : PowerOnFound) (hfeed : s.feed = false) (hnor : found.norFails < 3)
    (hpgood : found.pgood.getD 1 true = true ∨ found.pgood.getD 2 true = true) :
    ∃ t, exec (.powerOn found) s = .next t ∧ erase riseMask t = erase riseMask (risen s found) := by
  have hok : (!s.feed && (found.pgood.getD 1 true || found.pgood.getD 2 true)) = true := by
    rw [hfeed, Bool.not_false, Bool.true_and, Bool.or_eq_true]
    exact hpgood
  refine ⟨_, by rw [exec, execPowerOn, hok]; rfl, ?_⟩
  simp [hnor, riseMask, risen]

/-- R308, R328, R339: what the snapshot restores. -/
theorem risen_of_snapshot (s : State) (found : PowerOnFound) (x : Snapshot) (h : s.nor.snap = some x) :
    (risen s found).cab.opTime = x.opTime ∧ (risen s found).cab.cycles = min 0xFFFFFF (x.cycles + 1) ∧
    (risen s found).cab.aCounter = x.aCounter ∧ (risen s found).cab.marks = x.marks ∧ (risen s found).boot.first = false ∧
    (risen s found).tray.cycleReason = x.reason := by
  simp [risen, bringNorUp, recovered, h]

theorem risen_pins (s : State) (found : PowerOnFound) :
    (risen s found).feed = true ∧ (risen s found).now = 0 ∧ (risen s found).panel.lidOpen = found.lidOpen := by
  simp only [risen, bringNorUp, recovered, if_true]
  split <;> simp

/-- Settles O54: committing a record leaves what the loss keeps; at the rise S0 writes its records, fields and models after what the
snapshot has restored. -/
theorem powerLossAndRise : Obligations.PowerLossAndRise := by
  refine fun s => ⟨hubFeedLoss_leaves s, fun found x hfeed hnor hpgood hsnap => ?_⟩
  obtain ⟨t, ht, he⟩ := powerOn_next s found hfeed hnor hpgood
  obtain ⟨hop, hcyc, ha, hmarks, hfirst, hreason⟩ := risen_of_snapshot s found x hsnap
  obtain ⟨hf, hnow, hlid⟩ := risen_pins s found
  obtain ⟨top, tcyc, ta, tmarks⟩ := cab_of_erase riseMask rfl rfl he
  refine ⟨t, ht, (feed_of_erase riseMask rfl he).trans hf, (now_of_erase riseMask rfl he).trans hnow, top.trans hop,
    tcyc.trans hcyc, ta.trans ha, tmarks.trans hmarks, ?_, (cycleReason_of_erase riseMask rfl he).trans hreason, ?_⟩
  · rw [boot_of_erase riseMask rfl he, hfirst]
  · rw [panel_of_erase riseMask rfl he, hlid]

end Sys2Proof.Machine
end

section
/-! SUPPORT. Fault sources, episodes and the summary of a second (R36, R236, R261 to R273). -/

namespace Sys2Proof.Machine

/-! ### Episodes -/

/-- The first source of an episode that is open. -/
abbrev firstSource (x : Field) : Option SourceDetail := x.episode.map (·.first)

/-- The open episode of a field, and what waits for the summary of the second. -/
structure OpenFaults where
  episode : Option Episode
  summary : Option (Episode × Nat)

abbrev openFaults (x : Field) : OpenFaults := { episode := x.episode, summary := x.summary }

@[simp] theorem openFaults_wardenSends (s : State) (f typ : Nat) (part : Option Nat) (body : List Word) :
    fieldView openFaults (wardenSends s f typ part body) = fieldView openFaults s := by
  unfold wardenSends
  dsimp only
  split_ifs
  · rfl
  · exact fieldView_setField f _ rfl
  · exact fieldView_setField f _ rfl

theorem episode_wardenSends (s : State) (f typ : Nat) (part : Option Nat) (body : List Word) :
    (fieldOf (wardenSends s f typ part body) f).episode = (fieldOf s f).episode :=
  congrArg OpenFaults.episode (read_of_fieldView (openFaults_wardenSends s f typ part body) f)

theorem summary_wardenSends (s : State) (f typ : Nat) (part : Option Nat) (body : List Word) :
    (fieldOf (wardenSends s f typ part body) f).summary = (fieldOf s f).summary :=
  congrArg OpenFaults.summary (read_of_fieldView (openFaults_wardenSends s f typ part body) f)

theorem summary_sendSummary (s : State) (f : Nat) : (fieldOf (sendSummary s f) f).summary = none := by
  unfold sendSummary
  dsimp only
  split
  next h => exact h
  next => rw [summary_wardenSends, fieldOf_setField]

theorem episode_closeEpisode (s : State) (f : Nat) : (fieldOf (closeEpisode s f) f).episode = none := by
  unfold closeEpisode
  split
  next h => exact h
  next =>
    extract_lets
    split_ifs
    · rw [fieldOf_setField]
    · rw [episode_wardenSends, fieldOf_setField]
    · rw [fieldOf_setField]

theorem episode_noteFailed (s : State) (f t : Nat) : fieldView (·.episode) (noteFailed s f t) = fieldView (·.episode) s := by
  unfold noteFailed
  split
  · rfl
  · exact fieldView_modField f _ rfl

/-- R266: a source that is latched where no episode is open opens one. -/
theorem addSource_opens (s : State) (f : Nat) (d : SourceDetail) (more : Nat) (h : (fieldOf s f).episode = none) :
    ∃ e, (fieldOf (addSource s f d more) f).episode = some e ∧ e.first = d ∧ e.time = s.now ∧ e.gen = genOf s (domField f) ∧
      e.storm = false := by
  unfold addSource
  dsimp only
  rw [h]
  dsimp only
  rw [read_of_fieldView (π := (·.episode)) (fieldView_wring _ f 3 _ fun _ _ => rfl) f, fieldOf_setField]
  exact ⟨_, rfl, rfl, rfl, rfl, rfl⟩

theorem firstSource_openStorm (s : State) (f n : Nat) (droop : Bool) :
    fieldView firstSource (openStorm s f n droop) = fieldView firstSource s := by
  unfold openStorm
  dsimp only
  split
  · rfl
  next e h =>
    split
    · exact fieldView_setField f _ rfl
    · exact fieldView_setField f _ (by simp [firstSource, h])

theorem firstSource_recallExport (s : State) (f t cycle : Nat) (r : Nat × Nat × List Word) :
    fieldView firstSource (recallExport s f t cycle r) = fieldView firstSource s := by
  have hcross (u : State) (log : Nat) : fieldView firstSource (noteCross u f log) = fieldView firstSource u := by
    unfold noteCross
    split
    · rfl
    · exact fieldView_modField f _ rfl
  have hheader (u : State) (h : List Word) : fieldView firstSource (sampleHeader u f h) = fieldView firstSource u := by
    unfold sampleHeader
    dsimp only
    split
    · exact (fieldView_wring _ f 11 _ fun _ _ => rfl).trans (fieldView_setField f _ rfl)
    · exact fieldView_setField f _ rfl
  unfold recallExport
  split
  · rfl
  · rw [hcross, hheader, fieldView_drive]

theorem firstSource_droopSignal (s : State) (f cycle : Nat) :
    fieldView firstSource (droopSignal s f cycle) = fieldView firstSource s := by
  unfold droopSignal
  dsimp only
  split
  · rfl
  · refine (fieldView_foldl _ (fun u e => fieldView_foldl _ (fun v r => ?_) _ u) _ _).trans (fieldView_setField f _ rfl)
    exact firstSource_recallExport v f e.1 cycle r

theorem firstSource_stormCheck (s : State) (f n cycle : Nat) (droop : Bool) :
    fieldView firstSource (stormCheck s f n cycle droop) = fieldView firstSource s := by
  unfold stormCheck
  dsimp only
  split_ifs
  · exact firstSource_openStorm s f n droop
  · rw [firstSource_droopSignal, firstSource_openStorm]
  · rfl

/-- R36, R262: the tile that the guard root presents is latched with its detail, in an episode of its own where none is open. -/
theorem latchGuard_opens (s : State) (f a : Nat) (h : (fieldOf s f).episode = none) :
    (fieldOf (latchGuard s f a) f).latched = some (guardDetail s a) ∧
    ∃ e, (fieldOf (latchGuard s f a) f).episode = some e ∧ e.first = guardDetail s a ∧ e.time = s.now ∧
      e.gen = genOf s (domField f) ∧ e.storm = false := by
  let v := if (guardDetail s a).cls = 5 then advFree s else s
  let u := noteFailed v f a
  have hu : erase { free := true, fields := true } u = erase { free := true, fields := true } s := by simp [u, v]
  have hview : fieldView (·.episode) u = fieldView (·.episode) s := by
    refine (episode_noteFailed v f a).trans ?_
    rw [fieldView_ite]
    split <;> rfl
  obtain ⟨e, he, hfirst, htime, hgen, hstorm⟩ :=
    addSource_opens u f (guardDetail s a) (guardOf v a).more ((read_of_fieldView hview f).trans h)
  have hl : latchGuard s f a = modField (addSource u f (guardDetail s a) (guardOf v a).more) f
      (fun x => { x with latched := some (guardDetail s a) }) := rfl
  rw [hl, fieldOf_modField]
  exact ⟨rfl, e, he, hfirst, htime.trans (now_of_erase _ rfl hu), hgen.trans (genOf_of_erase _ rfl hu _), hstorm⟩

/-- R273: below 64 sources, and without a droop, an episode that is no storm does not become one. -/
theorem stormCheck_quiet (s : State) (f n cycle : Nat) (hn : n < 64) (h : inStorm (fieldOf s f) = false) :
    stormCheck s f n cycle false = s := by
  unfold stormCheck
  unfold inStorm at h
  have hn' : ¬ 64 ≤ n := by omega
  simp [h, hn']

/-- The field's warden runs in a block that is clocked. -/
structure WardenReads (s : State) (f : Nat) : Prop where
  clocked : clocked s = true
  up : (fieldOf s f).warden = .up

theorem guardRoot_next (s : State) (f a n cyc : Nat) (rest : List Nat) (hf : f < 84) (hw : WardenReads s f)
    (hpins : (fieldOf s f).guardPins = a :: rest) (hep : (fieldOf s f).episode = none) (hl : (fieldOf s f).latched = none)
    (hn : n < 64) :
    exec (.errorSourceLatch f .guardRoot n cyc) s = .next (latchGuard s f a) := by
  obtain ⟨-, e, he, -, -, -, hstorm⟩ := latchGuard_opens s f a hep
  have hq : stormCheck (latchGuard s f a) f n cyc false = latchGuard s f a :=
    stormCheck_quiet _ f n cyc hn (by rw [inStorm, he]; exact hstorm)
  have hf' : ¬ 84 ≤ f := by omega
  simp [exec, execErrorSourceLatch, hf', hw.clocked, hw.up, hpins, hep, hl, epReleased, inStorm, hq]

theorem level_next (s : State) (f n cyc : Nat) (d : SourceDetail) (hf : f < 84) (hw : WardenReads s f)
    (hd : d.cls = 11 ∨ d.cls = 12) (hep : (fieldOf s f).episode = none) :
    exec (.errorSourceLatch f (.level d) n cyc) s = .next (stormCheck (addSource s f d 0) f n cyc false) := by
  have hf' : ¬ 84 ≤ f := by omega
  simpa [exec, execErrorSourceLatch, hf', hw.clocked, hw.up, hep, epReleased] using hd.resolve_left

theorem firstSource_level (s : State) (f n cyc : Nat) (d : SourceDetail) (hep : (fieldOf s f).episode = none) :
    ∃ e, (fieldOf (stormCheck (addSource s f d 0) f n cyc false) f).episode = some e ∧ e.first = d := by
  obtain ⟨e, he, hfirst, -⟩ := addSource_opens s f d 0 hep
  have h := read_of_fieldView (firstSource_stormCheck (addSource s f d 0) f n cyc false) f
  rw [firstSource, firstSource, he, Option.map_some, hfirst] at h
  exact Option.map_eq_some_iff.mp h

theorem router_next (s : State) (f n cyc : Nat) (d : SourceDetail) (hf : f < 84) (hc : clocked s = true) (hd : d.cls = 6)
    (hok : physicalOk d.tile = true) (hfield : taField d.tile = f)
    (hnew : (fieldOf s f).routerPins.any (fun e => e.tile == d.tile) = false) (hl : (fieldOf s f).latched.isSome = true) :
    exec (.errorSourceLatch f (.router d) n cyc) s =
      .next (setField s f { fieldOf s f with
        routerPins := (fieldOf s f).routerPins ++ [d]
        storm := (fieldOf s f).storm.map (fun m => { m with lastRise := s.now, routers := m.routers + 1 }) }) := by
  have hf' : ¬ 84 ≤ f := by omega
  have hfeed : s.feed = true := (Bool.and_eq_true_iff.mp hc).1
  rw [exec, execErrorSourceLatch, if_neg hf']
  dsimp only
  rw [if_neg (by simp [hd, hok, hfield]), if_neg (by rw [hnew]; simp [hfeed]), if_pos (by rw [hl]; simp)]
  rfl

/-- The pin of a guard whose detail has been read is released. -/
def ackGuard (s : State) (f a : Nat) : State :=
  modGuard (modField (modField s f (fun x => { x with latched := none })) f
    (fun x => { x with guardPins := x.guardPins.filter (· != a) })) a (fun g => { g with pin := false })

@[simp] theorem fieldOf_modGuard (s : State) (a : Nat) (g : Guard → Guard) (f : Nat) :
    fieldOf (modGuard s a g) f = fieldOf s f := rfl

theorem fieldOf_ackGuard (s : State) (f a : Nat) : fieldOf (ackGuard s f a) f =
    { fieldOf s f with latched := none, guardPins := (fieldOf s f).guardPins.filter (· != a) } := by
  rw [ackGuard, fieldOf_modGuard, fieldOf_modField, fieldOf_modField]

theorem sourceAcknowledge_only (s : State) (f : Nat) (d : SourceDetail) (hf : f < 84) (hw : WardenReads s f)
    (hl : (fieldOf s f).latched = some d) (hd : d.cls ≠ 6) (hg : (fieldOf s f).guardPins = [d.tile])
    (hr : (fieldOf s f).routerPins = []) :
    ∃ t, exec (.sourceAcknowledge f) s = .next t ∧ (fieldOf t f).latched = none ∧ (fieldOf t f).guardPins = [] ∧
      (guardOf t d.tile).pin = false ∧ (fieldOf t f).episode = (fieldOf s f).episode := by
  have hf' : ¬ 84 ≤ f := by omega
  have ht : fieldOf (ackGuard s f d.tile) f = { fieldOf s f with latched := none, guardPins := [] } := by
    simp [fieldOf_ackGuard, hg]
  have hnext : nextSource (fieldOf (ackGuard s f d.tile) f) = none := by simp [nextSource, ht, hr]
  refine ⟨ackGuard s f d.tile, ?_, by rw [ht], by rw [ht], by simp [ackGuard, modGuard], by rw [ht]⟩
  unfold ackGuard at hnext ⊢
  rw [exec, execSourceAcknowledge, if_neg hf']
  dsimp only
  rw [if_pos (by simp [hw.clocked, hw.up]), hl, whenSome_some, if_neg hd, hnext]
  split <;> rfl

theorem episodeClose_next (s : State) (f : Nat) (e : Episode) (hf : f < 84) (hw : WardenReads s f)
    (he : (fieldOf s f).episode = some e) (hr : e.released = true) (hl : (fieldOf s f).latched = none) :
    exec (.episodeClose f) s = .next (closeEpisode s f) := by
  have hf' : ¬ 84 ≤ f := by omega
  simp [exec, execEpisodeClose, hf', hw.clocked, hw.up, he, hl, epReleased, hr]

theorem rateSummary_next (s : State) (f : Nat) (hf : f < 84) (hc : clocked s = true) (h : (fieldOf s f).summary.isSome = true)
    (hsec : (fieldOf s f).rateSecond < faultSecond s) : exec (.rateSummary f) s = .next (sendSummary s f) := by
  have hf' : ¬ 84 ≤ f := by omega
  simp [exec, execRateSummary, hf', hc, h, hsec]

/-- Settles O50: a source opens the field's episode and stays its first through a storm; what ends an episode leaves none. That the
episode's time is the block timestamp is the model's choice (log entry 112). -/
theorem faultEpisodes : Obligations.FaultEpisodes := by
  intro s f hf hc hup
  have hw : WardenReads s f := ⟨hc, hup⟩
  refine ⟨fun a rest n cyc hpins hep hl hn => ?_, fun d n cyc hd hep => ?_,
    fun d n cyc hd hok hfield hnew hl => router_next s f n cyc d hf hc hd hok hfield hnew hl,
    fun d hl hd hg hr => sourceAcknowledge_only s f d hf hw hl hd hg hr,
    fun e he hr hl => ⟨_, episodeClose_next s f e hf hw he hr hl, episode_closeEpisode s f⟩,
    fun h hsec => ⟨_, rateSummary_next s f hf hc h hsec, summary_sendSummary s f⟩⟩
  · obtain ⟨hlatched, e, he, hfirst, htime, hgen, -⟩ := latchGuard_opens s f a hep
    exact ⟨_, guardRoot_next s f a n cyc rest hf hw hpins hep hl hn, hlatched, e, he, hfirst, htime, hgen⟩
  · obtain ⟨e, he, hfirst⟩ := firstSource_level s f n cyc d hep
    exact ⟨_, e, level_next s f n cyc d hf hw hd hep, he, hfirst⟩

end Sys2Proof.Machine
end

section
/-! SUPPORT. The arrival of a field at its seam (R21, R105). -/

namespace Sys2Proof.Machine

/-! ### How a field stands -/

/-- How a field stands at its seam. -/
structure Stand where
  run : Run
  stepLen : Nat
  arriveTs : Nat
  count : Nat
  seam : Nat

abbrev stand (x : Field) : Stand := { run := x.run, stepLen := x.stepLen, arriveTs := x.arriveTs, count := x.count, seam := x.seam }

@[simp] theorem stand_copyBank (s : State) (f bank : Nat) : fieldView stand (copyBank s f bank) = fieldView stand s := by
  unfold copyBank
  refine (fieldView_modField f _ ?_).trans rfl
  split_ifs <;> rfl

@[simp] theorem stand_endCompute (s : State) (f : Nat) (partly : Bool) :
    fieldView stand (endCompute s f partly) = fieldView stand s := by
  unfold endCompute
  split
  · rfl
  · extract_lets u x p v
    have hv : fieldView stand v = fieldView stand s := by
      refine (fieldView_setField (s := u) f _ ?_).trans (stand_copyBank s f 1)
      rfl
    split_ifs
    · exact hv
    · exact (fieldView_modField f _ rfl).trans hv
    · exact (fieldView_countField _ f _ fun _ _ => rfl).trans ((fieldView_modField f _ rfl).trans hv)

@[simp] theorem stand_startCompute (s : State) (f : Nat) : fieldView stand (startCompute s f) = fieldView stand s := by
  unfold startCompute
  dsimp only
  split
  · rfl
  · exact (fieldView_modField f _ rfl).trans (stand_copyBank s f 0)

@[simp] theorem stand_latchField (s : State) (f : Nat) : fieldView stand (latchField s f) = fieldView stand s := by
  unfold latchField
  dsimp only
  split
  · rfl
  · split
    · rfl
    · exact (fieldView_modField f _ rfl).trans (stand_copyBank s f 2)

@[simp] theorem stand_actFreeze (s : State) (f : Nat) (freeze : Bool) (at_ : Nat) :
    fieldView stand (actFreeze s f freeze at_) = fieldView stand s := by
  refine fieldView_modField f _ ?_
  split <;> rfl

@[simp] theorem stand_freezeAtSeam (s : State) (f : Nat) : fieldView stand (freezeAtSeam s f) = fieldView stand s := by
  unfold freezeAtSeam
  split
  · rfl
  · split
    · rfl
    · split
      · rfl
      · dsimp only
        split <;> simp

@[simp] theorem stand_seamCopies (s : State) (f : Nat) : fieldView stand (seamCopies s f) = fieldView stand s := by
  unfold seamCopies
  extract_lets x ends u
  have hu : fieldView stand u = fieldView stand s := by
    simp only [u]
    split <;> simp
  simp [hu]

@[simp] theorem stand_dropPins (s : State) (f : Nat) : fieldView stand (dropPins s f) = fieldView stand s :=
  (fieldView_of_fields rfl).trans (fieldView_modField (s := s) f
    (fun x => { x with guardPins := [], routerPins := [], latched := none }) rfl)

@[simp] theorem stand_faultsAtSeam (s : State) (f : Nat) : fieldView stand (faultsAtSeam s f) = fieldView stand s := by
  unfold faultsAtSeam
  extract_lets u
  have hu : fieldView stand u = fieldView stand s := fieldView_modField f _ rfl
  split
  · split <;> simp [hu]
  · exact hu

@[simp] theorem stand_noteHolds (s : State) (f : Nat) : fieldView stand (noteHolds s f) = fieldView stand s :=
  fieldView_modField f _ rfl

@[simp] theorem stand_resetForLoss (s : State) (f cause : Nat) : fieldView stand (resetForLoss s f cause) = fieldView stand s := by
  unfold resetForLoss
  dsimp only
  split <;> simp

@[simp] theorem stand_loseWith (s : State) (f w : Nat) (detail : Dword) (cause : Nat) :
    fieldView stand (loseWith s f w detail cause) = fieldView stand s := by
  simp [loseWith]

@[simp] theorem stand_lostStep (s : State) (f trigger outcome : Nat) (cross : Bool) (tiles spare hold : Nat) (detail : Dword)
    (cause : Nat) : fieldView stand (lostStep s f trigger outcome cross tiles spare hold detail cause) = fieldView stand s :=
  stand_loseWith s f _ detail cause

@[simp] theorem stand_programFault (s : State) (f w : Nat) (detail : Dword) :
    fieldView stand (programFault s f w detail) = fieldView stand s := by
  simp [programFault]

@[simp] theorem stand_reserveFor (s : State) (log : Nat) : fieldView stand (reserveFor s log) = fieldView stand s := by
  unfold reserveFor
  extract_lets f x l o pick
  split_ifs
  · rfl
  · cases pick with
    | none => rfl
    | some u => exact fieldView_setField f _ rfl

@[simp] theorem stand_reserveAll (s : State) (l : List Nat) : fieldView stand (reserveAll s l) = fieldView stand s :=
  fieldView_foldl _ stand_reserveFor _ s

@[simp] theorem stand_replaceAtSeam (s : State) (f p reason source : Nat) :
    fieldView stand (replaceAtSeam s f p reason source) = fieldView stand s := by
  unfold replaceAtSeam
  extract_lets
  split
  · rfl
  · split <;> exact fieldView_setField _ _ rfl

@[simp] theorem stand_markSuspect (s : State) (f p : Nat) : fieldView stand (markSuspect s f p) = fieldView stand s := by
  have hworn (u : State) : fieldView stand (quarantineWorn u f p 9 3) = fieldView stand u := by
    unfold quarantineWorn
    dsimp only
    split <;> simp
  unfold markSuspect
  dsimp only
  split
  · exact (hworn _).trans rfl
  · rfl

@[simp] theorem stand_queueTest (s : State) (f p trigger corner : Nat) :
    fieldView stand (queueTest s f p trigger corner) = fieldView stand s := by
  unfold queueTest
  extract_lets
  split
  · rfl
  · exact (fieldView_of_fields rfl).trans (fieldView_setField (s := s) f _ rfl)

@[simp] theorem stand_suspectLost (s : State) (g : Group) (p : Nat) : fieldView stand (suspectLost s g p) = fieldView stand s := by
  simp [suspectLost, suspectAndTest]

@[simp] theorem stand_loseGroup (s : State) (g : Group) (outcome spare : Nat) (suspects : List Nat) (detail : Dword) :
    fieldView stand (loseGroup s g outcome spare suspects detail) = fieldView stand s := by
  unfold loseGroup
  simp [ringReplay, fieldView_foldl _ fun u p => stand_suspectLost u g p, stand]

@[simp] theorem stand_startCopies (s : State) (g : Group) : fieldView stand (startCopies s g) = fieldView stand s := by
  have hidle (u : State) : fieldView stand (mapIdle u g) = fieldView stand u :=
    fieldView_foldl _ (fun v e => fieldView_modField _ _ rfl) _ u
  unfold startCopies
  exact (fieldView_foldl _ fieldView_sendImage _ _).trans (hidle _)

@[simp] theorem stand_moveToSpares (s : State) (g : Group) (again : List ReplayFail) :
    fieldView stand (moveToSpares s g again) = fieldView stand s := by
  unfold moveToSpares
  extract_lets u lone sus spares failed h v
  split_ifs <;> simp [u, v]

@[simp] theorem stand_startGroup (s : State) (g : Group) : fieldView stand (startGroup s g) = fieldView stand s := by
  unfold startGroup
  extract_lets u skip h
  have hu : fieldView stand u = fieldView stand s := fieldView_wring s _ _ _ fun _ _ => rfl
  split_ifs <;> simp [hu]

@[simp] theorem stand_startWaiting (s : State) (f c : Nat) : fieldView stand (startWaiting s f c) = fieldView stand s := by
  refine fieldView_foldl _ (fun u id => ?_) _ s
  split
  · split <;> simp
  · rfl

@[simp] theorem stand_startSpots (s : State) (f : Nat) : fieldView stand (startSpots s f) = fieldView stand s := by
  unfold startSpots
  extract_lets x replayed u
  have hu : fieldView stand u = fieldView stand s := by
    refine fieldView_foldl _ (fun v l => ?_) _ s
    have hcount (w : State) (g : FieldCount → FieldCount) : fieldView stand (countField w f g) = fieldView stand w :=
      fieldView_countField w f g fun _ _ => rfl
    extract_lets
    split_ifs
    · exact (hcount _ _).trans (fieldView_setField f _ rfl)
    · exact hcount _ _
    · exact hcount _ _
    · split
      · exact hcount _ _
      · exact fieldView_setField f _ rfl
  exact (fieldView_modField f _ rfl).trans hu

@[simp] theorem stand_countCycles (s : State) (f cycles : Nat) : fieldView stand (countCycles s f cycles) = fieldView stand s := by
  unfold countCycles
  split
  · rfl
  · exact fieldView_modField f _ rfl

/-- R21, R105: the field that has just arrived. -/
theorem stand_arriveAtSeam (s : State) (f cycles : Nat) (taps : List EngineTap) :
    stand (fieldOf (arriveAtSeam s f cycles taps) f) =
      { run := .held, stepLen := cycles, arriveTs := s.now, count := (fieldOf s f).count + cycles, seam := (fieldOf s f).seam } := by
  unfold arriveAtSeam
  extract_lets w c h m q x n v g
  have hc : fieldView stand c = fieldView stand s := by
    simp only [c, w, stand_countCycles, fieldView_foldl _ fun u e => fieldView_countTap u f e]
    exact fieldView_wring s f 1 _ fun _ _ => rfl
  have hnow : c.now = s.now := now_of_erase { fields := true, tiles := true } rfl (by simp [c, w])
  have hh : stand (fieldOf h f) =
      { run := .held, stepLen := cycles, arriveTs := s.now, count := (fieldOf s f).count + cycles, seam := (fieldOf s f).seam } := by
    have hcf := read_of_fieldView hc f
    simp only [Stand.mk.injEq] at hcf
    obtain ⟨-, -, -, hcount, hseam⟩ := hcf
    simp only [h, fieldOf_modField, hnow, hcount, hseam]
  have hv : fieldView stand v = fieldView stand h := by
    simp only [v, n, q, m]
    split <;> simp
  refine (read_of_fieldView (s := h) ?_ f).trans hh
  split
  · rw [stand_programFault, fieldView_quarantineFailed, hv]
  · rw [stand_lostStep, fieldView_quarantineFailed, hv]
  · rw [stand_startSpots, stand_startWaiting, stand_reserveAll, fieldView_formGroups, hv]

theorem fieldSeamArrival_next (s : State) (f cycles : Nat) (taps : List EngineTap) (hf : f < 84)
    (htaps : taps.all (tapOk (fieldOf s f)) = true) (hc : clocked s = true) (hup : (fieldOf s f).warden = .up)
    (hrun : (fieldOf s f).run = .running) (harr : (fieldOf s f).arrived = (fieldPlaces (fieldOf s f)).length)
    (hseam : (fieldOf s f).seam < (fieldSeams s f).length) (hgone : ∀ p y, fieldPart s f = some (p, y) → y.gone = false) :
    exec (.fieldSeamArrival f cycles taps) s = .next (arriveAtSeam s f cycles taps) := by
  have hbad : ¬ (84 ≤ f ∨ (!taps.all (tapOk (fieldOf s f))) = true) := by
    rw [htaps]
    simp [hf]
  rw [exec, execFieldSeamArrival, if_neg hbad]
  dsimp only
  rw [hc, hup, hrun, decide_eq_true harr, decide_eq_true hseam]
  simp only [beq_self_eq_true, Bool.and_self, whenOk_true]
  split
  next p y hp => rw [hgone p y hp, Bool.false_and, if_neg Bool.false_ne_true]
  next => rfl

theorem seamArrival : Says.SeamArrival := by
  intro s f cycles taps hf htaps hc hup hrun harr hseam hgone
  have h := stand_arriveAtSeam s f cycles taps
  simp only [Stand.mk.injEq] at h
  exact ⟨_, fieldSeamArrival_next s f cycles taps hf htaps hc hup hrun harr hseam hgone, h⟩

end Sys2Proof.Machine
end

section
/-! SUPPORT. The release of a field from a seam at which nothing is due (R22 to R24, R105). -/

namespace Sys2Proof.Machine

/-! ### The program at a field -/

/-- The partition of a field, its program and an unload of it. -/
def programAt (s : State) (f : Nat) : Option (Nat × Option Program × Option (Nat × Nat)) :=
  (fieldPart s f).map (fun e => (e.1, e.2.prog, e.2.unloading))

theorem programAt_of_parts {s t : State} (h : t.parts = s.parts) (f : Nat) : programAt t f = programAt s f := by
  rw [programAt, fieldPart, h, programAt, fieldPart]

theorem fieldSeams_of_programAt {s t : State} {f : Nat} (h : programAt t f = programAt s f) : fieldSeams t f = fieldSeams s f := by
  have hprog (u : State) : fieldProg u f = (programAt u f).bind (fun e => e.2.1) := by
    unfold fieldProg programAt
    cases fieldPart u f <;> rfl
  rw [fieldSeams, fieldSeams, hprog, hprog, h]

/-- The first entry of a table that satisfies `P` is the first of its key where that one satisfies `P` too. -/
theorem tfind_of_find? {α : Type} (P : Nat × α → Bool) (l : Table α) (p : Nat) (y x : α) (h : l.find? P = some (p, y))
    (hx : tfind l p = some x) (hP : P (p, x) = true) : x = y := by
  induction l with
  | nil => simp at h
  | cons e r ih =>
    obtain ⟨a, w⟩ := e
    rw [tfind] at hx
    rw [List.find?_cons] at h
    split at hx
    next ha =>
      cases ha
      cases hx
      simp_all
    next ha =>
      split at h
      · simp_all
      · exact ih h hx

/-- An update of the first entry of a key that `P` does not see keeps the first entry that satisfies `P`, or updates it. -/
theorem find?_tset {α : Type} (P : Nat × α → Bool) (g : α → α) (hg : ∀ k x, P (k, g x) = P (k, x)) (l : Table α) (p : Nat) (y x : α)
    (h : l.find? P = some (p, y)) (hx : tfind l p = some x) :
    (tset l p (g x)).find? P = some (p, y) ∨ (tset l p (g x)).find? P = some (p, g y) := by
  induction l with
  | nil => simp at h
  | cons e r ih =>
    obtain ⟨a, w⟩ := e
    by_cases ha : a = p
    · subst ha
      obtain rfl : w = x := by simpa [tfind] using hx
      rw [tset, if_pos rfl]
      cases hP : P (a, w) <;> simp_all
    · by_cases hlt : p < a
      · rw [tset, if_neg (Ne.symm ha), if_pos hlt]
        cases hP : P (p, x)
        · exact .inl (by rw [List.find?_cons, hg, hP]; exact h)
        · obtain rfl := tfind_of_find? P _ p y x h hx hP
          exact .inr (by rw [List.find?_cons, hg, hP])
      · rw [tset, if_neg (Ne.symm ha), if_neg hlt]
        cases hP : P (a, w)
        · rw [List.find?_cons, hP] at h ⊢
          rw [tfind, if_neg ha] at hx
          exact ih h hx
        · simp_all

/-- A setting of a field's partition that leaves rectangle, program and unload alone leaves the field's program alone. -/
theorem programAt_modPart (s : State) (f p : Nat) (g : Part → Part) (hp : partNo s f = some p)
    (hg : ∀ x, partFields (g x) = partFields x ∧ (g x).prog = x.prog ∧ (g x).unloading = x.unloading) :
    programAt (modPart s p g) f = programAt s f := by
  obtain ⟨⟨q, y⟩, hy, rfl⟩ := Option.map_eq_some_iff.mp hp
  unfold modPart
  split
  next x hx =>
    have hP (k : Nat) (z : Part) : partHas (g z) f = partHas z f := by rw [partHas, (hg z).1, partHas]
    have hfind := find?_tset (fun e => partHas e.2 f) g hP s.parts q y x hy hx
    have hset : fieldPart (setPart s q (g x)) f = some (q, y) ∨ fieldPart (setPart s q (g x)) f = some (q, g y) := hfind
    rw [programAt, programAt, hy]
    rcases hset with h | h <;> simp [h, hg y]
  next => rfl

theorem partNo_of_programAt {s t : State} {f : Nat} (h : programAt t f = programAt s f) : partNo t f = partNo s f := by
  have hno (u : State) : partNo u f = (programAt u f).map (·.1) := by
    unfold partNo programAt
    cases fieldPart u f <;> rfl
  rw [hno, hno, h]

/-! ### The release from a seam -/

/-- What of a field a release reads and what it starts anew. -/
structure StepView where
  run : Run
  seam : Nat
  lostCause : Option Nat
  arrived : Nat
  failed : List ReplayFail
  taints : List (Nat × Nat)
  droop : Bool
  rowsDue : List (Nat × Nat × Nat)
  linksDue : List (Nat × Nat × Nat)
  backDue : List (Nat × Nat × Nat)
  slotsDue : List Nat
  claims : List Claim

abbrev stepView (x : Field) : StepView :=
  { run := x.run, seam := x.seam, lostCause := x.lostCause, arrived := x.arrived, failed := x.failed, taints := x.taints,
    droop := x.droop, rowsDue := x.rowsDue, linksDue := x.linksDue, backDue := x.backDue, slotsDue := x.slotsDue, claims := x.claims }

@[simp] theorem stepView_slackFigures (s : State) (f c : Nat) :
    fieldView stepView (slackFigures s f c) = fieldView stepView s := by
  unfold slackFigures
  extract_lets x r u
  have hu : fieldView stepView u = fieldView stepView s := by
    simp only [u]
    split <;> simp [x]
  split
  · exact hu
  · extract_lets v
    have hv : fieldView stepView v = fieldView stepView s := by
      simp only [v]
      split
      · exact (fieldView_modPart _ _ _).trans hu
      · exact hu
    split
    · exact (fieldView_modPart _ _ _).trans hv
    · exact hv

theorem programAt_slackFigures (s : State) (f c : Nat) : programAt (slackFigures s f c) f = programAt s f := by
  unfold slackFigures
  extract_lets x r u
  have hu : programAt u f = programAt s f := by
    simp only [u]
    split <;> rfl
  split
  · exact hu
  next p y hp =>
    have hno : partNo u f = some p := by rw [partNo, hp]; rfl
    have hmod (w : State) (g : Part → Part) (hw : programAt w f = programAt u f)
        (hg : ∀ x, partFields (g x) = partFields x ∧ (g x).prog = x.prog ∧ (g x).unloading = x.unloading) :
        programAt (modPart w p g) f = programAt u f :=
      (programAt_modPart w f p g ((partNo_of_programAt hw).trans hno) hg).trans hw
    extract_lets v
    have hv : programAt v f = programAt u f := by
      simp only [v]
      split
      · exact hmod u _ rfl fun _ => ⟨rfl, rfl, rfl⟩
      · rfl
    split
    · refine (hmod v (fun y => { y with slackOut := y.slackOut ++ [x.token] }) hv ?_).trans hu
      exact fun _ => ⟨rfl, rfl, rfl⟩
    · exact hv.trans hu

theorem stepView_chargeSlack (s : State) (f held : Nat) : fieldView stepView (chargeSlack s f held) = fieldView stepView s := by
  simp [chargeSlack]

theorem programAt_chargeSlack (s : State) (f held : Nat) : programAt (chargeSlack s f held) f = programAt s f :=
  (programAt_slackFigures _ f _).trans (programAt_of_parts rfl f)

/-! ### What the actions of a plain seam come to -/

/-- Nothing is due at the seam of a field but the seam itself. -/
structure NothingDue (s : State) (f : Nat) : Prop where
  rows : (fieldOf s f).rowsDue = []
  links : (fieldOf s f).linksDue = []
  back : (fieldOf s f).backDue = []
  slots : (fieldOf s f).slotsDue = []
  claims : (fieldOf s f).claims = []
  border : borderLinks s f = []

theorem NothingDue.of_stepView {s t : State} {f : Nat} (h : NothingDue s f) (hv : fieldView stepView t = fieldView stepView s) :
    NothingDue t f := by
  have hlinks (g : Nat) : (fieldOf t g).linksDue = (fieldOf s g).linksDue :=
    congrArg StepView.linksDue (read_of_fieldView hv g)
  have hf := read_of_fieldView hv f
  simp only [StepView.mk.injEq] at hf
  obtain ⟨-, -, -, -, -, -, -, hrows, hlink, hback, hslots, hclaims⟩ := hf
  refine ⟨hrows.trans h.rows, hlink.trans h.links, hback.trans h.back, hslots.trans h.slots, hclaims.trans h.claims, ?_⟩
  have hb := h.border
  unfold borderLinks at hb ⊢
  simpa only [hlinks] using hb

/-- Order 3: with nothing due, the settlement keeps what a release reads, and the partitions. -/
theorem settle_nothingDue (s : State) (f : Nat) (busy : List Nat) (h : NothingDue s f) :
    fieldView stepView (settleDueBut (settleBorder (deferBusy s f busy) f busy) f busy) = fieldView stepView s ∧
    (settleDueBut (settleBorder (deferBusy s f busy) f busy) f busy).parts = s.parts := by
  have hborder : settleBorder (deferBusy s f busy) f busy = deferBusy s f busy := by
    have hb : borderLinks (deferBusy s f busy) f = [] := h.border
    rw [settleBorder, hb]
    rfl
  have hdue : settleDueBut (deferBusy s f busy) f busy = setField (deferBusy s f busy) f { fieldOf s f with
      rowsDue := [], linksDue := [], backDue := [], slotsDue := [] } := by
    have hx : fieldOf (deferBusy s f busy) f = fieldOf s f := rfl
    simp only [settleDueBut, hx, h.rows, h.links, h.back, h.slots, List.filter_nil, List.foldl_nil]
  rw [hborder, hdue]
  refine ⟨(fieldView_setField f _ ?_).trans rfl, rfl⟩
  change _ = stepView (fieldOf s f)
  simp [h.rows, h.links, h.back, h.slots]

theorem processClaims_nothingDue (s : State) (f : Nat) (h : (fieldOf s f).claims = []) :
    processClaims s f = (modField s f (fun x => { x with claims := [] }), []) := by
  simp only [processClaims, h]
  rfl

@[simp] theorem stepView_emitClockChange (s : State) (f cause new old : Nat) :
    fieldView stepView (emitClockChange s f cause new old) = fieldView stepView s := by
  unfold emitClockChange
  dsimp only
  split <;> simp

@[simp] theorem stepView_queueVcore (s : State) (f mv : Nat) : fieldView stepView (queueVcore s f mv) = fieldView stepView s := rfl

@[simp] theorem stepView_switchClock (s : State) (f new cause : Nat) (c : Option FreqChange) :
    fieldView stepView (switchClock s f new cause c) = fieldView stepView s := by
  simp [switchClock]

@[simp] theorem stepView_startChange (s : State) (f : Nat) : fieldView stepView (startChange s f) = fieldView stepView s := by
  unfold startChange
  dsimp only
  split_ifs <;> simp

@[simp] theorem stepView_clockOrder (s : State) (f : Nat) : fieldView stepView (clockOrder s f) = fieldView stepView s := by
  unfold clockOrder
  extract_lets x top settle c
  split
  · simp
  · split
    · extract_lets back dest u
      split_ifs <;> simp [u]
    · simp

@[simp] theorem stepView_noteDisturbed (s : State) (f held : Nat) (moved : Bool) :
    fieldView stepView (noteDisturbed s f held moved) = fieldView stepView s := by
  unfold noteDisturbed
  extract_lets cross hit
  split
  · exact fieldView_modField f _ rfl
  · rfl

/-- R22 to R24: where nothing is due, orders 3 to 6 keep what a release reads, and the partitions. -/
theorem seamActions_nothingDue (s : State) (f held : Nat) (h : NothingDue s f) (hlost : (fieldOf s f).lostCause = none) :
    fieldView stepView (seamActions s f held []) = fieldView stepView s ∧ (seamActions s f held []).parts = s.parts := by
  unfold seamActions
  extract_lets busy rows u a b v w z
  obtain ⟨hu, hparts⟩ : fieldView stepView u = fieldView stepView s ∧ u.parts = s.parts := settle_nothingDue s f busy h
  have hulost : (fieldOf u f).lostCause = none := (congrArg StepView.lostCause (read_of_fieldView hu f)).trans hlost
  have hclaims : (fieldOf u f).claims = [] := (h.of_stepView hu).claims
  have ha : a = (modField u f (fun x => { x with claims := [] }), []) := processClaims_nothingDue u f hclaims
  have hz : z = modField u f (fun x => { x with claims := [] }) := by
    simp [z, w, v, b, ha, epochSwitch, supersedeSpots]
  rw [hulost, if_neg (by simp), hz]
  refine ⟨?_, ?_⟩
  · rw [stepView_clockOrder, stepView_noteDisturbed]
    refine (fieldView_modField f _ ?_).trans hu
    simp [hclaims]
  · exact (parts_of_erase (s := u) { fields := true, arb := true, arrivals := true } rfl (by simp)).trans hparts

/-! ### The step that begins -/

/-- R160, R198: what ports held leaves the wafer; no field changes. -/
@[simp] theorem fieldView_releasePorts {α : Type} {π : Field → α} (s : State) (f : Nat) (held : List (Nat × Option Nat)) (token : Bool) :
    fieldView π (releasePorts s f held token) = fieldView π s :=
  fieldView_of_exceptFields (by simp [exceptFields])

@[simp] theorem stepView_endToken (s : State) (f : Nat) : fieldView stepView (endToken s f) = fieldView stepView s := by
  unfold endToken
  dsimp only
  refine (fieldView_modField f _ rfl).trans ((fieldView_countField _ f _ fun _ _ => rfl).trans ?_)
  split <;> rfl

@[simp] theorem stepView_noteReleased (s : State) (f : Nat) : fieldView stepView (noteReleased s f) = fieldView stepView s :=
  fieldView_modField f _ rfl

@[simp] theorem stepView_forgetCopies (s : State) (f : Nat) : fieldView stepView (forgetCopies s f) = fieldView stepView s :=
  fieldView_modField f _ rfl

@[simp] theorem fieldView_releaseGuards {α : Type} {π : Field → α} (s : State) (f : Nat) :
    fieldView π (releaseGuards s f) = fieldView π s := rfl

@[simp] theorem fieldView_leaveGroups {α : Type} {π : Field → α} (s : State) (f : Nat) :
    fieldView π (leaveGroups s f) = fieldView π s := rfl

@[simp] theorem fieldView_fieldApplied {α : Type} {π : Field → α} (s : State) (f : Nat) :
    fieldView π (fieldApplied s f) = fieldView π s :=
  fieldView_of_exceptFields (by simp [exceptFields])

@[simp] theorem stepView_armInjection (s : State) (f : Nat) : fieldView stepView (armInjection s f) = fieldView stepView s := by
  unfold armInjection
  dsimp only
  split
  · rfl
  · split
    · exact fieldView_setField f _ rfl
    · exact (fieldView_of_fields rfl).trans (fieldView_setField (s := s) f _ rfl)

@[simp] theorem stepView_applySettings (s : State) (f : Nat) : fieldView stepView (applySettings s f) = fieldView stepView s := by
  unfold applySettings
  dsimp only
  split <;> simp

@[simp] theorem stepView_drawSpots (s : State) (f : Nat) : fieldView stepView (drawSpots s f) = fieldView stepView s := by
  unfold drawSpots
  extract_lets x hit
  split
  · exact fieldView_setField f _ rfl
  · exact (fieldView_countField _ f _ fun _ _ => rfl).trans (fieldView_setField f _ rfl)

@[simp] theorem stepView_openWindow (s : State) (f : Nat) : fieldView stepView (openWindow s f) = fieldView stepView s := by
  have hseg (u : State) (e : Nat × BenchSlot) : fieldView stepView (startSegment u f e) = fieldView stepView u := by
    simp [startSegment]
  unfold openWindow
  extract_lets r ready u
  have hu : fieldView stepView u = fieldView stepView s := fieldView_modField f _ rfl
  split
  · exact (fieldView_foldl _ hseg ready u).trans hu
  · exact hu

/-- R22, R23, R105: the field is past its seam, and its next step has no arrivals and no failures. -/
theorem fieldOf_startStep (s : State) (f heldCycles : Nat) (held : List (Nat × Option Nat)) :
    let x := fieldOf (startStep s f heldCycles held) f
    x.seam = (fieldOf s f).seam + 1 ∧ x.run = (if (fieldOf s f).seam + 1 = (fieldSeams s f).length then .held else .running) ∧
    x.arrived = 0 ∧ x.failed = [] ∧ x.taints = [] ∧ x.droop = false := by
  intro x
  simp only [x]
  unfold startStep
  extract_lets window last token a b c d e g h
  have hd : fieldView stepView d = fieldView stepView s := by
    simp only [d, c, b, a]
    split <;> simp
  have hend : fieldView stepView (if window = true then openWindow h f else h) = fieldView stepView e := by
    simp only [h, g]
    split_ifs <;> simp
  have hseam : (fieldOf d f).seam = (fieldOf s f).seam := congrArg StepView.seam (read_of_fieldView hd f)
  have he := read_of_fieldView hend f
  simp only [e, fieldOf_modField, StepView.mk.injEq, hseam] at he
  obtain ⟨hrun, hnext, -, harrived, hfailed, htaints, hdroop, -⟩ := he
  refine ⟨hnext, ?_, harrived, hfailed, htaints, hdroop⟩
  rw [hrun]
  simp only [last, decide_eq_true_eq]

/-! ### The row of the release -/

theorem nothingDue_of_plainSeam {s : State} {f : Nat} (h : plainSeam s f) : NothingDue s f := by
  obtain ⟨-, -, hrows, hborder, hlinks, hback, hslots, hclaims, -⟩ := h
  exact ⟨hrows, hlinks, hback, hslots, hclaims, hborder⟩

theorem lostCause_of_mayRelease {s : State} {f held : Nat} (h : mayRelease s f held = true) : (fieldOf s f).lostCause = none := by
  simp only [mayRelease, Bool.and_eq_true, Option.isNone_iff_eq_none] at h
  tauto

theorem applyExcess_plain {s : State} {f : Nat} (h : plainSeam s f) : applyExcess s f = s := by
  obtain ⟨hlost, hdue, -⟩ := h
  simp [applyExcess, hlost, hdue]

theorem swapsDue_plain {s : State} {f : Nat} (h : plainSeam s f) : swapsDue s f = [] := by
  obtain ⟨-, -, -, -, -, -, -, -, hbench⟩ := h
  simp [swapsDue, hbench]

/-- What the hold is charged and counts, and what orders 3 to 6 then come to, at a seam at which nothing is due. -/
def settledSeam (s : State) (f held : Nat) : State :=
  let u := chargeSlack s f held
  let left := held - (fieldOf u f).cut
  seamActions (countField u f (fun c => { c with
    hold := wrap48 (c.hold + left), idleHold := wrap48 (c.idleHold + min (idleCycles s f) left) })) f held []

theorem settledSeam_keeps (s : State) (f held : Nat) (h : NothingDue s f) (hlost : (fieldOf s f).lostCause = none) :
    fieldView stepView (settledSeam s f held) = fieldView stepView s ∧ programAt (settledSeam s f held) f = programAt s f := by
  unfold settledSeam
  extract_lets u left
  have hu : fieldView stepView u = fieldView stepView s := stepView_chargeSlack s f held
  generalize hv : countField u f _ = v
  have hview : fieldView stepView v = fieldView stepView s := by
    rw [← hv, fieldView_countField u f _ fun _ _ => rfl, hu]
  have hparts : v.parts = u.parts := by
    rw [← hv]
    exact parts_of_erase { fields := true } rfl (by simp)
  have hvlost : (fieldOf v f).lostCause = none := (congrArg StepView.lostCause (read_of_fieldView hview f)).trans hlost
  obtain ⟨hview', hparts'⟩ := seamActions_nothingDue v f held (h.of_stepView hview) hvlost
  exact ⟨hview'.trans hview, (programAt_of_parts (hparts'.trans hparts) f).trans (programAt_chargeSlack s f held)⟩

theorem fieldRelease_next (s : State) (f held p : Nat) (y : Part) (hf : f < 84) (hmay : mayRelease s f held = true)
    (hplain : plainSeam s f) (hp : fieldPart s f = some (p, y)) (hy : y.unloading = none) :
    exec (.fieldRelease f held) s = .next (startStep (settledSeam s f held) f held (heldPorts s f)) := by
  have hf' : ¬ 84 ≤ f := by omega
  have hlost := lostCause_of_mayRelease hmay
  obtain ⟨hview, hprog⟩ := settledSeam_keeps s f held (nothingDue_of_plainSeam hplain) hlost
  have hlost' : (fieldOf (settledSeam s f held) f).lostCause = none :=
    (congrArg StepView.lostCause (read_of_fieldView hview f)).trans hlost
  obtain ⟨z, hz, hzun⟩ : ∃ z, fieldPart (settledSeam s f held) f = some (p, z) ∧ z.unloading = none := by
    have h2 : programAt s f = some (p, y.prog, none) := by rw [programAt, hp, ← hy]; rfl
    obtain ⟨⟨q, z⟩, hz, he⟩ := Option.map_eq_some_iff.mp (hprog.trans h2)
    simp only [Prod.mk.injEq] at he
    obtain ⟨rfl, -, hun⟩ := he
    exact ⟨z, hz, hun⟩
  rw [exec, execFieldRelease, if_neg hf', hmay, whenOk_true]
  dsimp only [settledSeam] at hlost' hz ⊢
  rw [applyExcess_plain hplain, swapsDue_plain hplain, hlost, hlost', hz]
  simp only [hzun, Option.isSome_none, Bool.false_eq_true, if_false]

theorem seamRelease : Says.SeamRelease := by
  intro s f held p y hf hmay hplain hp hy
  obtain ⟨hview, hprog⟩ := settledSeam_keeps s f held (nothingDue_of_plainSeam hplain) (lostCause_of_mayRelease hmay)
  obtain ⟨hnext, hrun, hrest⟩ := fieldOf_startStep (settledSeam s f held) f held (heldPorts s f)
  have hseam : (fieldOf (settledSeam s f held) f).seam = (fieldOf s f).seam :=
    congrArg StepView.seam (read_of_fieldView hview f)
  rw [hseam] at hnext hrun
  rw [fieldSeams_of_programAt hprog] at hrun
  exact ⟨_, fieldRelease_next s f held p y hf hmay hplain hp hy, hnext, hrun, hrest⟩

/-- Settles O48: what happens at an arrival leaves how the field stands; what a release settles first leaves seam and program.
That a field stays held at the last seam of its program is the model's choice (log entry 90). -/
theorem seamArrivalAndRelease : Obligations.SeamArrivalAndRelease :=
  ⟨seamArrival, seamRelease⟩

end Sys2Proof.Machine
end

section
/-! SUPPORT. What a frame says of further parts of State, and the status bits of the tray (R45, R48, R49). -/

namespace Sys2Proof.Machine

/-! ### Parts that an operation leaves alone -/

section
variable (κ : Mask) {s t : State}

theorem out_of_erase (hκ : κ.out = false) (h : erase κ t = erase κ s) : t.out = s.out := by
  simpa [erase, hκ] using congrArg State.out h

theorem svc_of_erase (hκ : κ.svc = false) (h : erase κ t = erase κ s) : t.svc = s.svc := by
  simpa [erase, hκ] using congrArg State.svc h

theorem lanes_of_erase (hκ : κ.lanes = false) (h : erase κ t = erase κ s) : t.lanes = s.lanes := by
  simpa [erase, hκ] using congrArg State.lanes h

/-- The arbiter, where the frame lists neither it nor its cap. -/
theorem arb_of_erase (hκ : κ.arb = false) (hcap : κ.cap = false) (h : erase κ t = erase κ s) : t.arb = s.arb := by
  have he := congrArg State.arb h
  simp only [erase, eraseArb, hκ, hcap, Bool.false_eq_true, if_false] at he
  exact he

end

/-! ### STATUS -/

theorem getLsbD_bitMask {b : Nat} (hb : b < 16) : (bitMask b).getLsbD b = true := by
  rw [bitMask, BitVec.getLsbD_shiftLeft]
  simp [hb]

/-- A bit of STATUS that rises is set; beside STATUS only an interrupt goes out. -/
theorem raiseBit_eq (s : State) (b : Nat) (hb : b < 16) : ∃ st o, raiseBit s b =
    { s with tray := { s.tray with status := st }, out := o } ∧ st.getLsbD b = true := by
  unfold raiseBit raiseStatus
  extract_lets new st u
  have hst : st.getLsbD b = true := by simp [st, BitVec.getLsbD_or, getLsbD_bitMask hb]
  split
  · exact ⟨st, _, rfl, hst⟩
  · exact ⟨st, _, rfl, hst⟩

theorem tsBit_clearBit (s : State) (b : Nat) (hb : b < 16) : tsBit (clearBit s b) b = false := by
  simp [tsBit, clearBit, clearStatus, BitVec.getLsbD_and, BitVec.getLsbD_not, getLsbD_bitMask hb]

end Sys2Proof.Machine
end

section
/-! SUPPORT. Output readback and pin faults (R41 to R45). -/

namespace Sys2Proof.Machine

@[simp] theorem pinOf_setPin (s : State) (p : PinId) (x : Pin) : pinOf (setPin s p x) p = x := by
  simp [pinOf, setPin]

/-- R43: the pin is in fault and PIN_FAULT set. -/
theorem declarePinFault_sets (s : State) (p : PinId) (driven high : Bool) :
    (pinOf (declarePinFault s p driven high) p).fault = true ∧ tsBit (declarePinFault s p driven high) tsPinFault = true ∧
      (declarePinFault s p driven high).panel = s.panel := by
  obtain ⟨st, o, hu, hst⟩ :=
    raiseBit_eq (emitPinFault (setPin s p { confirm := 0, fault := true, retries := 0 }) p driven high 0 0) tsPinFault (by decide)
  rw [declarePinFault, hu]
  refine ⟨?_, hst, rfl⟩
  exact congrArg Pin.fault (pinOf_setPin s p _)

/-- PIN_FAULT may fall with the last pin in fault; the pins stay. -/
theorem pinOf_settlePinFault (s : State) (p : PinId) : pinOf (settlePinFault s) p = pinOf s p := by
  unfold settlePinFault
  split <;> rfl

/-- Settles O27: a sample and a retry that agree or disagree, and the button's input. A released open-drain output disagrees with no
sample (log entry 36). -/
theorem pinRows : Obligations.PinRows := by
  intro s p high hc hp
  have hout : (p != .attnBtn) = true := by simpa using hp
  refine ⟨fun hf hd => ?_, fun hf hd hn => ?_, fun hf hd hn => ?_, fun hf hd => ?_, fun hf hd => ?_, fun hf hh => ?_, fun hf => ?_⟩
  · simp [exec, execPinReadbackSample, hc, hout, hf, hd]
  · simp [exec, execPinReadbackSample, hc, hout, hf, hd, hn]
  · obtain ⟨hfault, hbit, -⟩ := declarePinFault_sets s p ((drivenLevel s p).getD false) high
    exact ⟨_, by simp [exec, execPinReadbackSample, hc, hout, hf, hd, hn], hfault, hbit⟩
  · refine ⟨_, by simp [exec, execPinRetry, hc, hout, hf, hd]; rfl, ?_⟩
    rw [pinOf_settlePinFault]
    exact congrArg Pin.fault (pinOf_setPin s p _)
  · simp [exec, execPinRetry, hc, hout, hf, hd]
  · have hdown : (s.panel.pressed || s.panel.ignored) = true := by simpa using hh
    obtain ⟨hfault, -, hpanel⟩ := declarePinFault_sets
      { s with panel := { s.panel with pressed := false, ignored := false, hold4 := false, hold10 := false } } .attnBtn true false
    exact ⟨_, by rw [exec, execAttnStuck, whenOk, if_pos (by simp [hc, hf, hdown])], hfault, by rw [hpanel]⟩
  · refine ⟨_, by simp [exec, execAttnFaultRecover, hc, hf]; rfl, ?_⟩
    rw [pinOf_settlePinFault, pinOf_setPin]

end Sys2Proof.Machine
end

section
/-! SUPPORT. The SMBus target and power cycles (R46 to R51, R307 to R309). -/

namespace Sys2Proof.Machine

/-- R46: what a write to the target does where it has its clock. -/
theorem smbWrite_eq {s : State} (hfeed : s.feed = true) (hlive : s.tray.smbDead = false) (pecOk : Bool) (t : State) :
    smbWrite s pecOk t = .next (if pecOk then t else s) := by
  simp [smbWrite, hfeed, hlive]

theorem startQuiesce_eq {s : State} (h : s.hang.quiesce = 0) : startQuiesce s =
    { s with hang := { s.hang with quiesce := 1, quiesceAt := s.now }, fe := { s.fe with bgQuiesce := true } } := by
  simp [startQuiesce, h]

theorem smbusRows : Says.SmbusRows := by
  intro s hfeed hlive
  refine ⟨fun d => ?_, fun hfw hq => ?_, ?_, ?_, fun d hd => ?_, fun d h1 h0 => ?_, fun d16 d => ⟨?_, ?_, ?_⟩, fun ha => ?_, ?_, ?_⟩
  · exact smbWrite_eq hfeed hlive true _
  · rw [exec, execSmbQuiesce, smbWrite_eq hfeed hlive, if_pos rfl, if_pos ⟨rfl, hfw⟩, startQuiesce_eq hq]
  · exact smbWrite_eq hfeed hlive true _
  · exact smbWrite_eq hfeed hlive true _
  · rw [exec, execSmbQuiesce, smbWrite_eq hfeed hlive, if_pos rfl, if_neg fun h => hd h.1]
  · rw [exec, execSmbLocate, smbWrite_eq hfeed hlive, if_pos rfl, if_neg h1, if_neg h0]
  · exact smbWrite_eq hfeed hlive false _
  · exact smbWrite_eq hfeed hlive false _
  · exact smbWrite_eq hfeed hlive false _
  · simp [exec, execAlertResponse, hfeed, hlive, ha, clearBit, clearStatus]
  · simp [exec, execAlertResponse, hfeed]
  · simp [exec, execSmbClockTimeout, hfeed]

/-- What a request for CYCLE stores before CYCLE_REQ rises: the reason, the line and no reset. -/
def cycleAsked (s : State) (reason : Nat) : State :=
  let u := commitAll (emit s evCycleReq [reason])
  { u with tray := { u.tray with cycleReason := reason, pwrcycLow := true },
           hang := { u.hang with cycleWant := none, cycleReq := true, running := [], requests := [] } }

theorem writeSnapshot_eq (s : State) : ∃ nor, writeSnapshot s = { s with nor := nor } := by
  unfold writeSnapshot
  split
  · exact ⟨_, rfl⟩
  · exact ⟨_, rfl⟩

theorem cycleRequest_next {s : State} {r : Nat} (hc : clocked s = true) (h : s.hang.cycleWant = some r) :
    exec .cycleRequest s = .next (raiseBit (writeSnapshot (cycleAsked s r)) tsCycleReq) := by
  rw [exec, execCycleRequest, h]
  dsimp only
  rw [hc, whenOk_true]
  rfl

theorem cycleRows : Says.CycleRows := by
  intro s hc
  refine ⟨fun r hr => ?_, fun hlow => ?_⟩
  · obtain ⟨st, o, hu, hst⟩ := raiseBit_eq (writeSnapshot (cycleAsked s r)) tsCycleReq (by decide)
    obtain ⟨nor, hsnap⟩ := writeSnapshot_eq (cycleAsked s r)
    refine ⟨_, cycleRequest_next hc hr, ?_⟩
    rw [hu, hsnap]
    exact ⟨rfl, rfl, hst, rfl, rfl, rfl, rfl⟩
  · refine ⟨_, by rw [exec, execPwrcycTimeout, whenOk, if_pos (by simp [hc, hlow])], ?_⟩
    refine ⟨rfl, ?_, rfl⟩
    exact tsBit_clearBit { s with tray := { s.tray with pwrcycLow := false } } tsCycleReq (by decide)

/-- Settles O30: the writes of the target by `smbWrite`, a request for CYCLE by what it stores. That CYCLE ends the running and the
waiting resets (log entry 52) and what a clock timeout resets (log entry 170) are the model's choice. -/
theorem trayRows : Obligations.TrayRows := ⟨smbusRows, cycleRows⟩

end Sys2Proof.Machine
end

section
/-! SUPPORT. The attention button and the alarm sources (R63, R460 to R462, R467 to R469). -/

namespace Sys2Proof.Machine

theorem wantCycle_eq {s : State} (hlow : s.tray.pwrcycLow = false) (h : s.hang.cycleWant = none) (r : Nat) :
    wantCycle s r = { s with hang := { s.hang with cycleWant := some r } } := by
  simp [wantCycle, hlow, h]

theorem panelRows : Says.PanelRows := by
  intro s hc
  refine ⟨fun hp hi hf => ?_, fun hp h4 => ?_, fun hp h4 hfw hq => ?_, fun hp h4 h10 hfw ha hlow hw => ?_, fun hp => ?_, fun hb => ?_⟩
  · simp [exec, execButtonPress, hc, hp, hi, hf]
  · simp [exec, execButtonShortRelease, hc, hp, h4]
  · simp [exec, execButtonHold4s, hc, hp, h4, hfw, startQuiesce_eq, hq]
  · simp [exec, execButtonHold10s, hc, hp, h4, h10, hfw, ha, wantCycle_eq, hlow, hw]
  · simp [exec, execButtonLongRelease, hc, hp]
  · simp [exec, execHeldActionBlinkEnd, hc, hb]

/-- The Armoire once an alarm source that was not active is (R460, R461). -/
def alarmedArm (a : Armoire) (src : Nat) : Armoire :=
  let act := a.actions.getD src 0
  { a with
    active := a.active + 2 ^ src
    locked := if 1 ≤ act then a.locked + 2 ^ src else a.locked
    highest := if a.active = 0 then act else max a.highest act
    tenantKeys := if 2 ≤ act then [] else a.tenantKeys
    admin := if 3 ≤ act then none else a.admin
    identity := if 3 ≤ act then none else a.identity }

/-- R460, R461: a source that is not active becomes active, with ALARM from action 1 on. -/
theorem raiseAlarm_raises (s : State) (src : Nat) (h : bitAt s.arm.active src = false) :
    (raiseAlarm s src).arm = alarmedArm s.arm src ∧ (raiseAlarm s src).panel = s.panel ∧
      (1 ≤ s.arm.actions.getD src 0 → tsBit (raiseAlarm s src) tsAlarm = true) := by
  obtain ⟨st, o, hu, hst⟩ :=
    raiseBit_eq (emit { s with arm := alarmedArm s.arm src } evAlarm [src, s.arm.actions.getD src 0]) tsAlarm (by decide)
  have heq : raiseAlarm s src = if 1 ≤ s.arm.actions.getD src 0
      then raiseBit (emit { s with arm := alarmedArm s.arm src } evAlarm [src, s.arm.actions.getD src 0]) tsAlarm
      else emit { s with arm := alarmedArm s.arm src } evAlarm [src, s.arm.actions.getD src 0] := by
    rw [raiseAlarm, h]
    rfl
  rw [heq]
  split
  next => rw [hu]; exact ⟨rfl, rfl, fun _ => hst⟩
  next hact => exact ⟨rfl, rfl, fun h1 => absurd h1 hact⟩

theorem alarmSources : Says.AlarmSources := by
  intro s hfeed
  refine ⟨fun hc hlid hact => ?_, fun hc hlid => ?_, fun hact => ?_, fun hact => ?_⟩
  · obtain ⟨harm, hpanel, hbit⟩ := raiseAlarm_raises { s with panel := { s.panel with lidOpen := true } } 0 hact
    refine ⟨_, by simp [exec, execLidChange, hc, hlid]; rfl, ?_⟩
    rw [harm, hpanel]
    refine ⟨rfl, rfl, fun h1 => ⟨hbit h1, if_pos h1⟩, fun h2 => if_pos h2, fun h3 => ⟨if_pos h3, if_pos h3⟩⟩
  · simp [exec, execLidChange, hc, hlid]
  · obtain ⟨harm, -, -⟩ := raiseAlarm_raises { s with arm := { s.arm with feedGlitch := some s.now } } 2 hact
    exact ⟨_, by rw [exec, execSupplyGlitch, whenOk, if_pos hfeed], congrArg Armoire.active harm⟩
  · obtain ⟨harm, -, -⟩ := raiseAlarm_raises { s with arm := { s.arm with clockGlitch := some s.now } } 3 hact
    exact ⟨_, by rw [exec, execClockGlitch, whenOk, if_pos hfeed], congrArg Armoire.active harm⟩

/-- Settles O28: each row of the button, and what an alarm source raises. -/
theorem panelAndAlarms : Obligations.PanelAndAlarms := ⟨panelRows, alarmSources⟩

end Sys2Proof.Machine
end

section
/-! SUPPORT. The service port and its console (R60 to R62, R463 to R466). -/

namespace Sys2Proof.Machine

theorem authRefused_none {s : State} (h : s.svc.wrongTime = none) : authRefused s = false := by
  rw [authRefused, h]

theorem freeVal_lt (s : State) (n : Nat) (hn : 0 < n) : freeVal s n < n := by
  rw [freeVal, Nat.max_eq_left hn]
  exact Nat.mod_lt _ hn

theorem svc_authFailed (s : State) : (authFailed s).svc = s.svc :=
  svc_of_erase { arm := true, out := true, status := true, arrivals := true } rfl (by simp)

/-- R463: what a response within 60 s that the service key verifies leaves. -/
def sessionOpened (s : State) (role : Nat) : State :=
  emit { s with svc := { s.svc with challenge := none, role := some role }, arm := { s.arm with fails := 0 } } evSvcStart [role]

/-- R463: what any other response leaves. -/
def responseFailed (s : State) : State :=
  authFailed (emit { s with svc := { s.svc with challenge := none, wrongTime := some s.now } } evAuthFail [])

/-- R463: a response to the challenge, within its 60 s, is judged. -/
theorem consoleAuth_judges {s : State} {ch r sg role : Nat} (hc : clocked s = true) (hv : s.svc.vbus = true)
    (hw : s.svc.wrongTime = none) (hch : s.svc.challenge = some ch) (hin : s.now ≤ s.svc.challengeTime + 60000000000) :
    exec (.consoleAuth (some (r, sg, role))) s = .next
      (if (decide (role < 2) && Config.ecdsaVerify s.arm.svcKey (challengeText s ch role) (r, sg)) = true then sessionOpened s role
       else responseFailed s) := by
  rw [exec, execConsoleAuth, if_neg (by simp [hc, hv]), if_neg (by simp [authRefused_none hw])]
  dsimp only
  rw [hch]
  dsimp only
  rw [if_neg (Nat.not_lt.mpr hin), apply_ite Host.Outcome.next]
  rfl

theorem serviceSession : Says.ServiceSession := by
  intro s hc
  refine ⟨fun hserved hv hhub => ?_, fun hv why => ?_, fun hv hw => ?_, fun ch r sg role hv hw hch hin good hgood => ?_,
    fun at_ hv hw hin r => ?_⟩
  · simp [exec, execUsbConnect, hc, hserved, hv, hhub, drive]
  · exact ⟨_, by rw [exec, execSvcSessionEnd, whenOk, if_pos (by simp [hc, hv])], rfl, rfl⟩
  · refine ⟨_, _, by simp [exec, execConsoleAuth, hc, hv, authRefused_none hw]; rfl, rfl, ?_, rfl, rfl⟩
    exact freeVal_lt s _ (by decide)
  · rw [consoleAuth_judges hc hv hw hch hin, ← hgood]
    refine ⟨fun hg => ?_, fun hg => ?_⟩
    · exact ⟨_, by rw [if_pos hg], rfl, rfl, rfl⟩
    · refine ⟨_, by rw [if_neg (by simp [hg])], ?_⟩
      rw [responseFailed, svc_authFailed]
      exact ⟨rfl, rfl, rfl⟩
  · have href : authRefused s = true := by simp [authRefused, hw, hin]
    simp [exec, execConsoleAuth, hc, hv, href, consoleRefuse, drive]

/-- A console command that the session may run has its effect. -/
theorem consoleRun_eq {s : State} {role : Nat} {rom : Bool} (hc : clocked s = true) (hv : s.svc.vbus = true)
    (h : consoleMay s role rom = true) (t : State) : consoleRun s role rom t = .next t := by
  simp [consoleRun, hc, hv, h]

theorem consoleRun_refused {s : State} {role : Nat} {rom : Bool} (hc : clocked s = true) (hv : s.svc.vbus = true)
    (h : consoleMay s role rom = false) (t : State) : consoleRun s role rom t = .next (consoleRefuse s) := by
  simp [consoleRun, hc, hv, h]

/-- R464, R465: what an observer may ask for; the dumps and rings are not offered by the hub ROM. -/
theorem observerRows (s : State) (hc : clocked s = true) (hv : s.svc.vbus = true) :
    (consoleMay s 0 true = true →
      (∃ l, exec .consoleStatus s = .next { s with out := .console l :: s.out } ∧
        l.take 3 = [waferStage s, s.tray.status.toNat, s.arm.active]) ∧
      (∀ n, ∃ l, exec (.consoleLog n) s = .next { s with out := .console l :: s.out })) ∧
    (consoleMay s 0 false = true →
      (∀ b w, ∃ l, exec (.consoleRing b w) s = .next { s with out := .console l :: s.out }) ∧
      (∀ k d, tfind s.nor.dumps k = some d → s.cab.failed = false →
        exec (.consoleDump k) s = .next { s with out := .ep3 (bytesOf (dumpStream k d)) :: s.out })) := by
  refine ⟨fun h => ⟨⟨_, consoleRun_eq hc hv h _, rfl⟩, fun n => ⟨_, consoleRun_eq hc hv h _⟩⟩,
    fun h => ⟨fun b w => ⟨_, consoleRun_eq hc hv h _⟩, fun k d hd hf => ?_⟩⟩
  rw [exec, execConsoleDump, consoleRun_eq hc hv h, hd]
  simp [hf, drive]

theorem consoleRows : Says.ConsoleRows := by
  intro s hc hv
  obtain ⟨hrom, hobserver⟩ := observerRows s hc hv
  refine ⟨hrom, hobserver, fun h => ?_, fun h b => ?_⟩
  · have hrun := fun t => consoleRun_eq hc hv h t
    refine ⟨fun b => hrun _, fun a b ha hb => ?_, fun d hp hd hf => ?_, fun b => ?_, fun hi => ?_, fun k cert hi hk => ?_,
      fun nk sg => hrun _, fun m => ⟨_, hrun _, rfl⟩⟩
    · rw [exec, execConsoleAlarmPolicy, if_neg (by omega), hrun]
    · rw [exec, execConsoleBoard, hrun, if_neg (by simp [hp, hf, hd])]
    · refine ⟨_, hrun _, ?_⟩
      cases unwrapBlob s 0 b with
      | none => rfl
      | some k => rfl
    · refine ⟨_, freeVal s (2 ^ 256), by rw [exec, execConsoleIdentity, hrun, if_neg (by simp [hi])], ?_⟩
      exact ⟨rfl, freeVal_lt s _ (by decide)⟩
    · rw [exec, execConsoleIdentity, hrun, hk]
      simp [hi]
  · exact consoleRun_refused hc hv h _

/-- Settles O29: the session by the branches of CONSOLE_AUTH, the commands by `consoleRun`. That a new identity key is the device's key
only with its certificate is the model's choice (log entry 33). -/
theorem servicePortRows : Obligations.ServicePortRows := ⟨serviceSession, consoleRows⟩

end Sys2Proof.Machine
end

section
/-! SUPPORT. Timing lanes (R67, R68, R402 to R404, R407). -/

namespace Sys2Proof.Machine

theorem laneOf_of_lanes {s t : State} (h : t.lanes = s.lanes) (l : Nat) : laneOf t l = laneOf s l := by
  rw [laneOf, laneOf, h]

theorem laneOf_modLane_other (s : State) (l k : Nat) (g : Lane → Lane) (h : k ≠ l) : laneOf (modLane s l g) k = laneOf s k := by
  simp [laneOf, modLane, tget_tset_other _ _ _ _ _ h]

@[simp] theorem laneOf_sendFrame (s : State) (l typ n payload k : Nat) : laneOf (sendFrame s l typ n payload) k = laneOf s k := rfl

/-- The records of a lane leave every lane. -/
theorem laneOf_emitLane (s : State) (l : Nat) (restored : Bool) (k : Nat) : laneOf (emitLane s l restored) k = laneOf s k :=
  laneOf_of_lanes (lanes_of_erase { arrivals := true } rfl (by simp)) k

/-- R403: the judgement of a lane leaves its rounds. -/
theorem rounds_judgeLane (s : State) (l : Nat) : (laneOf (judgeLane s l) l).rounds = (laneOf s l).rounds := by
  unfold judgeLane
  split
  · rfl
  · extract_lets m x d off
    split
    · rfl
    · rw [laneOf_emitLane, laneOf_modLane]

section
variable {s : State} {l : Nat} (hl : l < 64) (hc : clocked s = true)
include hl hc

/-- R67, R402: what a PROBE leaves and sends. -/
theorem probeSend_next (hm : measures s l = true) : exec (.probeSend l) s = .next (sendFrame (modLane s l (fun x =>
    { x with seqNo := ((laneOf s l).seqNo + 1) % 16,
             sent := (((laneOf s l).seqNo, s.now) :: x.sent.filter (fun e => e.1 != (laneOf s l).seqNo)).take 16 }))
    l 1 (laneOf s l).seqNo (low40 s.now)) := by
  rw [exec, execProbeSend, if_neg (Nat.not_le.mpr hl), hc, hm, Bool.and_self, whenOk_true]
  rfl

theorem probeReceive_next {n p : Nat} (half : Bool) (hm : measures s l = true) (hn : n < 16) (hp : p < 2 ^ 40) :
    exec (.probeReceive l n p half) s = .next (sendFrame (modLane s l (fun x =>
      { x with peerProbe := some (n, p, 2 * s.now + bit01 half) })) l 2 n (low40 s.now)) := by
  rw [exec, execProbeReceive, if_neg (by omega), hc, hm, Bool.and_self, whenOk_true]

/-- R402, R403: an ECHO that answers a PROBE of this side, with the peer's last PROBE, makes a round of a lane in sync. -/
theorem echoReceive_round {n p k t1 m t3 t4 : Nat} (hn : n < 16) (hp : p < 2 ^ 40)
    (hsent : (laneOf s l).sent.find? (fun e => e.1 == n) = some (k, t1)) (hpeer : (laneOf s l).peerProbe = some (m, t3, t4))
    (hsync : (laneOf s l).sync = true) : ∃ t, exec (.echoReceive l n p) s = .next t ∧
      (laneOf t l).rounds = (((s.now : Int), roundOffset t1 p t3 t4) :: (laneOf s l).rounds).take 1024 := by
  rw [exec, execEchoReceive, if_neg (by omega)]
  dsimp only
  rw [if_neg (by simp [hc]), hsent, hpeer]
  dsimp only
  rw [if_neg (by simp [hsync])]
  refine ⟨_, rfl, ?_⟩
  rw [rounds_judgeLane, laneOf_modLane, laneOf_modLane]
  rfl

theorem echoReceive_stray {n p : Nat} (hn : n < 16) (hp : p < 2 ^ 40)
    (hsent : (laneOf s l).sent.find? (fun e => e.1 == n) = none) : exec (.echoReceive l n p) s = .next s := by
  rw [exec, execEchoReceive, if_neg (by omega)]
  dsimp only
  rw [if_neg (by simp [hc]), hsent]

theorem laneSyncLoss_next (hsync : (laneOf s l).sync = true) :
    exec (.laneSyncLoss l) s = .next (emitLane (modLane s l (fun x => { x with sync := false })) l false) := by
  rw [exec, execLaneSyncLoss, if_neg (Nat.not_le.mpr hl), hc, hsync, Bool.and_self, whenOk_true]

theorem laneSyncRegain_next (hsync : (laneOf s l).sync = false) :
    exec (.laneSyncRegain l) s = .next (emitLane (modLane s l (fun x => { x with sync := true })) l true) := by
  rw [exec, execLaneSyncRegain, if_neg (Nat.not_le.mpr hl), hc, hsync, Bool.not_false, Bool.and_self, whenOk_true]

theorem laneFrameCrcDiscard_next {cs : List Byte} (hlen : cs.length = 7)
    (hcrc : crc8 (cs.take 6) ≠ ((cs.drop 6).headD 0).toNat) : exec (.laneFrameCrcDiscard l cs) s =
      .next (modLane s l (fun x => { x with crcBad := sat32 (x.crcBad + 1) })) := by
  rw [exec, execLaneFrameCrcDiscard, if_neg (by omega), hc, decide_eq_true hcrc, Bool.and_self, whenOk_true]

end

theorem laneRows : Says.LaneRows := by
  intro s l hl hc
  refine ⟨fun hm => ?_, fun n p half hm hn hp => ?_, fun n p k t1 m t3 t4 hn hp hsent hpeer hsync => ?_,
    fun n p hn hp hsent => ?_, fun hs => ?_, fun hs => ?_, fun cs hlen hcrc => ?_⟩
  · refine ⟨_, probeSend_next hl hc hm, rfl, ?_, ?_⟩
    · rw [laneOf_sendFrame, laneOf_modLane]
    · rw [laneOf_sendFrame, laneOf_modLane]
      rfl
  · refine ⟨_, probeReceive_next hl hc half hm hn hp, rfl, ?_⟩
    rw [laneOf_sendFrame, laneOf_modLane]
  · exact echoReceive_round hl hc hn hp hsent hpeer hsync
  · exact echoReceive_stray hl hc hn hp hsent
  · refine ⟨_, laneSyncLoss_next hl hc hs, ?_, fun k hk => ?_⟩
    · rw [laneOf_emitLane, laneOf_modLane]
    · rw [laneOf_emitLane, laneOf_modLane_other _ _ _ _ hk]
  · refine ⟨_, laneSyncRegain_next hl hc hs, ?_, fun k hk => ?_⟩
    · rw [laneOf_emitLane, laneOf_modLane]
    · rw [laneOf_emitLane, laneOf_modLane_other _ _ _ _ hk]
  · refine ⟨_, laneFrameCrcDiscard_next hl hc hlen hcrc, ?_, ?_, rfl⟩
    · rw [laneOf_modLane]
    · rw [laneOf_modLane]

end Sys2Proof.Machine
end

section
/-! SUPPORT. TIME_ALIGN and its tree (R402, R405, R407). -/

namespace Sys2Proof.Machine

/-! ### The parent -/

/-- A choice that each element either takes or leaves ends with an element of the list, or where it began. -/
theorem foldl_choice {α : Type} (f : Option α → α → Option α) (hf : ∀ b p, f b p = some p ∨ f b p = b) (l : List α) (b : Option α)
    (r : α) (h : l.foldl f b = some r) : b = some r ∨ r ∈ l := by
  induction l generalizing b with
  | nil => exact .inl h
  | cons p l ih =>
    rcases ih (f b p) h with hb | hm
    · rcases hf b p with hp | hp
      · exact .inr (by simp [Option.some.inj (hp.symm.trans hb)])
      · exact .inl (hp.symm.trans hb)
    · exact .inr (List.mem_cons_of_mem p hm)

/-- R405: the parent is one of the neighbours that may be it. -/
theorem mem_of_bestParent {s : State} {t : Tree} {ps : List PeerInfo} {r : PeerInfo} (h : bestParent s t ps = some r) : r ∈ ps := by
  unfold bestParent at h
  refine (foldl_choice _ (fun b p => ?_) ps none r h).resolve_left (by simp)
  cases b with
  | none => exact .inl rfl
  | some r => dsimp only; split; exacts [.inl rfl, .inr rfl]

/-- R405: where a neighbour may be the parent, one is. -/
theorem bestParent_of_mem {s : State} {t : Tree} {ps : List PeerInfo} {p : PeerInfo} (h : p ∈ ps) : ∃ r, bestParent s t ps = some r := by
  obtain rfl | ⟨init, q, rfl⟩ := List.eq_nil_or_concat ps
  · simp at h
  · unfold bestParent
    rw [List.concat_eq_append, List.foldl_append, List.foldl_cons, List.foldl_nil]
    split
    · exact ⟨_, rfl⟩
    · split <;> exact ⟨_, rfl⟩

/-- The choice of a parent leaves the job and the peers of the tree. -/
theorem withParent_keeps (s : State) (t : Tree) (o : Option PeerInfo) :
    (withParent s t o).job = t.job ∧ (withParent s t o).peers = t.peers := by
  cases o <;> exact ⟨rfl, rfl⟩

/-! ### TIME_ALIGN -/

theorem partOf_of_parts {s t : State} (h : t.parts = s.parts) (p : Nat) : partOf t p = partOf s p := by
  rw [partOf, partOf, h]

theorem partOf_complete (s : State) (c : Cmd) (st : Nat) (res : List Word) (p : Nat) : partOf (complete s c st res) p = partOf s p := by
  obtain ⟨fe, out, h⟩ := complete_other s c st res
  rw [h]
  rfl

theorem foldl_min_le {α : Type} (g : α → Nat) (l : List α) (b : Nat) :
    l.foldl (fun m r => min m (g r)) b ≤ b ∧ ∀ r ∈ l, l.foldl (fun m r => min m (g r)) b ≤ g r := by
  induction l generalizing b with
  | nil => simp
  | cons x l ih =>
    obtain ⟨hb, hl⟩ := ih (min b (g x))
    rw [List.foldl_cons]
    refine ⟨hb.trans (Nat.min_le_left _ _), fun r hr => ?_⟩
    rcases List.mem_cons.mp hr with rfl | hr
    · exact hb.trans (Nat.min_le_right _ _)
    · exact hl r hr

theorem timeAlign_starts {s : State} {q e : Nat} {c : Cmd} {y : Part} (hy : partOf s c.part = some y)
    (hrun : runCmd s q e opTimeAlign = some c) (hres : reservedOk c [(3, 0xFFFFFFFF), (4, 0xFFFFFFFF), (5, 0xFFFF)] = true)
    (hb : y.barrier = none) : ∃ t, exec (.timeAlign q e) s = .next t ∧
      partOf t c.part = some { y with ports := portsOf c, job := c.f 5 0 16, aligning := some (q, e) } ∧ t.out = s.out := by
  rw [exec, execTimeAlign, hrun, whenSome_some, hy]
  dsimp only
  rw [if_neg (by simp [hres]), if_neg (by simp [hb])]
  refine ⟨_, rfl, partOf_setPart _ _ _, ?_⟩
  exact out_of_erase { fe := true, parts := true, lanes := true } rfl (by simp)

/-- R405: the tree that is stable, the peers measured in it, and the command's completion. -/
theorem timeAlignTreeStable_completes {s : State} {p : Nat} {peers : List PeerInfo} {y : Part} {a : Nat × Nat} {c : Cmd}
    (hy : partOf s p = some y) (ha : y.aligning = some a) (hcmd : findCmd s a.1 a.2 = some c) (hc : clocked s = true)
    (hfw : s.hang.fwUp = true) (hpeers : ∀ r ∈ peers, r.port ∈ y.ports ∧ laneUsable s r.port = true) :
    ∃ t y' tr u, exec (.timeAlignTreeStable p peers) s = .next t ∧ partOf t p = some y' ∧ y'.tree = some tr ∧ y'.aligning = none ∧
      tr.peers = peers ∧ tr.job = y.job ∧
      (tr.parent = none → (∀ r ∈ peers, s.mfg.serial ≤ r.rootSerial) ∨ tr.lost = true) ∧
      t = complete u c (if y.ports.all (laneUsable s) then stOk else stUnreachable)
        [w32 (peers.map (·.serial)).eraseDups.length, w32 tr.uncert] := by
  have hmeasured : peers.all (fun r => y.ports.contains r.port && laneUsable s r.port) = true := by simpa using hpeers
  rw [exec, execTimeAlignTreeStable, hy, whenSome_some, ha, Option.bind_some, hcmd, whenSome_some,
    if_neg (by rw [hc, hfw, hmeasured]; decide)]
  extract_lets own root base up t0 tr s1 s2 res
  have hlanes : laneUsable s2 = laneUsable s := by
    funext l
    rw [laneUsable, laneUsable, laneOf_of_lanes (lanes_of_erase (s := s) { parts := true, arrivals := true } rfl (by simp [s2, s1]))]
  have hparts : partOf s2 p = some { y with tree := some tr, aligning := none } :=
    (partOf_of_parts (parts_of_erase (s := s1) { arrivals := true } rfl (by simp [s2])) p).trans (partOf_setPart s p _)
  obtain ⟨hjob, hkept⟩ := withParent_keeps s base up
  refine ⟨_, _, tr, s2, rfl, (partOf_complete _ _ _ _ _).trans hparts, rfl, rfl, hkept, hjob, fun hroot => ?_, by rw [hlanes]⟩
  by_cases hown : root = own
  · exact .inl fun r hr => hown.symm.le.trans ((foldl_min_le PeerInfo.rootSerial peers own).2 r hr)
  · cases hup : up with
    | none => exact .inr (by simp [tr, hown, hup])
    | some r => simp [tr, t0, hup, withParent] at hroot

section
variable {s : State} {p l : Nat} {y : Part} {tr : Tree} (hy : partOf s p = some y) (htree : y.tree = some tr)
  (hparent : tr.parent = some l) (hc : clocked s = true) (hfw : s.hang.fwUp = true) (hlost : usablePorts s tr l = [])
include hy htree hparent hc hfw hlost

/-- R407: no neighbour can take the parent's place. -/
theorem parentLoss_lost (hnone : ∀ r ∈ tr.peers, laneUsable s r.port = true → r.child = true ∨ r.port ∈ peerLanes tr l) :
    ∃ t y' tr', exec (.parentLoss p) s = .next t ∧ partOf t p = some y' ∧ y'.tree = some tr' ∧ tr'.parent = none ∧ tr'.lost = true := by
  have hfree : tr.peers.filter (fun r => laneUsable s r.port && !r.child && !(peerLanes tr l).contains r.port) = [] := by
    rw [List.filter_eq_nil_iff]
    intro r hr
    have hport (husable : laneUsable s r.port = true) (hchild : r.child = false) : r.port ∈ peerLanes tr l :=
      (hnone r hr husable).resolve_left (by simp [hchild])
    simpa using hport
  rw [exec, execParentLoss, hy, whenSome_some, htree, whenSome_some, hparent, whenSome_some, if_neg (by simp [hc, hfw, hlost]), hfree]
  refine ⟨_, { y with tree := some { tr with parent := none, lost := true } }, _, rfl, ?_, rfl, rfl, rfl⟩
  exact (partOf_of_parts (parts_of_erase { arrivals := true } rfl (by simp)) p).trans (partOf_setPart s p _)

/-- R405, R407: a neighbour that can be reached and is no child takes the parent's place. -/
theorem parentLoss_replaced (hsome : ∃ r ∈ tr.peers, laneUsable s r.port = true ∧ r.child = false ∧ r.port ∉ peerLanes tr l) :
    ∃ t y' tr' r, exec (.parentLoss p) s = .next t ∧ partOf t p = some y' ∧ y'.tree = some tr' ∧ tr'.parent = some r.port ∧
      tr'.lost = false ∧ tr'.depth = r.depth + 1 ∧ r ∈ tr.peers ∧ laneUsable s r.port = true ∧ r.child = false := by
  obtain ⟨r0, hr0, husable, hchild, hother⟩ := hsome
  have hmem : r0 ∈ tr.peers.filter (fun r => laneUsable s r.port && !r.child && !(peerLanes tr l).contains r.port) := by
    simp [hr0, husable, hchild, hother]
  obtain ⟨r, hr⟩ := bestParent_of_mem (s := s) (t := tr) hmem
  have hin := mem_of_bestParent hr
  simp only [List.mem_filter, Bool.and_eq_true, Bool.not_eq_true'] at hin
  obtain ⟨hpeer, ⟨hru, hrc⟩, -⟩ := hin
  rw [exec, execParentLoss, hy, whenSome_some, htree, whenSome_some, hparent, whenSome_some, if_neg (by simp [hc, hfw, hlost]), hr]
  exact ⟨_, _, _, r, rfl, partOf_setPart s p _, rfl, rfl, rfl, rfl, hpeer, hru, hrc⟩

end

theorem timeAlignment : Says.TimeAlignment := by
  refine ⟨fun s q e c y hy hrun hres hb => ?_, fun s p peers y a c hy ha hcmd hc hfw hpeers => ?_,
    fun s p l y tr hy htree hparent hc hfw hlost => ⟨fun hnone => ?_, fun hsome => ?_⟩⟩
  · obtain ⟨t, ht, hpart, hout⟩ := timeAlign_starts hy hrun hres hb
    exact ⟨t, _, ht, hpart, rfl, rfl, rfl, rfl, hout⟩
  · exact timeAlignTreeStable_completes hy ha hcmd hc hfw hpeers
  · exact parentLoss_lost hy htree hparent hc hfw hlost hnone
  · exact parentLoss_replaced hy htree hparent hc hfw hlost hsome

/-- Settles O44: each row of the lanes by what it writes to its lane, the tree by how its parent is chosen. That 1,024 rounds are kept
is the model's bound. -/
theorem lanesAndAlignment : Obligations.LanesAndAlignment := ⟨laneRows, timeAlignment⟩

end Sys2Proof.Machine
end

section
/-! SUPPORT. PMBus slots (R53, R55, R57). -/

namespace Sys2Proof.Machine

/-! ### What a slot does -/

section
variable {s : State} {z : Nat}

theorem pmbusTurn_status (hst : tfind s.arb.segStatus z = none) (hfault : tget s.arb.segFault [] z = []) :
    pmbusTurn s z true = .readStatus 0 := by
  rw [pmbusTurn, hst, hfault]
  rfl

theorem pmbusTurn_clear {low : Bool} {p : Nat} {rest : List Nat} (hst : tfind s.arb.segStatus z = none)
    (hfault : tget s.arb.segFault [] z = p :: rest) (hn : tget s.arb.segFails 0 z < 2) : pmbusTurn s z low = .clearFaults p := by
  have hretry : retried s z = false := by simp [retried]; omega
  rw [pmbusTurn, hst, hfault, hretry]
  rfl

theorem pmbusTurn_write {p c v : Nat} {rest : List (Nat × Nat × Nat)} (hst : tfind s.arb.segStatus z = none)
    (hfault : tget s.arb.segFault [] z = []) (hw : tget s.arb.writes [] z = (p, c, v) :: rest) (hn : tget s.arb.segFails 0 z < 2) :
    pmbusTurn s z false = .write p c v := by
  have hretry : retried s z = false := by simp [retried]; omega
  rw [pmbusTurn, hst, hfault, hw, hretry]
  rfl

theorem pmbusTurn_calibrate (hst : tfind s.arb.segStatus z = none) (hfault : tget s.arb.segFault [] z = [])
    (hw : tget s.arb.writes [] z = []) : pmbusTurn s z false = .calibrate (tget s.arb.segPage 0 z % zonePages z) := by
  rw [pmbusTurn, hst, hfault, hw]
  rfl

/-! ### How a slot ends -/

/-- R57: the page that is passed over leaves the failed transactions and the failed segments. -/
theorem passOver_keeps (s : State) (z : Nat) (turn : PmbusTurn) :
    (passOver s z turn).arb.segFails = s.arb.segFails ∧ (passOver s z turn).arb.segDown = s.arb.segDown := by
  unfold passOver
  split <;> exact ⟨rfl, rfl⟩

/-- R57: a segment declared failed, with PMBUS_FAIL. -/
theorem failSegment_fails (s : State) (z : Nat) :
    (failSegment s z).arb.segDown.contains z = true ∧ tsBit (failSegment s z) tsPmbusFail = true := by
  unfold failSegment
  extract_lets _ s1 s2
  obtain ⟨st, o, hu, hst⟩ := raiseBit_eq s2 tsPmbusFail (by decide)
  rw [hu]
  refine ⟨?_, hst⟩
  have harb : s2.arb = s1.arb := arb_of_erase { fields := true } rfl rfl (by simp [s2])
  change s2.arb.segDown.contains z = true
  rw [harb]
  simp [s1]

/-- R353: a calibration changes a field alone. -/
theorem out_calibrate (s : State) (z p : Nat) (a : Rat) : (calibrate s z p a).out = s.out :=
  out_of_erase { fields := true } rfl (by simp)

variable (hz : z < 8) (hc : clocked s = true) (hhub : s.arb.hubOff = false)
include hc hhub

section
variable (hup : s.arb.segDown.contains z = false)
include hz hup

theorem pmbusSlot_failed (low : Bool) : exec (.pmbusSlot z low .failed) s = .next (failSlot s z (pmbusTurn s z low)) := by
  rw [exec, execPmbusSlot, if_neg (Nat.not_le.mpr hz), if_neg (by rw [hc, hhub, hup]; decide)]

theorem pmbusSlot_done {low : Bool} {turn : PmbusTurn} {reply : PmbusReply} {t : State} (hreply : reply ≠ .failed)
    (hturn : pmbusTurn s z low = turn) (ht : slotDone s z turn reply = some t) : exec (.pmbusSlot z low reply) s = .next t := by
  rw [exec, execPmbusSlot, if_neg (Nat.not_le.mpr hz), if_neg (by rw [hc, hhub, hup]; decide), hturn, ht]
  exact hreply

end

theorem pmbusSegmentRetry_iout (a : Rat) (hdown : s.arb.segDown.contains z = true) : exec (.pmbusSegmentRetry z (.iout a)) s =
    .next { s with arb := { s.arb with segDown := s.arb.segDown.filter (· != z), segFails := tdel s.arb.segFails z } } := by
  rw [exec, execPmbusSegmentRetry, if_neg (by rw [hc, hhub, hdown]; decide)]
  exact nofun

end

theorem pmbusSlots : Says.PmbusSlots := by
  intro s z hz hc hhub
  refine ⟨fun hup hn low => ?_, fun hup hn low => ?_, fun hup hn low => ?_, fun a hup hst hfault hw => ?_, fun w hup hst hfault => ?_,
    fun low p rest hup hst hfault hn => ?_, fun p c v rest hup hst hfault hw hn => ?_, fun a hdown => ?_⟩
  · rw [pmbusSlot_failed hz hc hhub hup, failSlot, hn]
    rfl
  · refine ⟨_, pmbusSlot_failed hz hc hhub hup low, ?_⟩
    rw [failSlot, hn]
    extract_lets n u
    rw [if_neg (by decide), if_pos (by decide)]
    obtain ⟨hfails, hdown⟩ := passOver_keeps u z (pmbusTurn s z low)
    rw [hfails, hdown]
    exact ⟨tget_tset_same _ _ _ _, rfl⟩
  · refine ⟨_, pmbusSlot_failed hz hc hhub hup low, ?_⟩
    rw [failSlot, hn]
    exact failSegment_fails s z
  · refine ⟨_, pmbusSlot_done hz hc hhub hup (by simp) (pmbusTurn_calibrate hst hfault hw) rfl, ?_⟩
    have hout := out_calibrate { s with arb := { s.arb with segFails := tdel s.arb.segFails z } } z
      (tget s.arb.segPage 0 z % zonePages z) a
    exact ⟨tget_tset_same _ _ _ _, congrArg _ hout⟩
  · refine ⟨_, pmbusSlot_done hz hc hhub hup (by simp) (pmbusTurn_status hst hfault) rfl, ?_⟩
    have hleft : zonePages z - 0 - 1 ≠ 0 := by unfold zonePages; split <;> decide
    refine ⟨?_, ?_, rfl⟩
    · simp only [drive_arb, if_neg hleft]
      exact tfind_tset_same _ _ _
    · simp only [drive_arb]
      split
      · exact hfault
      · rw [tget_tset_same, hfault]
        rfl
  · refine ⟨_, pmbusSlot_done hz hc hhub hup (by simp) (pmbusTurn_clear hst hfault hn) rfl, ?_, rfl⟩
    simp [hfault]
  · refine ⟨_, pmbusSlot_done hz hc hhub hup (by simp) (pmbusTurn_write hst hfault hw hn) rfl, ?_, ?_⟩
    · simp only [drive_out]
      split <;> rfl
    · simp only [drive_arb]
      split <;> simp [hw, wroteVcore]
  · refine ⟨_, pmbusSegmentRetry_iout hc hhub a hdown, ?_, rfl⟩
    simp

end Sys2Proof.Machine
end

section
/-! SUPPORT. The loss and the return of a zone's power (R28, R32, R369). -/

namespace Sys2Proof.Machine

/-! ### The same change in several fields -/

section
variable {u : State → Nat → State} (hother : ∀ s f g, g ≠ f → fieldOf (u s f) g = fieldOf s g)
include hother

theorem fieldOf_foldl_other {fs : List Nat} {g : Nat} (hg : g ∉ fs) (s : State) : fieldOf (fs.foldl u s) g = fieldOf s g := by
  induction fs generalizing s with
  | nil => rfl
  | cons f fs ih =>
    rw [List.mem_cons, not_or] at hg
    obtain ⟨hne, hmem⟩ := hg
    rw [List.foldl_cons, ih hmem, hother s f g hne]

/-- What each change of the field makes true of it is true after the last. -/
theorem fieldOf_foldl_mem {P : Field → Prop} {f : Nat} (hP : ∀ s, P (fieldOf (u s f) f)) {fs : List Nat} (hf : f ∈ fs) (s : State) :
    P (fieldOf (fs.foldl u s) f) := by
  induction fs generalizing s with
  | nil => cases hf
  | cons k fs ih =>
    rw [List.foldl_cons]
    by_cases hmem : f ∈ fs
    · exact ih hmem _
    · rw [fieldOf_foldl_other hother hmem]
      rcases List.mem_cons.mp hf with rfl | h
      · exact hP s
      · exact absurd h hmem

end

theorem fieldOf_modFields_other (s : State) {fs : List Nat} {g : Nat} (h : Field → Field) (hg : g ∉ fs) :
    fieldOf (modFields s fs h) g = fieldOf s g :=
  fieldOf_foldl_other (fun s f g hne => fieldOf_modField_other s f g h hne) hg s

theorem fieldOf_modFields_mem (P : Field → Prop) (s : State) {fs : List Nat} {f : Nat} {h : Field → Field} (hP : ∀ x, P (h x))
    (hf : f ∈ fs) : P (fieldOf (modFields s fs h) f) :=
  fieldOf_foldl_mem (fun s f g hne => fieldOf_modField_other s f g h hne) (fun s => by rw [fieldOf_modField]; exact hP _) hf s

theorem notMem_oddPartners {fs : List Nat} {f : Nat} (h : f ∈ fs) : f ∉ oddPartners fs := by
  intro hf
  simp only [oddPartners, List.mem_map, List.mem_filter] at hf
  obtain ⟨k, ⟨-, hk⟩, rfl⟩ := hf
  simp [h] at hk

/-! ### The loss -/

/-- A field without power. -/
def darkField (x : Field) : Field := { x with zoneDown := true, warden := .off, beats := 0, run := .gated, link := [] }

/-- The zone's fields without power, and the odd partners of its even wardens stopped. -/
def darkZone (s : State) (z : Nat) : State :=
  stopWardens (modFields (setPgood s z false) (zoneFields z) darkField) (oddPartners (zoneFields z))

/-- What the loss of a zone's power-good comes to before the hub feed is looked at. -/
def afterZoneLoss (s : State) (z : Nat) : State :=
  let u := darkZone s z
  let hit := (loadedParts u).filterMap (fun e => (partFields e.2).find? (fun f => (zoneFields z).contains f))
  emitZone (excludeLost (hit.foldl (fun s f => lostStep s f 0 3 false 0 0xFFFFFF 0 0 4) u) (zoneFields z)) z false

theorem execZonePgoodLoss_eq (s : State) (z : Nat) : execZonePgoodLoss z s =
    if 8 ≤ z then .fault (.malformed "ZONE_PGOOD_LOSS")
    else whenOk s (clocked s && (zoneFields z).any (fun f => !(fieldOf s f).zoneDown)) "the zone has no power-good already"
      (if feedGone (afterZoneLoss s z) then loseFeed (afterZoneLoss s z) else afterZoneLoss s z) := rfl

theorem erase_darkZone (κ : Mask) (s : State) (z : Nat) (h_parts : κ.parts = true) (h_fields : κ.fields = true)
    (h_guards : κ.guards = true) (h_hang : κ.hang = true) (h_arrivals : κ.arrivals = true) :
    erase κ (darkZone s z) = erase κ (setPgood s z false) := by
  simp [darkZone, *]

theorem erase_afterZoneLoss (κ : Mask) (s : State) (z : Nat) (h_parts : κ.parts = true) (h_fields : κ.fields = true)
    (h_guards : κ.guards = true) (h_hang : κ.hang = true) (h_boot : κ.boot = true) (h_out : κ.out = true)
    (h_status : κ.status = true) (h_arrivals : κ.arrivals = true) :
    erase κ (afterZoneLoss s z) = erase κ (setPgood s z false) := by
  simp [afterZoneLoss, erase_darkZone, *]

/-- The parts that the loss of a zone's power changes while the hub feed stands. -/
def zoneLossMask : Mask :=
  { parts := true, fields := true, guards := true, hang := true, arb := true, boot := true, out := true, status := true, arrivals := true }

/-- R369: the front end, the Hutch, the Armoire, the NOR and the tray's caps stay as they are. -/
theorem zoneLossMask_afterZoneLoss (s : State) (z : Nat) : erase zoneLossMask (afterZoneLoss s z) = erase zoneLossMask s :=
  (erase_afterZoneLoss zoneLossMask s z rfl rfl rfl rfl rfl rfl rfl rfl).trans (erase_setPgood zoneLossMask s z false rfl)

/-- R28: whether the feed is gone is told by the zones' power-good alone. -/
theorem feedGone_afterZoneLoss (s : State) (z : Nat) : feedGone (afterZoneLoss s z) = feedGone (setPgood s z false) := by
  rw [feedGone, feedGone, arb_of_erase _ rfl rfl (erase_afterZoneLoss
    { parts := true, fields := true, guards := true, hang := true, boot := true, out := true, status := true, arrivals := true }
    s z rfl rfl rfl rfl rfl rfl rfl rfl)]

theorem zonePgoodLoss_next {s : State} {z f : Nat} (hz : z < 8) (hc : clocked s = true) (hf : f ∈ zoneFields z)
    (hup : (fieldOf s f).zoneDown = false) : exec (.zonePgoodLoss z) s = .next
      (if feedGone (setPgood s z false) then loseFeed (afterZoneLoss s z) else afterZoneLoss s z) := by
  have hany : (zoneFields z).any (fun f => !(fieldOf s f).zoneDown) = true := List.any_eq_true.mpr ⟨f, hf, by simp [hup]⟩
  rw [exec, execZonePgoodLoss_eq, if_neg (Nat.not_le.mpr hz), hc, hany, Bool.and_self, whenOk_true, feedGone_afterZoneLoss]

/-! ### The power of a field -/

@[simp] theorem fields_emitZone (s : State) (z : Nat) (level : Bool) : (emitZone s z level).fields = s.fields := rfl

/-- Whether a field has power, and its warden. -/
abbrev power (x : Field) : Bool × WardenState := (x.zoneDown, x.warden)

@[simp] theorem power_lostStep (s : State) (f trigger outcome : Nat) (cross : Bool) (tiles spare hold : Nat) (detail : Dword)
    (cause : Nat) : fieldView power (lostStep s f trigger outcome cross tiles spare hold detail cause) = fieldView power s := by
  simp only [lostStep, loseWith, resetForLoss]
  split <;> simp

@[simp] theorem power_excludeFields (s : State) (fs : List Nat) (stage cause : Nat) :
    fieldView power (excludeFields s fs stage cause) = fieldView power s := by
  unfold excludeFields
  extract_lets u
  have hu : fieldView power u = fieldView power s := fieldView_foldl _ (fun s f => fieldView_modField f _ rfl) fs s
  exact (fieldView_of_erase { boot := true, out := true, status := true } rfl (by simp)).trans hu

@[simp] theorem power_excludeLost (s : State) (fs : List Nat) : fieldView power (excludeLost s fs) = fieldView power s := by
  unfold excludeLost
  split
  · rfl
  · refine fieldView_foldl _ (fun s n => ?_) _ s
    extract_lets out
    split
    · rfl
    · exact (fieldView_of_erase (s := excludeFields s out n 9) { arrivals := true } rfl (by simp)).trans (power_excludeFields s out n 9)

/-- R302: a warden that stops takes power from no field. -/
theorem power_stopWardens (s : State) {fs : List Nat} {f : Nat} (hf : f ∉ fs) :
    power (fieldOf (stopWardens s fs) f) = power (fieldOf s f) := by
  unfold stopWardens
  extract_lets hit u
  have hu : fieldOf u f = fieldOf s f := fieldOf_modFields_other s _ hf
  rw [← hu]
  refine read_of_fieldView (π := power) (fieldView_foldl _ (fun s g => ?_) hit u) f
  split <;> simp

/-- R369: the zone's fields are without power. -/
theorem power_afterZoneLoss (s : State) {z f : Nat} (hf : f ∈ zoneFields z) :
    power (fieldOf (afterZoneLoss s z) f) = (true, .off) := by
  have hview : fieldView power (afterZoneLoss s z) = fieldView power (darkZone s z) := by
    refine (fieldView_of_fields (fields_emitZone ..)).trans ((power_excludeLost _ _).trans ?_)
    exact fieldView_foldl _ (fun s f => power_lostStep s f _ _ _ _ _ _ _ _) _ _
  rw [read_of_fieldView hview f, darkZone, power_stopWardens _ (notMem_oddPartners hf)]
  exact fieldOf_modFields_mem (fun x => power x = (true, .off)) _ (fun x => rfl) hf

/-! ### The loss where no partition is defined -/

theorem foldl_fields_of_noParts {α : Type} (u : State → α → State)
    (h : ∀ s a, s.parts = [] → (u s a).parts = [] ∧ (u s a).fields = s.fields) (l : List α) (s : State) (hs : s.parts = []) :
    (l.foldl u s).parts = [] ∧ (l.foldl u s).fields = s.fields := by
  induction l generalizing s with
  | nil => exact ⟨hs, rfl⟩
  | cons a l ih =>
    obtain ⟨hp, hf⟩ := h s a hs
    obtain ⟨hp', hf'⟩ := ih (u s a) hp
    exact ⟨hp', hf'.trans hf⟩

theorem fieldLoaded_of_noParts {s : State} (h : s.parts = []) (f : Nat) : fieldLoaded s f = false := by
  simp [fieldLoaded, fieldPart, h]

/-- Without a program no replay is lost: the wardens that stop are all that changes. -/
theorem stopWardens_noParts {s : State} (hs : s.parts = []) {fs : List Nat} : (stopWardens s fs).parts = [] ∧
    ∀ g, g ∉ fs → fieldOf (stopWardens s fs) g = fieldOf s g := by
  unfold stopWardens
  extract_lets hit u
  have hu : u.parts = [] := (parts_of_erase { fields := true } rfl (by simp [u])).trans hs
  obtain ⟨hp, hf⟩ := foldl_fields_of_noParts (fun s g =>
      if fieldLoaded s g then lostStep s g 0 5 false (max 1 (fieldOf s g).failed.length) 0xFFFFFF 0
        ((((fieldOf s g).failed.head?).map (·.word)).getD 0) 4
      else autoReset s 1 (domField g) 8) (fun s g hs => by
    rw [if_neg (by simp [fieldLoaded_of_noParts hs])]
    have he : erase { hang := true } (autoReset s 1 (domField g) 8) = erase { hang := true } s := by simp
    exact ⟨(parts_of_erase _ rfl he).trans hs, fields_of_erase _ rfl he⟩) hit u hu
  refine ⟨hp, fun g hg => ?_⟩
  rw [fieldOf, hf]
  exact fieldOf_modFields_other s _ hg

/-- R32, R369: with no program to lose and before the fields' stages of bring-up, the fields are those of the dark zone. -/
theorem afterZoneLoss_noParts {s : State} {z : Nat} (hs : s.parts = []) (hb : s.boot.stage < 2) :
    (afterZoneLoss s z).fields = (darkZone s z).fields := by
  have hp : (darkZone s z).parts = [] :=
    (stopWardens_noParts (parts_of_erase { fields := true, arb := true } rfl (by simp) |>.trans hs)).1
  have hstage : (darkZone s z).boot.stage < 2 := by
    rw [boot_of_erase (s := s) { parts := true, fields := true, guards := true, hang := true, arb := true, arrivals := true } rfl
      (by simp [erase_darkZone])]
    exact hb
  simp [afterZoneLoss, loadedParts, hp, excludeLost, hstage]

theorem zonePower_loss {s : State} {z f : Nat} (hz : z < 8) (hc : clocked s = true) (hf : f ∈ zoneFields z)
    (hup : (fieldOf s f).zoneDown = false) (hfeed : feedGone (setPgood s z false) = false) :
    exec (.zonePgoodLoss z) s = .next (afterZoneLoss s z) := by
  rw [zonePgoodLoss_next hz hc hf hup, hfeed]
  rfl

/-! ### The return -/

/-- R369: a field begins S2 again. -/
def rejoin (s : State) (f : Nat) : State := modField (startWarden s f) f (fun x => { x with excluded := false, exclCause := 0 })

theorem fieldOf_rejoin_other (s : State) (f g : Nat) (h : g ≠ f) : fieldOf (rejoin s f) g = fieldOf s g :=
  (fieldOf_modField_other _ f g _ h).trans (fieldOf_modField_other s f g _ h)

/-- R32, R369: the field stands in S2, an even warden starts. -/
theorem fieldOf_rejoin (s : State) (f : Nat) :
    (fieldOf (rejoin s f) f).stage = 2 ∧ (f % 2 = 0 → (fieldOf (rejoin s f) f).warden = .starting) := by
  rw [rejoin, startWarden, fieldOf_modField, fieldOf_modField]
  refine ⟨rfl, fun heven => ?_⟩
  simp [partnerOn, heven]

@[simp] theorem zoneDown_rejoin (s : State) (f : Nat) : fieldView (·.zoneDown) (rejoin s f) = fieldView (·.zoneDown) s :=
  (fieldView_modField f _ rfl).trans (fieldView_modField f _ rfl)

theorem zonePower_return {s : State} {z f : Nat} (hz : z < 8) (hc : clocked s = true) (hf : f ∈ zoneFields z)
    (hdown : (fieldOf s f).zoneDown = true) (hstage : 2 ≤ s.boot.stage) (hin : (fieldOf s f).excluded = false) :
    ∃ t, exec (.zonePgoodReturn z) s = .next t ∧ (fieldOf t f).zoneDown = false ∧ (fieldOf t f).stage = 2 ∧
      (f % 2 = 0 → (fieldOf t f).warden = .starting) ∧
      ∀ g, g ∉ zoneFields z → g ∉ oddPartners (zoneFields z) → fieldOf t g = fieldOf s g := by
  have hany : (zoneFields z).any (fun f => (fieldOf s f).zoneDown) = true := List.any_eq_true.mpr ⟨f, hf, hdown⟩
  rw [exec, execZonePgoodReturn, if_neg (Nat.not_le.mpr hz)]
  extract_lets fs u back u1 u2 _ u3
  rw [hc, hany, Bool.and_self, whenOk_true]
  have hback : f ∈ back := by
    have hsame : (fieldOf u f).excluded = false := hin
    have hlate : 2 ≤ u.boot.stage := hstage
    simp [back, fs, hf, hsame, hlate]
  have ht (g : Nat) : fieldOf (emitZone u3 z true) g = fieldOf (back.foldl rejoin u1) g := rfl
  refine ⟨_, rfl, ?_, ?_, ?_, fun g hg hodd => ?_⟩
  · rw [ht]
    refine (read_of_fieldView (π := (·.zoneDown)) (fieldView_foldl _ zoneDown_rejoin back u1) f).trans ?_
    exact fieldOf_modFields_mem (fun x => x.zoneDown = false) u (fun x => rfl) hf
  · rw [ht]
    exact fieldOf_foldl_mem fieldOf_rejoin_other (P := fun x => x.stage = 2) (fun s => (fieldOf_rejoin s f).1) hback u1
  · intro heven
    rw [ht]
    exact fieldOf_foldl_mem fieldOf_rejoin_other (P := fun x => x.warden = .starting) (fun s => (fieldOf_rejoin s f).2 heven) hback u1
  · have hnot : g ∉ back := by simp [back, fs, hg, hodd]
    rw [ht, fieldOf_foldl_other fieldOf_rejoin_other hnot]
    exact fieldOf_modFields_other u _ hg

theorem zonePower : Says.ZonePower := by
  intro s z f hz hc hf
  refine ⟨fun hup hfeed => ?_, fun hup hfeed => ?_, fun hdown hstage hin => zonePower_return hz hc hf hdown hstage hin⟩
  · refine ⟨_, zonePower_loss hz hc hf hup hfeed, ?_⟩
    have hpower := power_afterZoneLoss s hf
    refine ⟨congrArg Prod.fst hpower, congrArg Prod.snd hpower, ?_, fun hparts hboot => ?_⟩
    · exact zoneLossMask_afterZoneLoss s z
    · have hfields (g : Nat) : fieldOf (afterZoneLoss s z) g = fieldOf (darkZone s z) g := by
        rw [fieldOf, fieldOf, afterZoneLoss_noParts hparts hboot]
      have hp : (modFields (setPgood s z false) (zoneFields z) darkField).parts = [] :=
        (parts_of_erase (s := s) { fields := true, arb := true } rfl (by simp)).trans hparts
      have hstop := (stopWardens_noParts hp (fs := oddPartners (zoneFields z))).2
      refine ⟨?_, fun g hg hodd => ?_⟩
      · rw [hfields, darkZone, hstop f (notMem_oddPartners hf)]
        exact fieldOf_modFields_mem (fun x => x.run = .gated) _ (fun x => rfl) hf
      · rw [hfields, darkZone, hstop g hodd]
        exact fieldOf_modFields_other _ _ hg
  · exact ⟨_, by rw [zonePgoodLoss_next hz hc hf hup, if_pos hfeed], rfl, rfl, rfl⟩

/-- Settles O26: a slot by its turn and how it ends, a zone by what the loss and the return make of its fields. The order of the turns
(log entry 45), the warden pairs across zones (log entry 188) and the two supplies of the hub (log entry 189) are the model's choice. -/
theorem telemetryAndZones : Obligations.TelemetryAndZones := ⟨pmbusSlots, zonePower⟩

end Sys2Proof.Machine
end

section
/-! SUPPORT. The wafer cap and the tray ceiling (R47, R359). -/

namespace Sys2Proof.Machine

/-! ### What the caps depend on -/

theorem cap_of_erase (κ : Mask) {s t : State} (hκ : κ.cap = false) (h : erase κ t = erase κ s) : t.arb.cap = s.arb.cap := by
  simpa [erase, eraseArb, hκ] using congrArg (fun u : State => u.arb.cap) h

theorem capCeil_of_erase (κ : Mask) {s t : State} (hκ : κ.capCeil = false) (h : erase κ t = erase κ s) :
    t.tray.capCeil = s.tray.capCeil := by
  simpa [erase, eraseTray, hκ] using congrArg (fun u : State => u.tray.capCeil) h

theorem LegalCaps.of_eq {s t : State} (h : LegalCaps s) (hcap : t.arb.cap = s.arb.cap) (hceil : t.tray.capCeil = s.tray.capCeil) :
    LegalCaps t := by
  rwa [LegalCaps, hcap, hceil]

theorem LegalCaps.of_erase (κ : Mask) {s t : State} (h : LegalCaps s) (hcap : κ.cap = false) (hceil : κ.capCeil = false)
    (he : erase κ t = erase κ s) : LegalCaps t :=
  h.of_eq (cap_of_erase κ hcap he) (capCeil_of_erase κ hceil he)

theorem LegalCaps.of_none {t : State} (hcap : t.arb.cap = 0) (hceil : t.tray.capCeil = 0) : LegalCaps t :=
  ⟨.inl hcap, .inl hceil⟩

/-- The rows whose frame lists a cap: POWER_CAP, CAP_LIMIT, and what takes power from the hub. -/
def mayChangeCaps : Instr → Bool
  | .powerCap .. | .smbCapLimit .. | .hubTrip | .hubFeedLoss | .zonePgoodLoss .. => true
  | _ => false

theorem changes_caps (i : Instr) (h : mayChangeCaps i = false) : (changes i).cap = false ∧ (changes i).capCeil = false := by
  cases i with
  | powerCap | smbCapLimit | hubTrip | hubFeedLoss | zonePgoodLoss => cases h
  | _ => exact ⟨rfl, rfl⟩

/-! ### The rows that set or drop a cap -/

/-- What POWER_CAP does once the cap is set: no cap is among it. -/
def afterCapMask : Mask := { fe := true, parts := true, fields := true, arb := true, out := true, arrivals := true }

/-- R359: the caps that POWER_CAP takes are legal, and all else that it does leaves both caps. -/
theorem legalCaps_execPowerCap (q e : Nat) (s t : State) (h : LegalCaps s) (ht : execPowerCap q e s = .next t) : LegalCaps t := by
  obtain ⟨c, -, ht⟩ | ⟨-, rfl⟩ := (whenSome_next ..).mp ht
  · extract_lets cap rail lim given s1 old _ u u1 u2 u3 waits at ht
    split at ht
    · cases ht
      exact h.of_erase afterCapMask rfl rfl (by simp [afterCapMask])
    next hok =>
      split at ht
      · cases ht
        exact h.of_erase afterCapMask rfl rfl (by simp [afterCapMask, s1])
      · rw [← Host.Outcome.next.inj ht]
        have hset : LegalCaps u := ⟨by simp at hok; simp only [u]; omega, h.2⟩
        exact hset.of_erase afterCapMask rfl rfl (by simp [afterCapMask, u3, u2, u1])
  · exact h

/-- R47, R359: CAP_LIMIT takes 0 and 60 to 360 alone. -/
theorem legalCaps_execSmbCapLimit (pecOk : Bool) (data : BitVec 16) (s t : State) (h : LegalCaps s)
    (ht : execSmbCapLimit pecOk data s = .next t) : LegalCaps t := by
  unfold execSmbCapLimit smbWrite at ht
  dsimp only at ht
  split_ifs at ht with hfeed hgood hv hsame
  all_goals cases ht
  · exact h
  · exact ⟨h.1, hv⟩
  · exact LegalCaps.of_erase { arrivals := true } (⟨h.1, hv⟩ : LegalCaps { s with tray := { s.tray with capCeil := data.toNat } })
      rfl rfl (by simp)
  · exact h
  · exact h

theorem legalCaps_loseFeed (s : State) : LegalCaps (loseFeed s) := .of_none rfl rfl

/-- R386: the hub that trips loses both caps. -/
theorem legalCaps_execHubTrip (s t : State) (h : LegalCaps s) (ht : execHubTrip s = .next t) : LegalCaps t := by
  obtain ⟨-, rfl⟩ | ⟨-, rfl⟩ := (whenOk_next ..).mp ht
  · exact .of_none rfl rfl
  · exact h

theorem legalCaps_execHubFeedLoss (s t : State) (h : LegalCaps s) (ht : execHubFeedLoss s = .next t) : LegalCaps t := by
  obtain ⟨-, rfl⟩ | ⟨-, rfl⟩ := (whenOk_next ..).mp ht
  · exact legalCaps_loseFeed s
  · exact h

/-- R369: what the loss of a zone's power does before the feed is looked at leaves both caps; the loss of the feed drops them. -/
theorem legalCaps_execZonePgoodLoss (z : Nat) (s t : State) (h : LegalCaps s) (ht : execZonePgoodLoss z s = .next t) : LegalCaps t := by
  rw [execZonePgoodLoss_eq] at ht
  split at ht
  · cases ht
  · obtain ⟨-, rfl⟩ | ⟨-, rfl⟩ := (whenOk_next ..).mp ht
    · split
      · exact legalCaps_loseFeed _
      · exact h.of_erase zoneLossMask rfl rfl (zoneLossMask_afterZoneLoss s z)
    · exact h

/-! ### Every command, and a step -/

theorem legalCaps_exec (i : Instr) (s t : State) (h : LegalCaps s) (ht : exec i s = .next t) : LegalCaps t := by
  cases hi : mayChangeCaps i with
  | false =>
    obtain ⟨hcap, hceil⟩ := changes_caps i hi
    exact h.of_erase (changes i) hcap hceil (erase_exec i s t ht)
  | true =>
    cases i with
    | powerCap q e => exact legalCaps_execPowerCap q e s t h ht
    | smbCapLimit pecOk data => exact legalCaps_execSmbCapLimit pecOk data s t h ht
    | hubTrip => exact legalCaps_execHubTrip s t h ht
    | hubFeedLoss => exact legalCaps_execHubFeedLoss s t h ht
    | zonePgoodLoss z => exact legalCaps_execZonePgoodLoss z s t h ht
    | _ => cases hi

/-- Settles O3: on an empty queue time passes, which no cap depends on; else by the front command. -/
theorem stepKeepsLegalCaps : Obligations.StepKeepsLegalCaps := by
  intro s t h ht
  cases hs : s.pending with
  | nil =>
    rw [step_nil s hs] at ht
    cases ht
    exact h.of_erase { now := true, parts := true, fields := true, arrivals := true } rfl rfl (by simp)
  | cons c rest =>
    rw [step_cons s c rest hs] at ht
    exact legalCaps_exec c { s with pending := rest } t h ht

end Sys2Proof.Machine
end

section
/-! SUPPORT. Doorbells, enable and disable of queue slots (R71, R72, R478, R480, R481). -/

namespace Sys2Proof.Machine

/-! ### What an access answers while the aperture is served -/

theorem served_eq {t : Nat} (ht : t < 16) {s : State} (hs : apServed s = true) (row : String) (u : State) :
    served row t s u = .next u := by
  rw [served, if_neg (Nat.not_le.mpr ht), if_pos hs]

/-! ### Doorbells -/

section
variable {s : State} {t qn q : Nat}

theorem ringSq_of_slot (hq : doorbellSlot s t qn = some q) (v : Nat) : ringSq s t qn v =
    if (slotOf s q).draining ∨ 2 ^ (slotOf s q).sqLog2 ≤ v % 4096 then badDoorbell s q
    else setSlot s q { slotOf s q with sqTail := v % 4096 } := by
  rw [ringSq, hq]
  rfl

theorem ringCq_of_slot (hq : doorbellSlot s t qn = some q) (v : Nat) : ringCq s t qn v =
    if (slotOf s q).draining ∨ 2 ^ (slotOf s q).cqLog2 ≤ v % 16384 then badDoorbell s q
    else setSlot s q { slotOf s q with cqHead := v % 16384 } := by
  rw [ringCq, hq]
  rfl

theorem clearDbBad_of_slot (hq : doorbellSlot s t qn = some q) (v : Nat) : clearDbBad s t qn v =
    if bitAt v 2 then setSlot s q { slotOf s q with dbBad := false, badCount := 0 } else s := by
  rw [clearDbBad, hq]
  rfl

end

theorem doorbellWrites : Says.DoorbellWrites := by
  intro s t qn v ht hs
  refine ⟨fun q hq => ?_, fun hnone => ?_⟩
  · refine ⟨?_, ?_, fun hbad => ?_, fun hbad => ?_, fun hbit => ?_⟩
    · rintro n rfl hdrain hlt
      rw [exec, execSqDoorbell, served_eq ht hs, ringSq_of_slot hq, if_neg (by simp [hdrain, hlt])]
    · rintro n rfl hdrain hlt
      rw [exec, execCqDoorbell, served_eq ht hs, ringCq_of_slot hq, if_neg (by simp [hdrain, hlt])]
    · rw [exec, execSqDoorbell, served_eq ht hs, ringSq_of_slot hq, if_pos hbad]
      rfl
    · rw [exec, execCqDoorbell, served_eq ht hs, ringCq_of_slot hq, if_pos hbad]
      rfl
    · have hset : bitAt v.toNat 2 = true := by simp [bitAt, Nat.testBit_eq_decide_div_mod_eq, hbit]
      rw [exec, execDbBadClear, served_eq ht hs, clearDbBad_of_slot hq, if_pos hset]
  · simp [exec, execSqDoorbell, execCqDoorbell, execDbBadClear, served_eq ht hs, ringSq, ringCq, clearDbBad, hnone]

/-! ### Enable and disable -/

theorem queueEnable_next {s : State} {n : Nat} {v : Word} (hn : n < 128) (hs : apServed s = true) (hv : bitAt v.toNat 0 = true) :
    exec (.queueEnable 0 n v) s = .next (writeSlot0 s 0 n v.toNat) := by
  rw [exec, execQueueEnable, if_neg (by simp [hv, hn]), served_eq (by decide) hs]

theorem queueDisable_next {s : State} {n : Nat} {v : Word} (hn : n < 128) (hs : apServed s = true) (hv : bitAt v.toNat 0 = false) :
    exec (.queueDisable 0 n v) s = .next (writeSlot0 s 0 n v.toNat) := by
  rw [exec, execQueueDisable, if_neg (by simp [hv, hn]), served_eq (by decide) hs]

theorem slotEnableDisable : Says.SlotEnableDisable := by
  intro s n v hn hs
  refine ⟨fun hv hidle hdrain => ⟨_, queueEnable_next hn hs hv, ?_⟩, fun hv hen => ?_⟩
  · have hbit : bitAt v.toNat 0 = true := hv
    have henable : (slotFields (slotOf s n) v.toNat).enable = false := hidle
    cases hok : slotOk s n (slotFields (slotOf s n) v.toNat)
    · simp +contextual [writeSlot0, hbit, hidle, hdrain, hok, henable, slotOf_setSlot_other]
    · simp +contextual [writeSlot0, hbit, hidle, hdrain, hok, slotOf_setSlot_other]
  · have hbit : bitAt v.toNat 0 = false := hv
    rw [queueDisable_next hn hs hbit]
    simp [writeSlot0, hbit, hen]

/-- Settles O11: a doorbell by the slot that its group serves, a write of word +0 by whether the slot is idle or enabled. What a write
that sets ENABLE does while the slot drains is log entry 26. -/
theorem queueSlotsAndDoorbells : Obligations.QueueSlotsAndDoorbells := ⟨doorbellWrites, slotEnableDisable⟩

end Sys2Proof.Machine
end

section
/-! SUPPORT. What a frame says of the front end, the flight of commands, and a completion entry (R72, R77, R79, R101). -/

namespace Sys2Proof.Machine

/-! ### Parts that an operation leaves alone -/

section
variable (κ : Mask) {s t : State}

theorem fe_of_erase (hκ : κ.fe = false) (h : erase κ t = erase κ s) : t.fe = s.fe := by
  simpa [erase, hκ] using congrArg State.fe h

theorem regs_of_erase (hκ : κ.regs = false) (h : erase κ t = erase κ s) : t.regs = s.regs := by
  simpa [erase, hκ] using congrArg State.regs h

theorem gens_of_erase (hκ : κ.gens = false) (h : erase κ t = erase κ s) : t.hang.gens = s.hang.gens := by
  simpa [erase, eraseHang, hκ] using congrArg (fun u : State => u.hang.gens) h

theorem hang_of_erase (hκ : κ.hang = false) (hg : κ.gens = false) (h : erase κ t = erase κ s) : t.hang = s.hang := by
  have he := congrArg State.hang h
  simp only [erase, eraseHang, hκ, hg, Bool.false_eq_true, if_false] at he
  exact he

theorem aCounter_of_erase (hκ : κ.aCounter = false) (h : erase κ t = erase κ s) : t.cab.aCounter = s.cab.aCounter := by
  simpa [erase, eraseCab, hκ] using congrArg (fun u : State => u.cab.aCounter) h

end

section
variable {s t : State}

theorem findCmd_of_flight (h : t.fe.flight = s.fe.flight) (q e : Nat) : findCmd t q e = findCmd s q e := by
  rw [findCmd, findCmd, h]

theorem slotOf_of_slots (h : t.fe.slots = s.fe.slots) (q : Nat) : slotOf t q = slotOf s q := by
  rw [slotOf, slotOf, h]

theorem genOf_of_gens (h : t.hang.gens = s.hang.gens) (d : Nat) : genOf t d = genOf s d := by
  rw [genOf, genOf, h]

end

/-! ### The flight -/

theorem findCmd_modCmd {s : State} {q e : Nat} {c : Cmd} (h : findCmd s q e = some c) (g : Cmd → Cmd)
    (hg : ∀ d, (g d).q = d.q ∧ (g d).e = d.e) : findCmd (modCmd s q e g) q e = some (g c) := by
  obtain ⟨hq, he, -⟩ := findCmd_some s q e c h
  rw [findCmd] at h
  rw [findCmd, modCmd, find_map_same _ _ (fun d => by split <;> simp [hg]), h, Option.map_some]
  simp [hq, he]

@[simp] theorem fe_hubRequest (s : State) (c : Cmd) : (hubRequest s c).fe = s.fe :=
  fe_of_erase { fields := true } rfl (by simp)

/-- A command that starts takes the phase of its path (R91). -/
def startPhase (c : Cmd) : Phase := if opHw c.opcode then .running else .queuedFw

/-- R79, R91: a command that no failure of its fence scope and no change of generation stops starts on its path. -/
theorem startCmd_starts {s : State} {c : Cmd} (hf : isFence c = false ∨ scopeFailures s c = 0) (hg : genOk s c = true) :
    (startCmd s c).fe = (modCmd s c.q c.e (fun d => { d with phase := startPhase c })).fe := by
  have hfence : ¬ (isFence c && decide (0 < scopeFailures s c)) = true := by rcases hf with h | h <;> simp [h]
  rw [startCmd, if_neg hfence, if_neg (by simp [hg]), startPhase]
  split
  · exact fe_hubRequest _ _
  · rfl

theorem findCmd_startCmd {s : State} {c : Cmd} (h : findCmd s c.q c.e = some c) (hf : isFence c = false ∨ scopeFailures s c = 0)
    (hg : genOk s c = true) : findCmd (startCmd s c) c.q c.e = some { c with phase := startPhase c } := by
  rw [findCmd_of_flight (congrArg (·.flight) (startCmd_starts hf hg)),
    findCmd_modCmd h (fun d => { d with phase := startPhase c }) (fun _ => ⟨rfl, rfl⟩)]

theorem findCmd_dropCmd (s : State) (q e : Nat) : findCmd (dropCmd s q e) q e = none := by
  have hflight : (dropCmd s q e).fe.flight = s.fe.flight.filter (fun c => !(c.q == q && c.e == e)) := by
    unfold dropCmd
    extract_lets u
    split <;> rfl
  rw [findCmd, hflight, List.find?_filter, List.find?_eq_none]
  intro c _
  cases c.q == q && c.e == e <;> decide

/-! ### A completion entry -/

/-- R77, R101: the words that a completion writes at the tail of the ring of slot `q`. -/
def entryWords (s : State) (q e tag dom st handle : Nat) (notif : Bool) (res : List Word) : List Word :=
  if s.regs.legacy then legacyWords st tag (slotOf s q).pass e (slotOf s q).qnum (slotOf s q).sqHead res
  else completionWords st tag (genOf s dom).toNat (slotOf s q).pass notif e (slotOf s q).qnum (slotOf s q).owner (slotOf s q).sqHead
    handle res

/-- R72: a slot whose completion ring has taken one more entry. -/
def tailMoved (x : QSlot) : QSlot :=
  { x with cqTail := (x.cqTail + 1) % 2 ^ x.cqLog2, pass := if (x.cqTail + 1) % 2 ^ x.cqLog2 = 0 then !x.pass else x.pass }

theorem writeCompletion_eq (s : State) (q e tag dom st handle : Nat) (notify notif : Bool) (res : List Word) :
    writeCompletion s q e tag dom st handle notify notif res = { setSlot s q (tailMoved (slotOf s q)) with
      out := (if notify && (slotOf s q).irqEn then [.irq (slotOf s q).owner (slotOf s q).vector] else []) ++
        .completion q (slotOf s q).cqTail (entryWords s q e tag dom st handle notif res) :: s.out } := by
  unfold writeCompletion
  extract_lets x ws tail u v
  split <;> rfl

/-- What `complete` finds where it writes the entry: the command has left the flight, and its failure is remembered. -/
def leftFlight (s : State) (c : Cmd) (st : Nat) : State :=
  modSlot (dropCmd s c.q c.e) c.q (fun x => { x with failed := if stGood st then x.failed else x.failed ++ [c.seqNo] })

theorem complete_eq (s : State) (c : Cmd) (st : Nat) (res : List Word) :
    complete s c st res = writeCompletion (leftFlight s c st) c.q c.e c.tag c.dom st 0 c.notify false res := rfl

theorem dropCmd_slots (s : State) (q e : Nat) :
    (∃ d, slotOf (dropCmd s q e) q = { slotOf s q with draining := d }) ∧ ∀ r, r ≠ q → slotOf (dropCmd s q e) r = slotOf s r := by
  unfold dropCmd
  extract_lets u
  split
  · exact ⟨⟨false, slotOf_setSlot _ _ _⟩, fun r hr => slotOf_setSlot_other _ _ _ _ hr⟩
  · exact ⟨⟨_, rfl⟩, fun _ _ => rfl⟩

theorem leftFlight_slots (s : State) (c : Cmd) (st : Nat) :
    (∃ d l, slotOf (leftFlight s c st) c.q = { slotOf s c.q with draining := d, failed := l }) ∧
    ∀ r, r ≠ c.q → slotOf (leftFlight s c st) r = slotOf s r := by
  obtain ⟨⟨d, hd⟩, hother⟩ := dropCmd_slots s c.q c.e
  refine ⟨⟨d, if stGood st then (slotOf s c.q).failed else (slotOf s c.q).failed ++ [c.seqNo], ?_⟩, fun r hr => ?_⟩
  · rw [leftFlight, modSlot, slotOf_setSlot, hd]
  · rw [leftFlight, modSlot, slotOf_setSlot_other _ _ _ _ hr, hother r hr]

theorem leftFlight_keeps (s : State) (c : Cmd) (st : Nat) :
    (leftFlight s c st).out = s.out ∧ (leftFlight s c st).regs = s.regs ∧ (leftFlight s c st).hang = s.hang := by
  have h : erase { fe := true } (leftFlight s c st) = erase { fe := true } s := by simp [leftFlight]
  exact ⟨out_of_erase _ rfl h, regs_of_erase _ rfl h, hang_of_erase _ rfl rfl h⟩

theorem findCmd_complete (s : State) (c : Cmd) (st : Nat) (res : List Word) : findCmd (complete s c st res) c.q c.e = none := by
  rw [complete_eq, writeCompletion_eq]
  exact findCmd_dropCmd s c.q c.e

/-- The entry says what the state before the completion says of slot and generation. -/
theorem entryWords_leftFlight (s : State) (c : Cmd) (st e tag dom st' handle : Nat) (notif : Bool) (res : List Word) :
    entryWords (leftFlight s c st) c.q e tag dom st' handle notif res = entryWords s c.q e tag dom st' handle notif res := by
  obtain ⟨⟨d, l, hx⟩, -⟩ := leftFlight_slots s c st
  obtain ⟨-, hregs, hhang⟩ := leftFlight_keeps s c st
  rw [entryWords, hregs, hx, genOf_of_gens (congrArg (·.gens) hhang), entryWords]

theorem out_complete (s : State) (c : Cmd) (st : Nat) (res : List Word) : (complete s c st res).out =
    (if c.notify && (slotOf s c.q).irqEn then [.irq (slotOf s c.q).owner (slotOf s c.q).vector] else []) ++
      .completion c.q (slotOf s c.q).cqTail (entryWords s c.q c.e c.tag c.dom st 0 false res) :: s.out := by
  obtain ⟨⟨d, l, hx⟩, -⟩ := leftFlight_slots s c st
  obtain ⟨hout, -, -⟩ := leftFlight_keeps s c st
  rw [complete_eq, writeCompletion_eq, entryWords_leftFlight]
  simp only [hx, hout]

theorem slotOf_complete (s : State) (c : Cmd) (st : Nat) (res : List Word) :
    ∃ d l, slotOf (complete s c st res) c.q = tailMoved { slotOf s c.q with draining := d, failed := l } := by
  obtain ⟨⟨d, l, hx⟩, -⟩ := leftFlight_slots s c st
  exact ⟨d, l, by rw [complete_eq, writeCompletion_eq, ← hx]; exact slotOf_setSlot _ _ _⟩

theorem slotOf_complete_other (s : State) (c : Cmd) (st : Nat) (res : List Word) (r : Nat) (hr : r ≠ c.q) :
    slotOf (complete s c st res) r = slotOf s r := by
  rw [complete_eq, writeCompletion_eq]
  exact (slotOf_setSlot_other _ _ _ _ hr).trans ((leftFlight_slots s c st).2 r hr)

/-! ### NOP and FENCE -/

theorem nop_next {s : State} {q e : Nat} {c : Cmd} (hrun : runCmd s q e opNop = some c) (hres : reservedOk c [] = true) :
    exec (.nop q e) s = .next (complete s c stOk []) := by
  rw [exec, execNop, hrun, whenSome_some, hres, if_pos rfl]

theorem fence_next {s : State} {q e : Nat} {c : Cmd} (hrun : runCmd s q e opFence = some c) (hres : reservedOk c [(3, 0xFF)] = true) :
    exec (.fence q e) s = .next (complete s c stOk [w32 (scopeFailures s c)]) := by
  rw [exec, execFence, hrun, whenSome_some, hres]
  rfl

theorem completionWritten : Says.CompletionWritten := by
  intro s q e c hrun hres
  obtain ⟨hfind, -, -⟩ := runCmd_some s q e opNop c hrun
  obtain ⟨rfl, rfl, -⟩ := findCmd_some s q e c hfind
  obtain ⟨d, l, hslot⟩ := slotOf_complete s c stOk []
  refine ⟨_, nop_next hrun hres, findCmd_complete s c stOk [], out_complete s c stOk [], ?_, ?_, slotOf_complete_other s c stOk [], ?_⟩
  · rw [hslot]
    rfl
  · rw [hslot]
    rfl
  · simp

/-- Settles O14: the rows of NOP and FENCE, and what `complete` writes, which NOP's row shows. That FENCE is fenced by its opcode is
log entry 18. -/
theorem commandsCompleteInOrder : Obligations.CommandsCompleteInOrder :=
  ⟨fun _ _ _ _ => ⟨nop_next, fence_next⟩, completionWritten⟩

end Sys2Proof.Machine
end

section
/-! SUPPORT. The fetch of a command and its acceptance checks, the start of held commands, outcomes, and the A+ counter (R79, R83 to R91,
R292, R487). -/

namespace Sys2Proof.Machine

/-! ### The fetch in three parts -/

/-- The command that the front end takes from the submission head of slot `q`. -/
def fetchedCmd (s : State) (q : Nat) (words : List Word) : Cmd :=
  let c : Cmd := { q := q, e := (slotOf s q).sqHead, words := words, seqNo := s.fe.nextSeqNo, scopeFrom := (slotOf s q).lastFence }
  let dom := if opQueueTarget.contains c.opcode then domQueue (slotOf s q).owner (slotOf s q).qnum else cmdDomain c
  { c with dom := dom, gen := genOf s dom, aPlus := needsAuth c }

/-- R86, R487, R73: the cores or the completion ring have no room for it. -/
def noCores (s : State) (q : Nat) (c : Cmd) : Bool := opFw c.opcode && !fwRoom s (slotOf s q).owner
def noRing (s : State) (q : Nat) (c : Cmd) : Bool := mayNotify c && !ringRoom s q 2

/-- R79: the entry is taken: the submission head moves on and the command is in flight, held. -/
def entryTaken (s : State) (q : Nat) (c : Cmd) : State :=
  let x := slotOf s q
  let newTurn := !(decide (0 < s.fe.rrCount) && decide (s.fe.rrCount < 8) && decide (x.owner = s.fe.rrTenant) &&
    decide (x.qnum = tget s.fe.rrQueue 0 s.fe.rrTenant))
  let u : State := setSlot s q { x with
    sqHead := (x.sqHead + 1) % sqDepth x, fwBlocked := false, ringBlocked := false,
    lastFence := if isFence c then c.seqNo else x.lastFence }
  { u with fe := { u.fe with
    flight := u.fe.flight ++ [c], nextSeqNo := u.fe.nextSeqNo + 1, rrTenant := x.owner,
    rrQueue := tset u.fe.rrQueue x.owner x.qnum, rrCount := if newTurn then 1 else u.fe.rrCount + 1 } }

/-- R79: the command is judged by the checks 1 to 5 and starts where it need not wait. -/
def judged (s : State) (x : QSlot) (c : Cmd) : Result :=
  match checks123 s x c with
  | some st => .next (complete s c st [])
  | none =>
    match check4 s c with
    | (some st, u) => .next (complete u c st [])
    | (none, u) =>
      if !genOk u c then .next (complete u c stStaleGen [])
      else if mayStart u c then .next (startCmd u c)
      else .next u

theorem execCommandFetch_eq (s : State) (q : Nat) (words : List Word) : execCommandFetch q words s =
    if words.length ≠ 16 then .fault (.malformed "COMMAND_FETCH")
    else if !(apServed s && s.boot.s1 && fetchTurn s == some q) then idle s "no turn, no room or no entry to fetch"
    else if noCores s q (fetchedCmd s q words) || noRing s q (fetchedCmd s q words) then
      let u := setSlot s q { slotOf s q with
        fwBlocked := noCores s q (fetchedCmd s q words), ringBlocked := noRing s q (fetchedCmd s q words) }
      .next { u with fe := { u.fe with rrCount := 8 } }
    else judged (entryTaken s q (fetchedCmd s q words)) (slotOf s q) (fetchedCmd s q words) := rfl

/-! ### Check 4 -/

/-- R88 to R90: check 4 leaves the state, or takes the counter of a fresh authentication, or counts a failed one. -/
theorem check4_cases (s : State) (c : Cmd) : (check4 s c).2 = s ∨
    (s.cab.aCounter < c.w 13 ∧ (check4 s c).2 =
      writeSnapshot { s with cab := { s.cab with aCounter := c.w 13 }, arm := { s.arm with fails := 0 } }) ∨
    (check4 s c).2 = authFailed s := by
  unfold check4
  split
  · exact .inl rfl
  · split
    · exact .inl rfl
    · split
      · exact .inl rfl
      next key _ =>
        split
        next hok =>
          rw [authOk, Bool.and_eq_true, decide_eq_true_eq] at hok
          exact .inr (.inl ⟨hok.1, rfl⟩)
        next => exact .inr (.inr rfl)

/-- What check 4 may change: no part of the front end. -/
def check4Mask : Mask := { nor := true, arm := true, out := true, status := true, arrivals := true, aCounter := true }

theorem check4_keeps (s : State) (c : Cmd) :
    (check4 s c).2.fe = s.fe ∧ (check4 s c).2.hang = s.hang := by
  have h : erase check4Mask (check4 s c).2 = erase check4Mask s := erase_check4 _ s c rfl rfl rfl rfl rfl rfl
  exact ⟨fe_of_erase _ rfl h, hang_of_erase _ rfl rfl h⟩

/-! ### The A+ counter -/

theorem aCounter_complete (s : State) (c : Cmd) (st : Nat) (res : List Word) : (complete s c st res).cab.aCounter = s.cab.aCounter :=
  aCounter_of_erase { fe := true, out := true } rfl (by simp)

theorem aCounter_startCmd (s : State) (c : Cmd) : (startCmd s c).cab.aCounter = s.cab.aCounter :=
  aCounter_of_erase { fe := true, fields := true, out := true } rfl (by simp)

theorem aCounter_le_check4 (s : State) (c : Cmd) : s.cab.aCounter ≤ (check4 s c).2.cab.aCounter := by
  rcases check4_cases s c with h | ⟨hlt, h⟩ | h
  · rw [h]
  · obtain ⟨nor, hnor⟩ := writeSnapshot_eq { s with cab := { s.cab with aCounter := c.w 13 }, arm := { s.arm with fails := 0 } }
    rw [h, hnor]
    exact hlt.le
  · rw [h]
    exact (aCounter_of_erase { arm := true, out := true, status := true, arrivals := true } rfl (by simp)).ge

/-- R89: of the checks only the fourth sees the counter. -/
theorem aCounter_le_judged {s t : State} {x : QSlot} {c : Cmd} (ht : judged s x c = .next t) : s.cab.aCounter ≤ t.cab.aCounter := by
  have hle := aCounter_le_check4 s c
  unfold judged at ht
  split at ht
  · cases ht
    exact (aCounter_complete ..).ge
  · split at ht
    next hu =>
      rw [hu] at hle
      cases ht
      rwa [aCounter_complete]
    next hu =>
      rw [hu] at hle
      split_ifs at ht
      · cases ht
        rwa [aCounter_complete]
      · cases ht
        rwa [aCounter_startCmd]
      · cases ht
        exact hle

theorem aCounter_le_commandFetch {s t : State} {q : Nat} {ws : List Word} (ht : exec (.commandFetch q ws) s = .next t) :
    s.cab.aCounter ≤ t.cab.aCounter := by
  rw [exec, execCommandFetch_eq] at ht
  split_ifs at ht
  · cases ht
    exact le_rfl
  · cases ht
    exact le_rfl
  · exact aCounter_le_judged (s := entryTaken s q (fetchedCmd s q ws)) ht

/-- The loss of a zone that leaves the hub its feed leaves the counter. -/
theorem aCounter_zonePgoodLoss {s t : State} {z : Nat} (hfeed : feedGone (setPgood s z false) = false)
    (ht : exec (.zonePgoodLoss z) s = .next t) : t.cab.aCounter = s.cab.aCounter := by
  rw [exec, execZonePgoodLoss_eq, feedGone_afterZoneLoss, hfeed] at ht
  split at ht
  · cases ht
  · obtain ⟨-, rfl⟩ | ⟨-, rfl⟩ := (whenOk_next ..).mp ht
    · exact aCounter_of_erase zoneLossMask rfl (zoneLossMask_afterZoneLoss s z)
    · rfl

/-- The rows whose frame lists the A+ counter. -/
def mayChangeAplus : Instr → Bool
  | .commandFetch .. | .powerOn .. | .hubFeedLoss | .zonePgoodLoss .. => true
  | _ => false

theorem changes_aCounter (i : Instr) (h : mayChangeAplus i = false) : (changes i).aCounter = false := by
  cases i with
  | commandFetch | powerOn | hubFeedLoss | zonePgoodLoss => cases h
  | _ => rfl

/-- Settles O7: of the rows whose frame lists the counter only COMMAND_FETCH is left while the feed stands; its fourth check takes a
counter that is higher than the last. -/
theorem aplusCounterNeverFalls : Obligations.AplusCounterNeverFalls := by
  intro s t i hfeed hon ht
  cases hi : mayChangeAplus i with
  | false =>
    have h := aCounter_of_erase _ (changes_aCounter i hi) (erase_exec i s t ht)
    exact ⟨h.ge, fun _ => h⟩
  | true =>
    cases i with
    | commandFetch q ws => exact ⟨aCounter_le_commandFetch ht, fun h => absurd rfl (h q ws)⟩
    | powerOn found => exact absurd rfl (hon found)
    | hubFeedLoss => cases hfeed
    | zonePgoodLoss z =>
      have h := aCounter_zonePgoodLoss hfeed ht
      exact ⟨h.ge, fun _ => h⟩
    | _ => cases hi

end Sys2Proof.Machine
end

section
/-! SUPPORT. COMMAND_FETCH, held commands, the cores, outcomes and a queue fault (R79, R83 to R87, R91, R98, R292, R487), and the frame
of the queue commands. -/

namespace Sys2Proof.Machine

/-- Settles O56: the frame that every command has. -/
theorem frameOfQueueCommands : Obligations.FrameOfQueueCommands :=
  fun i s t _ h => erase_exec i s t h

/-! ### Whose turn it is -/

theorem fetchable_of_slotFetchable {s : State} {o : Option Nat} {q : Nat} (h : slotFetchable s o = some q) : fetchable s q = true := by
  unfold slotFetchable at h
  split at h
  · split at h
    next hf =>
      cases h
      exact hf
    next => cases h
  · cases h

/-- R87: the turn goes only to a slot that may be fetched from. -/
theorem fetchable_of_fetchTurn {s : State} {q : Nat} (h : fetchTurn s = some q) : fetchable s q = true := by
  unfold fetchTurn at h
  dsimp only at h
  split at h
  next hcur =>
    cases h
    split at hcur
    · exact fetchable_of_slotFetchable hcur
    · cases hcur
  next =>
    obtain ⟨e, -, he⟩ := List.exists_of_findSome?_eq_some h
    exact fetchable_of_slotFetchable he

/-- R75: an entry whose last command is still in flight is not fetched. -/
theorem findCmd_head_none {s : State} {q : Nat} (h : fetchTurn s = some q) : findCmd s q (slotOf s q).sqHead = none := by
  have hf := fetchable_of_fetchTurn h
  simp only [fetchable, Bool.and_eq_true, Option.isNone_iff_eq_none] at hf
  exact hf.2

/-! ### The entry is taken -/

section
variable {s : State} {q : Nat} {ws : List Word}

/-- R79: with the turn, and room for the cores and on the ring, the command is judged. -/
theorem commandFetch_judges (hlen : ws.length = 16) (hap : apServed s = true) (hs1 : s.boot.s1 = true) (hturn : fetchTurn s = some q)
    (hcores : opFw (fetchedCmd s q ws).opcode = true → fwRoom s (slotOf s q).owner = true)
    (hring : mayNotify (fetchedCmd s q ws) = true → ringRoom s q 2 = true) :
    exec (.commandFetch q ws) s = judged (entryTaken s q (fetchedCmd s q ws)) (slotOf s q) (fetchedCmd s q ws) := by
  have hroom : noCores s q (fetchedCmd s q ws) = false ∧ noRing s q (fetchedCmd s q ws) = false := by
    constructor
    · rw [noCores, Bool.and_eq_false_imp]
      intro h
      simp [hcores h]
    · rw [noRing, Bool.and_eq_false_imp]
      intro h
      simp [hring h]
  rw [exec, execCommandFetch_eq, if_neg (by simp [hlen]), if_neg (by simp [hap, hs1, hturn]), if_neg (by simp [hroom])]

/-- R79, checks 1 to 3 read the command's words, LEGACY_FMT and the lock: neither has changed since the entry was taken. -/
theorem checks123_entryTaken (x : QSlot) (c : Cmd) : checks123 (entryTaken s q c) x c = checks123 s x c := rfl

theorem findCmd_entryTaken {c : Cmd} (hq : c.q = q) (hnone : findCmd s q c.e = none) : findCmd (entryTaken s q c) q c.e = some c := by
  have hflight : (entryTaken s q c).fe.flight = s.fe.flight ++ [c] := rfl
  rw [findCmd, hflight, List.find?_append]
  rw [findCmd] at hnone
  simp [hnone, hq]

theorem slotOf_entryTaken (c : Cmd) : (slotOf (entryTaken s q c) q).sqHead = ((slotOf s q).sqHead + 1) % 2 ^ (slotOf s q).sqLog2 :=
  congrArg QSlot.sqHead (slotOf_setSlot s q _)

end

/-! ### What passes the checks 1 to 4 -/

/-- R455: the key of an authentication; a sealed Armoire has none. -/
def adminKey (s : State) : Option (List Byte) := if s.arm.unsealed then s.arm.admin else none

/-- R88 to R90: how check 4 fails. -/
theorem check4_fst (s : State) (c : Cmd) : (check4 s c).1 =
    if !privOk s c then some stDenied else if !needsAuth c then none
    else (adminKey s).elim (some stDenied) (fun key => if authOk s c key then none else some stDenied) := by
  unfold check4
  split
  · rfl
  · split
    · rfl
    · split
      next hkey => rw [adminKey, hkey, Option.elim_none]
      next key hkey =>
        rw [adminKey, hkey, Option.elim_some]
        split <;> rfl

theorem genOk_of_noCheck {s : State} {c : Cmd} (h : c.genCheck = false) : genOk s c = true := by
  simp [genOk, h]

theorem scopeFailures_of_fe {s t : State} (h : t.fe = s.fe) (c : Cmd) : scopeFailures t c = scopeFailures s c := by
  rw [scopeFailures, slotOf_of_slots (congrArg (·.slots) h), scopeFailures]

/-- R82, R83, R100: with nothing else in flight and no reset running a command need not wait. -/
theorem mayStart_alone {s : State} {c : Cmd} (hflight : s.fe.flight = [c]) (hrun : s.hang.running = []) : mayStart s c = true := by
  simp [mayStart, hflight, domInReset, hrun]

/-- R79: a command that passes the checks 1 to 4, checks no generation and is not fenced is in flight and starts, or waits held. -/
theorem judged_accepts {s : State} {x : QSlot} {c : Cmd} (h123 : checks123 s x c = none) (h4 : (check4 s c).1 = none)
    (hgen : c.genCheck = false) (hfence : isFence c = false) (hfind : findCmd s c.q c.e = some c) :
    ∃ t d, judged s x c = .next t ∧ findCmd t c.q c.e = some d ∧ d.words = c.words ∧ t.fe.slots = s.fe.slots ∧
      t.fe.nextSeqNo = s.fe.nextSeqNo ∧ (s.fe.flight = [c] → s.hang.running = [] → d.phase = startPhase c) := by
  obtain ⟨hfe, hhang⟩ := check4_keeps s c
  rw [judged, h123]
  dsimp only
  split
  next hu => simp [hu] at h4
  next u hu =>
    rw [hu] at hfe hhang
    dsimp only at hfe hhang
    have hg : genOk u c = true := genOk_of_noCheck hgen
    have hfind : findCmd u c.q c.e = some c := (findCmd_of_flight (congrArg (·.flight) hfe) ..).trans hfind
    rw [if_neg (by simp [hg])]
    cases hmay : mayStart u c
    · refine ⟨u, c, by simp, hfind, rfl, by rw [hfe], by rw [hfe], fun hflight hrun => ?_⟩
      rw [mayStart_alone (by rw [hfe, hflight]) (by rw [hhang, hrun])] at hmay
      cases hmay
    · have hstart := startCmd_starts (.inl hfence) hg
      exact ⟨startCmd u c, _, by simp, findCmd_startCmd hfind (.inl hfence) hg, rfl, by rw [hstart, ← hfe]; rfl,
        by rw [hstart, ← hfe]; rfl, fun _ _ => rfl⟩

theorem fetchAccepts : Says.FetchAccepts := by
  rintro s q ws c hlen hap hs1 hturn rfl hcores hring h123 h4 hgen hfence
  have h4' : (check4 (entryTaken s q (fetchedCmd s q ws)) (fetchedCmd s q ws)).1 = none := by
    rw [check4_fst] at h4 ⊢
    exact h4
  have hfind := findCmd_entryTaken (s := s) (c := fetchedCmd s q ws) rfl (findCmd_head_none hturn)
  obtain ⟨t, d, ht, hd, hwords, hslots, hseq, hphase⟩ :=
    judged_accepts (x := slotOf s q) (s := entryTaken s q (fetchedCmd s q ws)) (c := fetchedCmd s q ws) h123 h4' hgen hfence hfind
  refine ⟨t, d, (commandFetch_judges hlen hap hs1 hturn hcores hring).trans ht, hd, hwords, ?_, hseq, fun hflight hrun => ?_⟩
  · rw [slotOf_of_slots hslots, slotOf_entryTaken]
  · refine hphase ?_ hrun
    show s.fe.flight ++ [_] = [_]
    rw [hflight, List.nil_append]

theorem fetchRejects : Says.FetchRejects := by
  rintro s q ws st c hlen hap hs1 hturn rfl hcores hring h123
  refine ⟨_, entryTaken s q (fetchedCmd s q ws), fetchedCmd s q ws, ?_, rfl, rfl, rfl, rfl⟩
  have hchecks : checks123 (entryTaken s q (fetchedCmd s q ws)) (slotOf s q) (fetchedCmd s q ws) = some st := h123
  rw [commandFetch_judges hlen hap hs1 hturn hcores hring, judged, hchecks]

/-! ### A queue fault -/

theorem queueFaultAsksReset : Says.QueueFaultAsksReset := by
  intro s q hap hslot
  have hon : ((slotOf s q).enable || (slotOf s q).draining) = true := by simpa using hslot
  refine ⟨autoReset s 0 (domQueue (slotOf s q).owner (slotOf s q).qnum) 0x0A, ?_, ?_, fun hrun hwait => ?_⟩
  · rw [exec, execQueueFault, hap, hon, Bool.and_self, whenOk_true]
  · exact gens_of_erase { hang := true } rfl (by simp)
  · rw [autoReset, hrun, hwait, if_neg (by decide), requestReset]

/-- Settles O13: a fetched entry is taken and judged by its checks; a fault of the slot asks for a reset. -/
theorem fetchAndQueueFault : Obligations.FetchAndQueueFault := ⟨fetchAccepts, fetchRejects, queueFaultAsksReset⟩

/-! ### Held commands -/

theorem orderedCommandStart_next {s : State} {q e : Nat} {c : Cmd} (hap : apServed s = true) (hfind : findCmd s q e = some c)
    (hheld : c.phase = .held) (hmay : mayStart s c = true) : exec (.orderedCommandStart q e) s = .next (startCmd s c) := by
  rw [exec, execOrderedCommandStart, hfind, whenSome_some, hap, hheld, hmay]
  rfl

theorem startCmd_fenceAbort {s : State} {c : Cmd} (hf : isFence c = true) (hn : 0 < scopeFailures s c) :
    startCmd s c = complete s c stFenceAbort (if c.opcode = opFence then [w32 (scopeFailures s c)] else []) := by
  rw [startCmd, if_pos (by simp [hf, hn])]

theorem startCmd_stale {s : State} {c : Cmd} (hf : isFence c = false ∨ scopeFailures s c = 0) (hg : genOk s c = false) :
    startCmd s c = complete s c stStaleGen [] := by
  rw [startCmd, if_neg (by rcases hf with h | h <;> simp [h]), if_pos (by simp [hg])]

theorem heldCommandStarts : Says.HeldCommandStarts := by
  intro s q e c hap hfind hheld hmay
  obtain ⟨rfl, rfl, -⟩ := findCmd_some s q e c hfind
  rw [orderedCommandStart_next hap hfind hheld hmay]
  refine ⟨fun hf hn => by rw [startCmd_fenceAbort hf hn], fun hf hg => by rw [startCmd_stale hf hg], fun hf hg => ?_⟩
  exact ⟨_, _, rfl, findCmd_startCmd hfind hf hg, rfl, rfl⟩

/-! ### Cores and outcomes -/

theorem fwCommandDispatch_next {s : State} {c : Cmd} (hnext : nextForCores s = some c) (hap : apServed s = true)
    (hfw : s.hang.fwUp = true) (hcores : (s.fe.flight.filter (fun d => opFw d.opcode && d.phase == .running)).length < 4) :
    exec .fwCommandDispatch s = .next (hubRequest
      (modCmd { s with fe := { s.fe with fwTenant := (slotOf s c.q).owner } } c.q c.e (fun d => { d with phase := .running })) c) := by
  rw [exec, execFwCommandDispatch, hnext, whenSome_some, hap, hfw, decide_eq_true hcores]
  rfl

/-- R85: the operation's handle ends. -/
def handleEnded (s : State) (h : Nat) : State := { s with fe := { s.fe with ops := s.fe.ops.filter (fun p => p.handle != h) } }

/-- R85: the outcome is posted where a notification was asked for. -/
def outcomePosted (s : State) (o : Op) (st : Nat) (res : List Word) : State :=
  if o.notify then writeCompletion (modSlot (handleEnded s o.handle) o.q (fun x => { x with reserved := x.reserved - 1 }))
    o.q o.e o.tag o.dom st o.handle true true res
  else handleEnded s o.handle

theorem operationOutcome_next {s : State} {o : Op} {st : Nat} {res : List Word} (hap : apServed s = true)
    (hfind : s.fe.ops.find? (fun p => p.handle == o.handle && p.final.isSome) = some o) (hfinal : o.final = some (st, res)) :
    exec (.operationOutcome o.handle) s = .next (outcomePosted s o st res) := by
  rw [exec, execOperationOutcome, hap, if_pos rfl, hfind, whenSome_some, outcomePosted]
  cases hn : o.notify
  · rfl
  · simp only [hfinal]
    rfl

theorem ops_outcomePosted (s : State) (o : Op) (st : Nat) (res : List Word) :
    (outcomePosted s o st res).fe.ops = (handleEnded s o.handle).fe.ops := by
  rw [outcomePosted]
  split
  · rw [writeCompletion_eq]
    rfl
  · rfl

theorem coresAndOutcomes : Says.CoresAndOutcomes := by
  refine ⟨fun s c hnext hap hfw hcores hfind => ?_, fun s o st res hap hfind hfinal => ?_⟩
  · refine ⟨_, { c with phase := .running }, fwCommandDispatch_next hnext hap hfw hcores, ?_, rfl, rfl⟩
    rw [findCmd_of_flight (congrArg (·.flight) (fe_hubRequest _ c))]
    exact findCmd_modCmd (s := { s with fe := { s.fe with fwTenant := (slotOf s c.q).owner } }) hfind _ (fun _ => ⟨rfl, rfl⟩)
  · refine ⟨_, operationOutcome_next hap hfind hfinal, fun p hp => ?_, fun hn => ?_, fun hn hleg hirq => ?_⟩
    · rw [ops_outcomePosted] at hp
      simpa using (List.mem_filter.mp hp).2
    · rw [outcomePosted, if_neg (by simp [hn])]
      rfl
    · have hx : slotOf (modSlot (handleEnded s o.handle) o.q (fun x => { x with reserved := x.reserved - 1 })) o.q =
          { slotOf s o.q with reserved := (slotOf s o.q).reserved - 1 } := slotOf_setSlot _ _ _
      rw [outcomePosted, if_pos hn, writeCompletion_eq, entryWords, hx]
      simp [hirq, hleg, handleEnded]
      rfl

/-- Settles O15: a held command by what `startCmd` makes of it, the cores by the command whose turn it is, an outcome by NOTIFY. That a
fence's failures are judged before the generation is log entry 17, and that the FENCE opcode is fenced log entry 18. -/
theorem commandsStartAndEnd : Obligations.CommandsStartAndEnd := ⟨heldCommandStarts, coresAndOutcomes⟩

end Sys2Proof.Machine
end

section
/-! SUPPORT. QUERY_MAP, SPARE_STATUS and SIG_EXPORT (R5, R76, R258, R283, R491). -/

namespace Sys2Proof.Machine

/-! ### QUERY_MAP -/

theorem bit01_mul (b : Bool) (n : Nat) : bit01 b * n = if b then n else 0 := by
  cases b <;> simp [bit01]

section
variable {s : State} {q e : Nat} {c : Cmd} {y : Part} (hrun : runCmd s q e opQueryMap = some c) (hy : partOf s c.part = some y)
  (hres : reservedOk c [(3, 0x1FFFFFF)] = true) (hhas : partHas y (taField (c.f 3 0 24)) = true)
include hrun hy hres hhas

/-- R491: of a logical tile the physical tile that serves it, or none. -/
theorem queryMap_logical {a : Nat} {x : Field} (ha : a = c.f 3 0 24) (hx : x = fieldOf s (taField a)) (hb : c.b 3 24 = false)
    (hok : logicalOk a = true) (hlow : x.redund = true → taY a < 48) :
    exec (.queryMap q e) s = .next (complete s c stOk (
      if ownerOf x (posOf x (taPlace a)) = unfilled then
        [w32 0xFFFFFF, w32 0xFFFFFF, w32 5, w32 (bit01 x.epoch),
         w32 (0xFFFFFF + if y.redund || x.redund then 2 ^ 24 else 0)]
      else
        [w32 (pa (taField a) (ownerOf x (posOf x (taPlace a))) + 2 ^ 24), w32 (pairedAddr s (taField a) (posOf x (taPlace a))),
         w32 (mapState s (taField a) (ownerOf x (posOf x (taPlace a))) +
           recordedFmax s (pa (taField a) (ownerOf x (posOf x (taPlace a)))) * 2 ^ 4), w32 (bit01 x.epoch),
         w32 ((if x.redund then ownerAddr x (taField a) (shadowPos (taPlace a)) else 0xFFFFFF) +
           if y.redund || x.redund then 2 ^ 24 else 0)])) := by
  subst ha hx
  have hgrid : ¬ (!logicalOk (c.f 3 0 24) || ((fieldOf s (taField (c.f 3 0 24))).redund && decide (48 ≤ taY (c.f 3 0 24)))) = true := by
    simpa [hok] using hlow
  rw [exec, execQueryMap, hrun, whenSome_some, hy]
  dsimp only
  rw [if_neg (by simp [hres, hhas]), if_neg (by simp [hb]), if_neg hgrid, bit01_mul]
  split
  · rfl
  · rfl

/-- R491: of a physical tile the logical tile that it serves, or none. -/
theorem queryMap_physical {a : Nat} {x : Field} (ha : a = c.f 3 0 24) (hx : x = fieldOf s (taField a)) (hb : c.b 3 24 = true)
    (hok : physicalOk a = true) :
    exec (.queryMap q e) s = .next (complete s c stOk (
      (servedBy x (taPlace a)).elim
        [w32 0xFFFFFF, w32 0xFFFFFF, w32 (mapState s (taField a) (taPlace a) + recordedFmax s a * 2 ^ 4), w32 (bit01 x.epoch),
         w32 (0xFFFFFF + if y.redund || x.redund then 2 ^ 24 else 0)]
        (fun pos => [w32 (tileAddr (taField a) false (placeOfPos x pos) + 2 ^ 24), w32 (pairedAddr s (taField a) pos),
          w32 (mapState s (taField a) (taPlace a) + recordedFmax s a * 2 ^ 4), w32 (bit01 x.epoch),
          w32 ((if x.redund then ownerAddr x (taField a) (partnerPos pos) else 0xFFFFFF) +
            if y.redund || x.redund then 2 ^ 24 else 0)]))) := by
  subst ha hx
  rw [exec, execQueryMap, hrun, whenSome_some, hy]
  dsimp only
  rw [if_neg (by simp [hres, hhas]), if_pos hb, if_neg (by simp [hok]), bit01_mul]
  cases servedBy (fieldOf s (taField (c.f 3 0 24))) (taPlace (c.f 3 0 24)) <;> rfl

end

theorem queryMapAnswers : Says.QueryMapAnswers := by
  rintro s q e c y hrun hy hres hhas x a f pl red none_ ha rfl rfl hx rfl rfl
  refine ⟨fun hb hok hlow p hp => ⟨fun hne => ?_, fun heq => ?_⟩, fun hb hok => ⟨fun pos hpos => ?_, fun hnone => ?_⟩⟩
  · rw [queryMap_logical hrun hy hres hhas ha hx hb hok hlow, if_neg (hp ▸ hne), hp]
    rfl
  · rw [queryMap_logical hrun hy hres hhas ha hx hb hok hlow, if_pos (hp ▸ heq)]
  · rw [queryMap_physical hrun hy hres hhas ha hx hb hok, hpos, Option.elim_some]
  · rw [queryMap_physical hrun hy hres hhas ha hx hb hok, hnone, Option.elim_none]

/-! ### SPARE_STATUS -/

theorem spareStatus_next {s : State} {q e : Nat} {c : Cmd} (hleg : s.regs.legacy = false)
    (hrun : runCmd s q e opSpareStatus = some c) (hk : c.f 3 0 7 < 84 ∨ c.f 3 0 7 = 127) (hdesc : outDescOk c = true)
    (hres : reservedOk c [(3, 0x7F), (11, 0xFFFFFFFF), (12, 0xFFFFFFFF), (13, 0xFFFFFFFF)] = true) {fs : List Nat} {res : List Word}
    (hfs : fs = (if c.f 3 0 7 < 84 then [c.f 3 0 7] else if c.tenant = 0 ∧ c.priv then allFields
      else allFields.filter (fun f => fieldTenant s f == some c.tenant)))
    (hsums : res = [w32 ((fs.map (spareCount s)).map (·.free)).sum, w32 ((fs.map (spareCount s)).map (·.suspect)).sum,
      w32 ((fs.map (spareCount s)).map (·.quar)).sum, w32 ((fs.map (spareCount s)).map (·.rows)).sum,
      w32 ((fs.map (spareCount s)).map (·.lent)).sum]) :
    exec (.spareStatus q e) s = .next (if outPresent c then completeBulk s c stOk res (fs.flatMap (spareRecord s))
      else complete s c stOk res) := by
  have hfield : ¬ (84 ≤ c.f 3 0 7 ∧ c.f 3 0 7 ≠ 127) := by omega
  subst hfs hsums
  rw [exec, execSpareStatus, hrun, whenSome_some]
  dsimp only
  rw [if_neg (by simpa [hres, hdesc] using hfield), if_neg (by simp [hleg])]
  split
  · rfl
  · rfl

/-! ### SIG_EXPORT -/

/-- R76: no bulk data fits every buffer. -/
theorem completeBulk_nil (s : State) (c : Cmd) (st : Nat) (res : List Word) : completeBulk s c st res [] = complete s c st res := by
  simp [completeBulk]

section
variable {s : State} {q e : Nat} {c : Cmd} (hrun : runCmd s q e opSigExport = some c) (hdesc : outDescOk c = true)
  (hres : reservedOk c [(3, 0xFFFFFFFF), (4, 0xFFFFFFFF), (11, 0xFFFFFFFF), (12, 0xFFFFFFFF), (13, 0xFFFFFFFF)] = true)
include hrun hdesc hres

/-- R283: no signature is held at or above the number. -/
theorem sigExport_none (hnone : ∀ g ∈ heldSignatures s, g.1 < c.w 3) :
    exec (.sigExport q e) s = .next (complete s c stOk [0, 0, w32 s.hutch.img.nextSig]) := by
  have hheld : (heldSignatures s).filter (fun g => decide (c.w 3 ≤ g.1)) = [] := by
    simpa [List.filter_eq_nil_iff] using hnone
  rw [exec, execSigExport, hrun, whenSome_some, if_neg (by simp [hres, hdesc])]
  simp only [hheld, List.take_nil, List.reverse_nil, List.flatMap_nil, completeBulk_nil]
  rfl

/-- R283: the first signatures at or above the number, as many as buffer and count allow. -/
theorem sigExport_some {out : List (Nat × List Word)} {g : Nat × List Word} (hroom : 392 ≤ outLen c)
    (hout : out = ((heldSignatures s).filter (fun g => decide (c.w 3 ≤ g.1))).take
      (if c.w 4 = 0 then outLen c / 392 else min (outLen c / 392) (c.w 4))) (hlast : out.getLast? = some g) :
    exec (.sigExport q e) s = .next (completeBulk s c stOk [w32 out.length, w32 (392 * out.length), w32 (g.1 + 1)]
      (out.flatMap (·.2))) := by
  have hpos : outLen c / 392 ≠ 0 := by omega
  obtain ⟨l, hl⟩ : ∃ l, out.reverse = g :: l := by
    obtain ⟨l, rfl⟩ := List.getLast?_eq_some_iff.mp hlast
    exact ⟨l.reverse, by simp⟩
  rw [exec, execSigExport, hrun, whenSome_some, if_neg (by simp [hres, hdesc])]
  dsimp only
  rw [if_neg (by simp [hpos]), ← hout, hl]

end

/-- Settles O22: each query by the tiles, fields or signatures that it names. That SPARE_STATUS of the wafer is tenant 0's with PRIV alone
is log entry 25. -/
theorem queriesAnswer : Obligations.QueriesAnswer := by
  refine ⟨queryMapAnswers, fun s q e c hleg => ⟨fun hrun hk hdesc hres fs res hfs hsums => ?_, fun hrun hdesc hres => ⟨?_, ?_⟩⟩⟩
  · exact spareStatus_next hleg hrun hk hdesc hres hfs hsums
  · exact sigExport_none hrun hdesc hres
  · exact fun _ _ hroom hout hlast => sigExport_some hrun hdesc hres hroom hout hlast

end Sys2Proof.Machine
end

section
/-! SUPPORT. MAP_GRID DEFINE and the settings of a partition (R17, R81, R95, R125, R141, R146, R175, R358). -/

namespace Sys2Proof.Machine

/-! ### Settings come into force -/

@[simp] theorem parts_applySettings (s : State) (f : Nat) : (applySettings s f).parts = s.parts :=
  parts_of_erase { fe := true, fields := true, guards := true, out := true } rfl (by simp)

theorem parts_foldl {α : Type} (u : State → α → State) (h : ∀ s a, (u s a).parts = s.parts) (l : List α) (s : State) :
    (l.foldl u s).parts = s.parts := by
  induction l generalizing s with
  | nil => rfl
  | cons a l ih => rw [List.foldl_cons, ih, h]

@[simp] theorem parts_complete (s : State) (c : Cmd) (st : Nat) (res : List Word) : (complete s c st res).parts = s.parts :=
  parts_of_erase { fe := true, out := true } rfl (by simp)

@[simp] theorem parts_completeRes (s : State) (c : Cmd) (st : Nat) (res : List Word) : (completeRes s c st res).parts = s.parts :=
  parts_of_erase { fe := true, out := true } rfl (by simp)

@[simp] theorem parts_setMarks (s : State) (fs : List Nat) (t : Nat) : (setMarks s fs t).parts = s.parts :=
  parts_of_erase { nor := true, cab := true } rfl (by simp)

/-! ### MAP_GRID DEFINE -/

section
variable {s : State} {q e : Nat} {c : Cmd} (hrun : runCmd s q e opMapGrid = some c) (hdef : c.f 3 0 2 = 1)
  (hleg : s.regs.legacy = false)
  (hres : reservedOk c [(3, 7), (4, 0x000F77FF), (11, 0xFFFFFFFF), (12, 0xFFFFFFFF), (13, 0xFFFFFFFF)] = true)
  (hcol : (definedPart c).colLo ≤ (definedPart c).colHi) (hcol11 : (definedPart c).colHi ≤ 11)
  (hrow : (definedPart c).rowLo ≤ (definedPart c).rowHi) (hrow6 : (definedPart c).rowHi ≤ 6)
include hrun hdef hleg hres hcol hcol11 hrow hrow6

/-- R95: DEFINE of a rectangle of the wafer, by what stands in its fields' way. -/
theorem mapGridDefine_judges : exec (.mapGridDefine q e) s =
    let fs := partFields (definedPart c)
    if fs.any (fun f => (fieldPart s f).isSome ||
        !(tget s.cab.marks 0 f == 0 || tget s.cab.marks 0 f == (definedPart c).tenant)) then .next (complete s c stDenied [])
    else if (partOf s c.part).isSome then .next (complete s c stBadParam [])
    else if fs.any (fun f => (fieldOf s f).excluded || decide (24 < (s.hutch.img.badSlots.filter (fun b => b.1 == f)).length)) then
      .next (complete s c stShortfall [])
    else if fs.any (fun f => notReady (fieldOf s f)) then .next (complete s c stBusy [])
    else .next (completeRes (fs.foldl applySettings (setMarks (setPart s c.part (definedPart c)) fs (definedPart c).tenant)) c
      stOk []) := by
  rw [exec, execMapGridDefine, hrun, whenSome_some, if_neg (by simp [hdef])]
  dsimp only
  rw [if_neg]
  · rfl
  · rw [definedPart] at hcol hcol11 hrow hrow6
    simpa [hres, hleg] using ⟨⟨⟨hcol11, hcol⟩, hrow6⟩, hrow⟩

end

theorem defineCreatesPartition : Says.DefineCreatesPartition := by
  intro s q e c hrun hdef hleg hres hnone hcol hcol11 hrow hrow6 hfree
  let u := (partFields (definedPart c)).foldl applySettings
    (setMarks (setPart s c.part (definedPart c)) (partFields (definedPart c)) (definedPart c).tenant)
  have hparts : (completeRes u c stOk []).parts = (setPart s c.part (definedPart c)).parts := by
    rw [parts_completeRes, parts_foldl _ parts_applySettings, parts_setMarks]
  refine ⟨completeRes u c stOk [], u, ?_, rfl, ?_, fun p hp => ?_⟩
  · have hclear : (partFields (definedPart c)).any (fun f => (fieldPart s f).isSome ||
        !(tget s.cab.marks 0 f == 0 || tget s.cab.marks 0 f == (definedPart c).tenant)) = false := by
      rw [List.any_eq_false]
      intro f hf
      obtain ⟨hpart, hmark, -⟩ := hfree f hf
      rcases hmark with h | h <;> simp [hpart, h]
    have hwhole : (partFields (definedPart c)).any (fun f => (fieldOf s f).excluded ||
        decide (24 < (s.hutch.img.badSlots.filter (fun b => b.1 == f)).length)) = false := by
      rw [List.any_eq_false]
      intro f hf
      obtain ⟨-, -, hexcl, -, hslots⟩ := hfree f hf
      simp [hexcl, hslots]
    have hready : (partFields (definedPart c)).any (fun f => notReady (fieldOf s f)) = false := by
      rw [List.any_eq_false]
      intro f hf
      obtain ⟨-, -, -, hready, -⟩ := hfree f hf
      simp [hready]
    rw [mapGridDefine_judges hrun hdef hleg hres hcol hcol11 hrow hrow6]
    dsimp only
    rw [hclear, hnone, hwhole, hready]
    rfl
  · rw [partOf_of_parts hparts, partOf_setPart]
  · rw [partOf_of_parts hparts, partOf_setPart_other _ _ _ _ hp]

theorem defineDenied : Says.DefineDenied := by
  intro s q e f c hrun hdef hleg hres hcol hcol11 hrow hrow6 hf hheld
  have hclash : (partFields (definedPart c)).any (fun f => (fieldPart s f).isSome ||
      !(tget s.cab.marks 0 f == 0 || tget s.cab.marks 0 f == (definedPart c).tenant)) = true :=
    List.any_eq_true.mpr ⟨f, hf, by simpa using hheld⟩
  rw [mapGridDefine_judges hrun hdef hleg hres hcol hcol11 hrow hrow6]
  exact if_pos hclash

/-- Settles O16: DEFINE is denied where a field has a holder or a mark, and creates the partition where nothing stands in its way. -/
theorem defineCreatesOrDenies : Obligations.DefineCreatesOrDenies := ⟨defineCreatesPartition, defineDenied⟩

/-! ### How a setting completes -/

theorem settingsComplete : Says.SettingsComplete := by
  intro s c p st res y hy hfind
  refine ⟨fun hnone => ?_, fun hsome hfs => ?_⟩
  · have hwaits : settingWaits s p = [] := by simp [settingWaits, hy, hnone]
    exact ⟨(fieldsOfPart s p).foldl applySettings s, by rw [applySetting, hwaits]; rfl⟩
  · have hwaits : settingWaits s p = partFields y := by simp [settingWaits, hy, hsome]
    refine ⟨{ c with phase := .applying, waits := partFields y, status := st, results := res }, ?_, rfl, rfl, rfl, rfl⟩
    rw [applySetting, hwaits, if_neg (by simpa using hfs), applyAt, if_neg (by simpa using hfs)]
    exact findCmd_modCmd hfind _ (fun _ => ⟨rfl, rfl⟩)

section
variable {s : State} {q e : Nat} {c : Cmd} {y : Part} (hy : partOf s c.part = some y)
include hy

/-- R125: with no injection asked for. -/
theorem checkPolicy_next (hrun : runCmd s q e opCheckPolicy = some c) (hres : reservedOk c [(3, 0xF), (4, 0xFFFFFFFF)] = true)
    (hno : bitAt (c.f 3 0 4) 3 = false) : exec (.checkPolicy q e) s = .next (applySetting (setPart s c.part { y with
      policy := if c.tenant = 0 then c.f 3 0 4 else (y.policy &&& 5) ||| (c.f 3 0 4 &&& 2) }) c c.part stOk [w32 y.policy]) := by
  rw [exec, execCheckPolicy, hrun, whenSome_some, hy]
  dsimp only
  rw [if_neg (by simp [hres, hno]), if_neg (by simp [hno])]
  cases injectionTile s y (c.f 4 0 24)
  · rfl
  · simp [hno]

theorem spotRate_next (hrun : runCmd s q e opSpotRate = some c) (hres : reservedOk c [(3, 0x1F)] = true) (hn : c.f 3 0 5 ≤ 12) :
    exec (.spotRate q e) s =
      let cap := ((partFields y).map (fun f => lendingCap s f)).foldl min 10000
      if cap = 0 then .next (complete s c stShortfall [w32 y.spotN, 0])
      else .next (applySetting (setPart s c.part { y with spotN := c.f 3 0 5 }) c c.part stOk [w32 y.spotN, w32 cap]) := by
  rw [exec, execSpotRate, hrun, whenSome_some, hy]
  dsimp only
  rw [if_neg (by simp [hres, hn])]

theorem replayPolicy_next (hrun : runCmd s q e opReplayPolicy = some c) (hres : reservedOk c [(3, 0xFF03)] = true)
    (hlow : 1 ≤ c.f 3 8 8) (hhigh : c.f 3 8 8 ≤ 100) : exec (.replayPolicy q e) s = .next (applySetting
      (setPart s c.part { y with spareFirst := c.b 3 0, lateOk := c.b 3 1, warnPct := c.f 3 8 8 }) c c.part stOk
      [w32 (replayWord3 y)]) := by
  have hpct : c.f 3 8 8 ≠ 0 := by omega
  rw [exec, execReplayPolicy, hrun, whenSome_some, hy]
  dsimp only
  rw [if_neg (by simp [hres, hpct, hhigh])]

/-- R146: the redundancy of a partition without a program. -/
theorem redundancy_sets (hrun : runCmd s q e opRedundancy = some c) (hres : reservedOk c [(3, 1)] = true) (hprog : y.prog = none)
    (hfit : c.b 3 0 = true → ∀ f ∈ partFields y, (borrowFor s f (layoutClock s f y.opmode true) true).isSome = true) :
    ∃ t, exec (.redundancy q e) s = .next t ∧ partOf t c.part = some { y with redund := c.b 3 0 } := by
  have hfits : ¬ (c.b 3 0 && (partFields y).any (fun f => (borrowFor s f (layoutClock s f y.opmode true) true).isNone)) = true := by
    rw [Bool.and_eq_true, List.any_eq_true]
    rintro ⟨hon, f, hf, hnone⟩
    rw [Option.isNone_iff_eq_none] at hnone
    simpa [hnone] using hfit hon f hf
  rw [exec, execRedundancy, hrun, whenSome_some, hy]
  dsimp only
  rw [if_neg (by simp [hres]), if_neg (by simp [hprog]), if_neg hfits]
  refine ⟨_, rfl, ?_⟩
  rw [partOf_complete]
  exact (partOf_of_parts (parts_of_erase { fields := true } rfl (by simp)) _).trans
    (partOf_setPart s c.part { y with redund := c.b 3 0 })

theorem redundancy_busy (hrun : runCmd s q e opRedundancy = some c) (hres : reservedOk c [(3, 1)] = true)
    (hprog : y.prog.isSome = true) : exec (.redundancy q e) s = .next (complete s c stBusy []) := by
  rw [exec, execRedundancy, hrun, whenSome_some, hy]
  dsimp only
  rw [if_neg (by simp [hres]), if_pos hprog]

theorem opmode_next (hrun : runCmd s q e opOpmode = some c) (hres : reservedOk c [(3, 3)] = true) (hm : c.f 3 0 2 ≤ 2) :
    exec (.opmode q e) s = if y.prog.isSome then .next (complete s c stBusy [])
      else .next (complete (setPart s c.part { y with opmode := c.f 3 0 2 }) c stOk [w32 y.opmode]) := by
  have hmode : c.f 3 0 2 ≠ 3 := by omega
  rw [exec, execOpmode, hrun, whenSome_some, hy]
  dsimp only
  rw [if_neg (by simp [hres, hmode])]

end

theorem policySettings : Says.PolicySettings := by
  intro s q e c y hy
  refine ⟨checkPolicy_next hy, fun hrun hres hn cap hcap => ?_, replayPolicy_next hy⟩
  subst hcap
  exact ⟨fun h0 => (spotRate_next hy hrun hres hn).trans (if_pos h0), fun h0 => (spotRate_next hy hrun hres hn).trans (if_neg h0)⟩

theorem redundancyAndOpmode : Says.RedundancyAndOpmode := by
  intro s q e c y hy
  refine ⟨fun hrun hres => ⟨redundancy_busy hy hrun hres, fun hprog hfit => ?_⟩,
    fun hrun hres hm => ⟨fun hprog => ?_, fun hprog => ?_⟩⟩
  · obtain ⟨t, ht, hz⟩ := redundancy_sets hy hrun hres hprog hfit
    exact ⟨t, _, ht, hz, rfl, hprog⟩
  · rw [opmode_next hy hrun hres hm, if_pos hprog]
  · rw [opmode_next hy hrun hres hm, if_neg (by simp [hprog])]

/-- Settles O19: each setting by the words that it stores. That a tenant's CHECK_POLICY leaves bits 0 and 2 is log entry 72, that
REDUNDANCY sets the fields at once log entry 55. -/
theorem partitionSettings : Obligations.PartitionSettings := ⟨settingsComplete, policySettings, redundancyAndOpmode⟩

end Sys2Proof.Machine
end

section
/-! SUPPORT. A setting of a partition stays in it, and the log rows of a tenant leave the other cursors (R18, R81, R125, R141, R146, R175,
R332 to R334, R358, R420). -/

namespace Sys2Proof.Machine

/-! ### What stays apart -/

/-- From `s` to `t` no other partition and no field outside `x` has changed, and of `x` neither the tenant nor the rectangle nor the
program. -/
def StaysApart (s : State) (p : Nat) (x : Part) (t : State) : Prop :=
  (∀ r, r ≠ p → partOf t r = partOf s r) ∧ (∀ f, partHas x f = false → fieldOf t f = fieldOf s f) ∧
  ∃ y, partOf t p = some y ∧ y.tenant = x.tenant ∧ partFields y = partFields x ∧ y.prog = x.prog

section
variable {s u : State} {p : Nat} {x : Part}

theorem StaysApart.refl (h : partOf s p = some x) : StaysApart s p x s :=
  ⟨fun _ _ => rfl, fun _ _ => rfl, x, h, rfl, rfl, rfl⟩

theorem StaysApart.setPart (y : Part) (ht : y.tenant = x.tenant) (hf : partFields y = partFields x) (hg : y.prog = x.prog) :
    StaysApart s p x (setPart s p y) :=
  ⟨fun r hr => partOf_setPart_other s p r y hr, fun _ _ => rfl, y, partOf_setPart s p y, ht, hf, hg⟩

/-- A change that leaves the partitions, and the fields outside `x`. -/
theorem StaysApart.trans_fields {t : State} (h : StaysApart s p x u) (hparts : t.parts = u.parts)
    (hfields : ∀ f, partHas x f = false → fieldOf t f = fieldOf u f) : StaysApart s p x t := by
  obtain ⟨hother, hout, y, hy, hrest⟩ := h
  exact ⟨fun r hr => (partOf_of_parts hparts r).trans (hother r hr), fun f hf => (hfields f hf).trans (hout f hf), y,
    (partOf_of_parts hparts p).trans hy, hrest⟩

theorem StaysApart.complete (h : StaysApart s p x u) (c : Cmd) (st : Nat) (res : List Word) :
    StaysApart s p x (complete u c st res) :=
  h.trans_fields (parts_complete u c st res) fun f _ => by
    rw [fieldOf, fields_of_erase { fe := true, out := true } rfl (by simp : erase _ (Machine.complete u c st res) = erase _ u), fieldOf]

theorem ne_of_partHas {f g : Nat} (hf : partHas x f = true) (hg : partHas x g = false) : g ≠ f := by
  rintro rfl
  rw [hf] at hg
  cases hg

theorem StaysApart.modField (h : StaysApart s p x u) {f : Nat} (hf : partHas x f = true) (g : Field → Field) :
    StaysApart s p x (modField u f g) :=
  h.trans_fields rfl fun k hk => fieldOf_modField_other u f k g (ne_of_partHas hf hk)

theorem StaysApart.foldl (h : StaysApart s p x u) {fs : List Nat} (hfs : ∀ f ∈ fs, partHas x f = true) (act : State → Nat → State)
    (hact : ∀ v f, StaysApart s p x v → partHas x f = true → StaysApart s p x (act v f)) : StaysApart s p x (fs.foldl act u) := by
  induction fs generalizing u with
  | nil => exact h
  | cons f fs ih =>
    exact ih (hact u f h (hfs f (List.mem_cons_self ..))) (fun g hg => hfs g (List.mem_cons_of_mem _ hg))

/-! ### Settings come into force in the partition's fields -/

theorem fieldOf_armInjection_other (s : State) (f g : Nat) (h : g ≠ f) : fieldOf (armInjection s f) g = fieldOf s g := by
  unfold armInjection
  extract_lets y
  split
  · rfl
  next t site n _ =>
    extract_lets v
    have hv : fieldOf v g = fieldOf s g := fieldOf_setField_other _ _ _ _ h
    split
    · exact hv
    · exact hv

theorem fieldOf_fieldApplied (s : State) (f g : Nat) : fieldOf (fieldApplied s f) g = fieldOf s g := by
  rw [fieldOf, fields_of_erase { fe := true, out := true } rfl (by simp : erase _ (fieldApplied s f) = erase _ s), fieldOf]

theorem fieldOf_applySettings_other (s : State) (f g : Nat) (h : g ≠ f) : fieldOf (applySettings s f) g = fieldOf s g := by
  unfold applySettings
  extract_lets v
  have hv : fieldOf v g = fieldOf s g := fieldOf_modField_other s f g _ h
  split
  · exact hv
  · rw [fieldOf_fieldApplied, fieldOf_armInjection_other _ _ _ h, fieldOf_modField_other _ _ _ _ h, hv]

theorem StaysApart.applySettings (h : StaysApart s p x u) {f : Nat} (hf : partHas x f = true) :
    StaysApart s p x (applySettings u f) :=
  h.trans_fields (parts_applySettings u f) fun k hk => fieldOf_applySettings_other u f k (ne_of_partHas hf hk)

theorem StaysApart.fieldsOfPart (h : StaysApart s p x u) : ∀ f ∈ fieldsOfPart u p, partHas x f = true := by
  obtain ⟨-, -, y, hy, -, hfs, -⟩ := h
  intro f hf
  rw [Machine.fieldsOfPart, hy] at hf
  rw [partHas, List.contains_iff_mem, ← hfs]
  exact hf

/-- R81: a setting that is recorded comes into force in the partition's fields alone. -/
theorem StaysApart.applySetting (h : StaysApart s p x u) (c : Cmd) (st : Nat) (res : List Word) :
    StaysApart s p x (applySetting u c p st res) := by
  unfold Machine.applySetting
  extract_lets waits
  split
  · exact (h.foldl h.fieldsOfPart _ fun _ _ hv hf => hv.applySettings hf).complete c st res
  next hwaits =>
    rw [applyAt, if_neg hwaits]
    exact h.trans_fields rfl fun _ _ => rfl

end

/-! ### The six settings -/

/-- A row over a running command answers for the command in flight, or leaves the state. -/
theorem runCmd_row {s t : State} {q e o : Nat} {c : Cmd} (hfind : findCmd s q e = some c) {why : String} {k : Cmd → Result}
    (ht : whenSome s (runCmd s q e o) why k = .next t) : t = s ∨ k c = .next t := by
  obtain ⟨d, hd, hk⟩ | ⟨-, rfl⟩ := (whenSome_next ..).mp ht
  · obtain ⟨hd', -, -⟩ := runCmd_some s q e o d hd
    rw [hfind] at hd'
    cases hd'
    exact .inr hk
  · exact .inl rfl

/-- Where the outcome is a next state, it stays apart. -/
def EndsApart (s : State) (p : Nat) (x : Part) (r : Result) : Prop := ∀ t, r = .next t → StaysApart s p x t

theorem endsApart_next {s t : State} {p : Nat} {x : Part} : EndsApart s p x (.next t) ↔ StaysApart s p x t :=
  ⟨fun h => h t rfl, fun h _ ht => Host.Outcome.next.inj ht ▸ h⟩

theorem endsApart_ite {s : State} {p : Nat} {x : Part} {b : Prop} [Decidable b] {r r' : Result} :
    EndsApart s p x (if b then r else r') ↔ (b → EndsApart s p x r) ∧ (¬ b → EndsApart s p x r') := by
  split <;> simp [*]

section
variable {s : State} {q e : Nat} {c : Cmd} {x : Part} (hfind : findCmd s q e = some c) (hx : partOf s c.part = some x)
include hfind hx

theorem endsApart_row {o : Nat} {why : String} {k : Cmd → Result} (h : EndsApart s c.part x (k c)) :
    EndsApart s c.part x (whenSome s (runCmd s q e o) why k) := by
  intro t ht
  rcases runCmd_row hfind ht with rfl | hk
  · exact .refl hx
  · exact h t hk

theorem endsApart_checkPolicy : EndsApart s c.part x (exec (.checkPolicy q e) s) := by
  refine endsApart_row hfind hx ?_
  rw [hx]
  dsimp only
  simp only [endsApart_ite, endsApart_next]
  refine ⟨fun _ => (StaysApart.refl hx).complete .., fun _ => ⟨fun _ => (StaysApart.refl hx).complete .., fun _ => ?_⟩⟩
  apply StaysApart.applySetting
  split
  next tile htile =>
    have hin : partHas x (taField (c.f 4 0 24)) = true := by
      by_contra hout
      simp [injectionTile, hout] at htile
    split
    · refine StaysApart.modField ?_ hin _
      exact .setPart _ rfl rfl rfl
    · exact .setPart _ rfl rfl rfl
  next => exact .setPart _ rfl rfl rfl

theorem endsApart_spotRate : EndsApart s c.part x (exec (.spotRate q e) s) := by
  refine endsApart_row hfind hx ?_
  rw [hx]
  dsimp only
  simp only [endsApart_ite, endsApart_next]
  exact ⟨fun _ => (StaysApart.refl hx).complete .., fun _ => ⟨fun _ => (StaysApart.refl hx).complete ..,
    fun _ => StaysApart.applySetting (.setPart _ rfl rfl rfl) ..⟩⟩

theorem endsApart_redundancy : EndsApart s c.part x (exec (.redundancy q e) s) := by
  refine endsApart_row hfind hx ?_
  rw [hx]
  dsimp only
  simp only [endsApart_ite, endsApart_next]
  refine ⟨fun _ => (StaysApart.refl hx).complete .., fun _ => ⟨fun _ => (StaysApart.refl hx).complete ..,
    fun _ => ⟨fun _ => (StaysApart.refl hx).complete .., fun _ => StaysApart.complete ?_ ..⟩⟩⟩
  refine StaysApart.foldl ?_ (fun f (hf : f ∈ partFields x) => by simpa [partHas] using hf) _ fun _ _ hv hf => hv.modField hf _
  exact .setPart _ rfl rfl rfl

theorem endsApart_replayPolicy : EndsApart s c.part x (exec (.replayPolicy q e) s) := by
  refine endsApart_row hfind hx ?_
  rw [hx]
  dsimp only
  simp only [endsApart_ite, endsApart_next]
  exact ⟨fun _ => (StaysApart.refl hx).complete .., fun _ => StaysApart.applySetting (.setPart _ rfl rfl rfl) ..⟩

theorem endsApart_opmode : EndsApart s c.part x (exec (.opmode q e) s) := by
  refine endsApart_row hfind hx ?_
  rw [hx]
  dsimp only
  simp only [endsApart_ite, endsApart_next]
  exact ⟨fun _ => (StaysApart.refl hx).complete .., fun _ => ⟨fun _ => (StaysApart.refl hx).complete ..,
    fun _ => StaysApart.complete (.setPart _ rfl rfl rfl) ..⟩⟩

theorem endsApart_traceCfg : EndsApart s c.part x (exec (.traceCfg q e) s) := by
  refine endsApart_row hfind hx ?_
  rw [hx]
  dsimp only
  simp only [endsApart_ite, endsApart_next]
  exact ⟨fun _ => (StaysApart.refl hx).complete .., fun _ => StaysApart.applySetting (.setPart _ rfl rfl rfl) ..⟩

end

/-! ### The cursors of other tenants -/

theorem cursorOf_modCursor_other (s : State) (n m : Nat) (g : Cursor → Cursor) (h : m ≠ n) :
    cursorOf (modCursor s n g) m = cursorOf s m := tget_tset_other _ _ _ _ _ h

theorem cursorOf_complete (s : State) (c : Cmd) (st : Nat) (res : List Word) (m : Nat) :
    cursorOf (complete s c st res) m = cursorOf s m := by
  obtain ⟨fe, out, h⟩ := complete_other s c st res
  rw [h]
  rfl

theorem served_next {row : String} {n : Nat} {s u t : State} (h : served row n s u = .next t) : t = s ∨ t = u := by
  unfold served at h
  split_ifs at h
  · exact .inr (Host.Outcome.next.inj h).symm
  · exact .inl (Host.Outcome.next.inj h).symm

section
variable {s t : State} {n : Nat}

theorem logAdvWrite_otherCursor {v : Word} (ht : exec (.logAdvWrite n v) s = .next t) (m : Nat) (hm : m ≠ n) :
    cursorOf t m = cursorOf s m := by
  rcases served_next ht with rfl | rfl
  · rfl
  · unfold writeLogAdv advanceCursor
    dsimp only
    split
    · split
      · rfl
      · exact cursorOf_modCursor_other _ _ _ _ hm
    · rfl

theorem logLostClear_otherCursor {v : Word} (ht : exec (.logLostClear n v) s = .next t) (m : Nat) (hm : m ≠ n) :
    cursorOf t m = cursorOf s m := by
  rcases served_next ht with rfl | rfl
  · rfl
  · unfold writeLogStat
    split
    · exact cursorOf_modCursor_other _ _ _ _ hm
    · rfl

theorem logWindowReady_otherCursor (ht : exec (.logWindowReady n) s = .next t) (m : Nat) (hm : m ≠ n) :
    cursorOf t m = cursorOf s m := by
  rw [exec, execLogWindowReady] at ht
  split at ht
  · obtain ⟨r, -, hr⟩ | ⟨-, rfl⟩ := (whenSome_next ..).mp ht
    · cases hr
      exact cursorOf_modCursor_other _ _ _ _ hm
    · rfl
  · cases ht
    rfl

/-- R334: LOG_OPEN replaces the cursor of the tenant that issued it. -/
theorem logOpen_otherCursor {q e : Nat} {c : Cmd} (hfind : findCmd s q e = some c) (ht : exec (.logOpen q e) s = .next t) (m : Nat)
    (hm : m ≠ c.tenant) : cursorOf t m = cursorOf s m := by
  rcases runCmd_row hfind ht with rfl | ht
  · rfl
  · rcases ite_eq_iff.mp ht with ⟨-, ht⟩ | ⟨-, ht⟩
    · cases ht
      exact cursorOf_complete ..
    · cases ht
      exact (cursorOf_complete ..).trans (cursorOf_modCursor_other _ _ _ _ hm)

end

/-- Settles O59: each setting stores in its own partition, and what comes into force does so in that partition's fields. -/
theorem settingsStayApart : Obligations.SettingsStayApart := by
  refine ⟨fun i s t q e c x hfind hx hi ht => ?_, fun i s t n v hi ht => ?_, fun s t q e c hfind ht => logOpen_otherCursor hfind ht⟩
  · simp only [List.mem_cons, List.not_mem_nil, or_false] at hi
    rcases hi with rfl | rfl | rfl | rfl | rfl | rfl
    · exact endsApart_checkPolicy hfind hx t ht
    · exact endsApart_spotRate hfind hx t ht
    · exact endsApart_redundancy hfind hx t ht
    · exact endsApart_replayPolicy hfind hx t ht
    · exact endsApart_opmode hfind hx t ht
    · exact endsApart_traceCfg hfind hx t ht
  · simp only [List.mem_cons, List.not_mem_nil, or_false] at hi
    rcases hi with rfl | rfl | rfl
    · exact logAdvWrite_otherCursor ht
    · exact logLostClear_otherCursor ht
    · exact logWindowReady_otherCursor ht

end Sys2Proof.Machine
end

section
/-! SUPPORT. The resets under way through the work that a reset or an unload ends (R171, R235, R236, R294, R295). A link that dies asks for
further resets; none of this work starts or ends one. -/

namespace Sys2Proof.Machine

/-- Every part of State that the end of a field's work may change but the state of the resets. -/
def exceptHang : Mask :=
  { free := true, fe := true, nor := true, cab := true, drawer := true, hutch := true, parts := true, fields := true, guards := true,
    tiles := true, groups := true, side := true, arb := true, boot := true, sched := true, sig := true, out := true, status := true,
    arrivals := true }

section
variable {s t : State}

theorem hang_of_exceptHang (h : erase exceptHang t = erase exceptHang s) : t.hang = s.hang := hang_of_erase exceptHang rfl rfl h

theorem running_of_exceptHang (h : erase exceptHang t = erase exceptHang s) : t.hang.running = s.hang.running :=
  congrArg (·.running) (hang_of_exceptHang h)

end

theorem running_foldl {α : Type} (u : State → α → State) (h : ∀ s a, (u s a).hang.running = s.hang.running)
    (l : List α) (s : State) :
    (l.foldl u s).hang.running = s.hang.running := by
  induction l generalizing s with
  | nil => rfl
  | cons a l ih => rw [List.foldl_cons, ih, h]

/-! ### A lost step asks for a reset -/

theorem running_autoReset (s : State) (level dom cause : Nat) : (autoReset s level dom cause).hang.running = s.hang.running := by
  unfold autoReset
  split
  · rfl
  · rfl

theorem running_resetForLoss (s : State) (f cause : Nat) : (resetForLoss s f cause).hang.running = s.hang.running := by
  unfold resetForLoss
  extract_lets u v
  have hv : v.hang.running = s.hang.running := running_of_exceptHang (by simp [exceptHang, v, u])
  split
  · rw [running_autoReset, hv]
  · rw [running_autoReset, hv]

theorem running_lostStep (s : State) (f trigger outcome : Nat) (cross : Bool) (tiles spare hold : Nat) (detail : Dword) (cause : Nat) :
    (lostStep s f trigger outcome cross tiles spare hold detail cause).hang.running = s.hang.running := by
  rw [lostStep, loseWith, running_resetForLoss]
  exact running_of_exceptHang (by simp [exceptHang])

/-- R236: a dead link loses the steps at its ends. -/
theorem running_killLink (s : State) (f p edge source : Nat) : (killLink s f p edge source).hang.running = s.hang.running := by
  unfold killLink
  split
  · rfl
  · rw [running_foldl _ fun u g => by split <;> simp [running_lostStep]]
    exact running_of_exceptHang (by simp [exceptHang])

theorem running_failLink (s : State) (f p edge source : Nat) : (failLink s f p edge source).hang.running = s.hang.running := by
  unfold failLink
  split
  · exact running_killLink s f p edge source
  · exact running_of_exceptHang (by simp [exceptHang])

/-! ### A field's work ends -/

theorem running_settleDue (s : State) (f : Nat) : (settleDue s f).hang.running = s.hang.running := by
  unfold settleDue settleDueBut
  extract_lets x later s1 s2 s3 s4
  have hrows : s2.hang.running = s1.hang.running := by
    refine running_foldl _ (fun u e => ?_) _ _
    split
    next v hv => exact running_of_exceptHang (erase_retireRow exceptHang u v _ _ _ _ rfl rfl hv)
    next => exact running_of_exceptHang (by simp [exceptHang])
  have hlinks : s3.hang.running = s2.hang.running := by
    refine running_foldl _ (fun u e => ?_) _ _
    exact running_failLink u f e.1 e.2.1 e.2.2
  calc _ = s3.hang.running := running_of_exceptHang (by simp [exceptHang, s4])
    _ = s.hang.running := by rw [hlinks, hrows]; rfl

theorem running_endFieldWork (s : State) (f : Nat) : (endFieldWork s f).hang.running = s.hang.running := by
  unfold endFieldWork
  extract_lets s1 s2 s3 s4 s5 s6 s7
  calc _ = s6.hang.running := by simp only [modField_hang, s7]
    _ = (settleDue s3 f).hang.running := running_of_exceptHang (by simp [exceptHang, s6, s5, s4])
    _ = s3.hang.running := running_settleDue s3 f
    _ = s.hang.running := running_of_exceptHang (by simp [exceptHang, s3, s2, s1])

theorem running_endForGood (s : State) (f : Nat) : (endForGood s f).hang.running = s.hang.running := by
  rw [endForGood, modField_hang, running_endFieldWork]
  exact running_of_exceptHang (by simp [exceptHang])

/-! ### A program is lost -/

theorem running_holdOthers (s : State) (p : Nat) (others : List Nat) : (holdOthers s p others).hang.running = s.hang.running := by
  unfold holdOthers
  extract_lets running s1 s2
  have hwork : s2.hang.running = s.hang.running :=
    (running_foldl _ running_endForGood _ _).trans (running_of_exceptHang (by simp [exceptHang, s1]))
  split
  · exact (running_of_exceptHang (by simp [exceptHang])).trans hwork
  · exact hwork

theorem running_dropPart (s : State) (r : ResetRun) (p : Nat) : (dropPart s r p).hang.running = s.hang.running := by
  unfold dropPart
  extract_lets fs covered s1
  have hlost : s1.hang.running = s.hang.running := by
    simp only [s1]
    split
    · exact running_holdOthers s p _
    · exact running_of_exceptHang (by simp [exceptHang])
  exact (running_of_exceptHang (by simp [exceptHang])).trans hlost

theorem running_stopFields (s : State) (r : ResetRun) : (stopFields s r).hang.running = s.hang.running := by
  unfold stopFields
  extract_lets fs s1 s2 s3 s4 s5
  calc _ = s4.hang.running := running_of_exceptHang (by simp [exceptHang, s5])
    _ = s3.hang.running := running_foldl _ (fun u p => running_dropPart u r p) _ _
    _ = s2.hang.running := running_foldl _ running_endFieldWork _ _
    _ = s.hang.running := running_of_exceptHang (by simp [exceptHang, s2, s1])

/-! ### An unload ends -/

theorem running_finishUnload (s : State) (p : Nat) : (finishUnload s p).hang.running = s.hang.running := by
  unfold finishUnload
  split
  · rfl
  next x _ =>
    extract_lets fs s1 s2 s3 s4 s5 late s6 boot s7 s8
    have hwork : s1.hang.running = s.hang.running := running_foldl _ running_endFieldWork _ _
    have hend : s8.hang.running = s.hang.running :=
      (running_of_exceptHang (by simp [exceptHang, s8, s7, s6, s5, s4, s3, s2])).trans hwork
    split
    · exact hend
    · split
      · exact (running_of_exceptHang (by simp [exceptHang])).trans hend
      · exact hend

theorem running_endUnload (s : State) (r : ResetRun) : (endUnload s r).hang.running = s.hang.running := by
  unfold endUnload
  split
  · rfl
  · split
    · split
      · exact running_finishUnload s _
      · rfl
    · rfl

end Sys2Proof.Machine
end

section
/-! SUPPORT. RESET and the reset sequence (R96, R286, R288, R292 to R295). -/

namespace Sys2Proof.Machine

/-! ### RESET -/

section
variable {s : State} {q e : Nat} {c : Cmd} (hrun : runCmd s q e opReset = some c)
  (hres : reservedOk c [(3, 7), (4, resetMask (c.f 3 0 3))] = true)
include hrun hres

/-- R96, R292: a reset is asked for, and goes on in the background; one of an excluded field also repeats its stages (R451). -/
theorem reset_asks (hlevel : c.f 3 0 3 ≤ 3) (hfield : c.f 3 0 3 = 1 → c.f 4 0 7 < 84)
    (hpart : c.f 3 0 3 = 2 → (partOf s c.part).isSome = true) : exec (.reset q e) s =
      let u := requestReset (background s c) (c.f 3 0 3) c.dom 0 false (some (q, e))
      .next (if c.f 3 0 3 = 1 then repeatStages u c (c.f 4 0 7) else u) := by
  have hno : ¬ (4 < c.f 3 0 3) ∧ ¬ (c.f 3 0 3 = 1 ∧ 84 ≤ c.f 4 0 7) ∧ ¬ (c.f 3 0 3 = 2 ∧ partOf s c.part = none) := by
    refine ⟨by omega, fun h => absurd h.2 (Nat.not_le.mpr (hfield h.1)), fun h => ?_⟩
    simpa [h.2] using hpart h.1
  obtain ⟨hno4, hno1, hno2⟩ := hno
  rw [exec, execReset, hrun, whenSome_some]
  dsimp only
  rw [if_neg (by simp [hres, hno4, hno1, hno2]), if_neg (by omega)]

/-- R96: a CYCLE is accepted and wanted. -/
theorem reset_cycles (hlevel : c.f 3 0 3 = 4) (hnotify : noNotification s c = false) :
    exec (.reset q e) s = .next (wantCycle (accept s c []) 1) := by
  rw [hlevel] at hres
  rw [exec, execReset, hrun, whenSome_some]
  dsimp only
  rw [if_neg (by simp [hres, hlevel]), if_pos hlevel, hnotify]
  rfl

end

theorem pwrcycLow_of_erase (κ : Mask) {s t : State} (hκ : κ.tray = false) (h : erase κ t = erase κ s) :
    t.tray.pwrcycLow = s.tray.pwrcycLow := by
  simpa [erase, eraseTray, hκ] using congrArg (fun u : State => u.tray.pwrcycLow) h

theorem accept_keeps (s : State) (c : Cmd) (args : List Nat) :
    (accept s c args).hang = s.hang ∧ (accept s c args).tray.pwrcycLow = s.tray.pwrcycLow := by
  have h : erase { fe := true, out := true } (accept s c args) = erase { fe := true, out := true } s := by simp
  exact ⟨hang_of_erase _ rfl rfl h, pwrcycLow_of_erase _ rfl h⟩

@[simp] theorem ops_completeWith (s : State) (c : Cmd) (st handle : Nat) (res : List Word) :
    (completeWith s c st handle res).fe.ops = s.fe.ops := by
  have hdrop : (dropCmd s c.q c.e).fe.ops = s.fe.ops := by
    unfold dropCmd
    extract_lets u
    split
    · rfl
    · rfl
  rw [completeWith, writeCompletion_eq]
  exact hdrop

/-- R85: an accepted command leaves an operation under the next handle. -/
theorem accept_leavesOp (s : State) (c : Cmd) (args : List Nat) :
    ∃ o ∈ (accept s c args).fe.ops, o.handle = s.fe.nextHandle ∧ o.q = c.q ∧ o.e = c.e ∧ o.final = none := by
  unfold accept
  extract_lets h op _ u v
  have hops : v.fe.ops = s.fe.ops ++ [op] := by
    simp only [v]
    split
    · rfl
    · rfl
  exact ⟨op, by simp [hops], rfl, rfl, rfl, rfl⟩

theorem resetCommand : Says.ResetCommand := by
  intro s q e c hrun hres
  obtain ⟨hfind, -, -⟩ := runCmd_some s q e opReset c hrun
  obtain ⟨rfl, rfl, -⟩ := findCmd_some s q e c hfind
  refine ⟨fun hlevel hfield hpart => ?_, fun hlevel hnotify hlow hwant => ?_⟩
  · rw [reset_asks hrun hres hlevel hfield hpart]
    extract_lets u
    have hstages (v : State) : erase { fields := true, boot := true }
        (if c.f 3 0 3 = 1 then repeatStages v c (c.f 4 0 7) else v) = erase { fields := true, boot := true } v := by simp
    have hhang := hang_of_erase _ rfl rfl (hstages u)
    have hfe := fe_of_erase _ rfl (hstages u)
    refine ⟨_, { c with phase := .background }, rfl, ?_, ?_, rfl, (out_of_erase _ rfl (hstages u)).trans rfl, ?_⟩
    · rw [hhang]
      rfl
    · rw [findCmd_of_flight (congrArg (·.flight) hfe)]
      exact findCmd_modCmd hfind _ (fun _ => ⟨rfl, rfl⟩)
    · rw [hhang]
      rfl
  · obtain ⟨hhang, htray⟩ := accept_keeps s c []
    obtain ⟨o, ho, hrest⟩ := accept_leavesOp s c []
    rw [reset_cycles hrun hres hlevel hnotify, wantCycle_eq (by rw [htray, hlow]) (by rw [hhang, hwant])]
    exact ⟨_, o, rfl, by rw [hhang], ho, hrest⟩

/-! ### A reset starts -/

theorem genOf_bumpGens (s : State) (ds : List Nat) (d : Nat) : genOf (bumpGens s ds) d = genOf s d + BitVec.ofNat 6 (ds.count d) := by
  induction ds generalizing s with
  | nil => simp [bumpGens]
  | cons a ds ih =>
    have hfirst : genOf (bumpGen s a) d = genOf s d + if a = d then 1 else 0 := by
      by_cases h : a = d
      · subst h
        simp
      · simp [genOf, bumpGen, tget_tset_other _ _ _ _ _ (Ne.symm h), h]
    have hcount : BitVec.ofNat 6 ((a :: ds).count d) = (if a = d then 1 else 0) + BitVec.ofNat 6 (ds.count d) := by
      rw [List.count_cons, Nat.add_comm, BitVec.ofNat_add]
      by_cases h : a = d <;> simp [h]
    rw [bumpGens, List.foldl_cons, ← bumpGens, ih, hfirst, hcount, BitVec.add_assoc]

/-- The parts that a reset's start changes beside the generations. -/
def startMask : Mask :=
  { free := true, fe := true, drawer := true, hutch := true, parts := true, fields := true, guards := true, tiles := true,
    groups := true, side := true, hang := true, sched := true, sig := true, out := true, status := true, arrivals := true }

theorem startReset_gens (s : State) (r : ResetRun) (rest : List ResetRun) (d : Nat) :
    genOf (startReset s r rest) d = genOf s d + BitVec.ofNat 6 ((levelDomains s r.level r.dom).count d) := by
  have hrest : erase startMask (startReset s r rest) = erase startMask (bumpGens { s with hang := { s.hang with
      requests := rest.filter (fun k => k.cmd.isSome || !(levelDomains s r.level r.dom).contains k.dom) } }
      (levelDomains s r.level r.dom)) := by
    unfold startReset
    simp [startMask]
  rw [genOf_of_erase startMask rfl hrest, genOf_bumpGens]
  rfl

theorem running_clearQueueFlags (s : State) (dom : Nat) : (clearQueueFlags s dom).hang.running = s.hang.running := rfl
theorem running_endQuiesce (s : State) : (endQuiesce s).hang.running = s.hang.running := rfl

/-- R295: from its start on the reset runs. -/
theorem startReset_runs (s : State) (r : ResetRun) (rest : List ResetRun) :
    ∃ k ∈ (startReset s r rest).hang.running, k.dom = r.dom ∧ k.level = r.level ∧ k.cause = r.cause := by
  unfold startReset
  extract_lets doms _ s1 s2 ended _ s3 out dump s4 s5 _ s6 s7
  have hruns : ∃ k ∈ s7.hang.running, k.dom = r.dom ∧ k.level = r.level ∧ k.cause = r.cause := by
    rw [running_stopFields]
    exact ⟨_, List.mem_append_right _ (List.mem_singleton_self _), rfl, rfl, rfl⟩
  split
  · exact hruns
  · split
    · exact hruns
    · exact hruns

theorem resetStart_next {s : State} {r : ResetRun} (hc : clocked s = true) (h : nextReset s = some r) :
    exec .resetStart s = .next (startReset s r (s.hang.requests.erase r)) := by
  rw [exec, execResetStart, h, whenSome_some, hc, whenOk_true]

/-! ### A reset completes -/

/-- R295: the reset that completes runs no more. -/
def resetEnded (s : State) (d : Nat) : State :=
  { s with hang := { s.hang with running := s.hang.running.filter (fun k => k.dom != d) } }

/-- What follows the acknowledgement, the reset's own removal from those that run apart, starts no reset. -/
theorem resetComplete_ends {s : State} {r : ResetRun} {d micros : Nat} (hc : clocked s = true)
    (h : s.hang.running.find? (fun k => k.dom == d) = some r) :
    ∃ t, exec (.resetComplete d micros) s = .next t ∧ t.hang.running = (resetEnded s d).hang.running := by
  rw [exec, execResetComplete, h, whenSome_some, hc, whenOk_true]
  refine ⟨_, rfl, ?_⟩
  extract_lets _ s1 s2 ps s3 s4 gen word seqNo drawer s5 s6 s7
  have h3 : s3.hang.running = s1.hang.running := running_of_exceptHang (by simp [exceptHang, s3, s2])
  have h4 : s4.hang.running = s1.hang.running := (running_endUnload s3 r).trans h3
  have h7 : s7.hang.running = s1.hang.running := (running_of_exceptHang (by simp [exceptHang, s7, s6, s5])).trans h4
  split
  · exact (running_of_exceptHang (by simp [exceptHang])).trans h7
  · exact h7

/-! ### A reset that takes too long -/

theorem resetEscalate_next {s : State} {r : ResetRun} {d : Nat} (hc : clocked s = true)
    (h : s.hang.running.find? (fun k => k.dom == d && k.level != 0 && decide (k.started + resetLimitNs k.level < s.now)) = some r) :
    exec (.resetEscalate d) s = .next (if r.level = 3 then wantCycle s 2
      else match if r.level = 1 then partNo s (r.dom - 144) else none with
        | some p => requestReset s 2 (domPart p) 6 true none
        | none => requestReset s 3 domWafer 6 true none) := by
  rw [exec, execResetEscalate, h, whenSome_some, hc, whenOk_true] <;> rfl

theorem resetSequence : Says.ResetSequence := by
  refine ⟨fun s r hc h => ?_, fun s r d micros hc h => ?_, fun s r d hc h => ?_⟩
  · exact ⟨_, resetStart_next hc h, startReset_gens s r _, startReset_runs s r _⟩
  · obtain ⟨t, ht, hrun⟩ := resetComplete_ends (micros := micros) hc h
    refine ⟨t, ht, fun k hk => ?_, gens_of_erase _ rfl (erase_exec _ s t ht)⟩
    rw [hrun] at hk
    simpa using (List.mem_filter.mp hk).2
  · rw [resetEscalate_next hc h]
    refine ⟨fun h1 p hp => ?_, fun h1 hp => ?_, fun h2 => ?_, fun h3 hlow hwant => ?_⟩
    · simp [h1, hp]
    · simp [h1, hp]
    · simp [h2]
    · rw [if_pos h3, wantCycle_eq hlow hwant]

/-- Settles O36: RESET by its level; the sequencer by what a reset does to generations and to the resets that run: a link that dies
while a field's work ends asks for further ones, and starts none. -/
theorem resets : Obligations.Resets := ⟨resetCommand, resetSequence⟩

end Sys2Proof.Machine
end

section
/-! SUPPORT. Readings of a tile's guard, and what the operations that verdicts and exports share leave alone (R26, R106, R127, R158,
R427). -/

namespace Sys2Proof.Machine

/-! ### What is read of a guard -/

/-- What a reading `π` shows of every tile's guard. -/
def guardView {α : Type} (π : Guard → α) (s : State) (a : Nat) : α := π (guardOf s a)

section
variable {α : Type} {π : Guard → α} {s t : State}

theorem guardOf_of_guards (h : t.guards = s.guards) (a : Nat) : guardOf t a = guardOf s a := by rw [guardOf, guardOf, h]

theorem guardView_of_guards (h : t.guards = s.guards) : guardView π t = guardView π s :=
  funext fun a => congrArg π (guardOf_of_guards h a)

theorem read_of_guardView (h : guardView π t = guardView π s) (a : Nat) : π (guardOf t a) = π (guardOf s a) := congrFun h a

@[simp] theorem guardOf_modGuard (s : State) (a : Nat) (g : Guard → Guard) : guardOf (modGuard s a g) a = g (guardOf s a) :=
  guardOf_setGuard s a _

/-- An update of a guard that leaves the reading of this guard alone leaves it alone in all. -/
theorem guardView_modGuard (a : Nat) (g : Guard → Guard) (h : π (g (guardOf s a)) = π (guardOf s a)) :
    guardView π (modGuard s a g) = guardView π s := by
  funext b
  by_cases hb : b = a
  · subst hb
    rw [guardView, guardOf_modGuard, h, guardView]
  · rw [guardView, modGuard, guardOf_setGuard_other s a b _ hb, guardView]

/-- An entry of a tile's ring changes the ring alone. -/
theorem guardView_gring (s : State) (a typ arg cycle : Nat) (w : Dword) (h : ∀ x r, π { x with ring := r } = π x) :
    guardView π (gring s a typ arg cycle w) = guardView π s := guardView_modGuard a _ (h _ _)

end

/-! ### What the shared operations leave alone -/

theorem fieldOf_of_fields {s t : State} (h : t.fields = s.fields) (f : Nat) : fieldOf t f = fieldOf s f := by rw [fieldOf, fieldOf, h]

@[simp] theorem countOf_fields (s : State) (a : Nat) (g : TileCount → TileCount) : (countOf s a g).fields = s.fields :=
  fields_of_erase { tiles := true } rfl (by simp)

@[simp] theorem countOf_guards (s : State) (a : Nat) (g : TileCount → TileCount) : (countOf s a g).guards = s.guards := by
  unfold countOf countTile
  split
  · split <;> rfl
  · rfl

@[simp] theorem countOf_out (s : State) (a : Nat) (g : TileCount → TileCount) : (countOf s a g).out = s.out :=
  out_of_erase { tiles := true } rfl (by simp)

/-- R414: the counters of the logical tile that the guard keeps advance where they are not frozen. -/
theorem live_countOf {s : State} {a l : Nat} (g : TileCount → TileCount) (hl : workLog s a = some l)
    (hz : fieldFrozen s (taField l) = false) : (tileBanks (countOf s a g) l).live = g (tileBanks s l).live := by
  simp [countOf, hl, countTile, hz, modLive, tileBanks]

@[simp] theorem gring_fields (s : State) (a typ arg cycle : Nat) (w : Dword) : (gring s a typ arg cycle w).fields = s.fields := rfl
@[simp] theorem gring_out (s : State) (a typ arg cycle : Nat) (w : Dword) : (gring s a typ arg cycle w).out = s.out := rfl

@[simp] theorem sampleHeader_guards (s : State) (f : Nat) (h : List Word) : (sampleHeader s f h).guards = s.guards := by
  unfold sampleHeader
  dsimp only
  split <;> rfl

@[simp] theorem sampleHeader_out (s : State) (f : Nat) (h : List Word) : (sampleHeader s f h).out = s.out :=
  out_of_erase { fields := true } rfl (by simp)

@[simp] theorem noteCross_guards (s : State) (f l : Nat) : (noteCross s f l).guards = s.guards := by
  unfold noteCross
  split <;> rfl

@[simp] theorem noteCross_out (s : State) (f l : Nat) : (noteCross s f l).out = s.out :=
  out_of_erase { fields := true } rfl (by simp)

/-! ### Where a tile stands -/

/-- What of a field decides which tile serves which place (R15, R142). -/
abbrev placing (x : Field) : Bool × FieldMap := (x.redund, x.map)

theorem primaryOf_of_placing {s t : State} (h : fieldView placing t = fieldView placing s) (a : Nat) :
    primaryOf t a = primaryOf s a := by
  have hredund (f : Nat) : (fieldOf t f).redund = (fieldOf s f).redund := congrArg Prod.fst (read_of_fieldView h f)
  have hmap (f : Nat) : (fieldOf t f).map = (fieldOf s f).map := congrArg Prod.snd (read_of_fieldView h f)
  have howner (f p : Nat) : ownerOf (fieldOf t f) p = ownerOf (fieldOf s f) p := by rw [ownerOf, hmap, ownerOf]
  have hpos (f p : Nat) : posOf (fieldOf t f) p = posOf (fieldOf s f) p := by rw [posOf, hredund, posOf]
  have hserved (f p : Nat) : servedBy (fieldOf t f) p = servedBy (fieldOf s f) p := by rw [servedBy, hmap, howner, servedBy]
  have hlog : logOf t a = logOf s a := by simp only [logOf, hserved, placeOfPos, hredund]
  have hshadow : isShadow t a = isShadow s a := by simp only [isShadow, hserved, hredund]
  have hphys (l : Nat) : physOf t l = physOf s l := by rw [physOf, howner, hpos, physOf]
  simp only [primaryOf, hlog, hshadow, hphys]

theorem isShadow_unpaired {s : State} {a : Nat} (h : (fieldOf s (taField a)).redund = false) : isShadow s a = false := by
  simp [isShadow, h]

theorem shadowOfTile_unpaired {s : State} {a : Nat} (h : (fieldOf s (taField a)).redund = false) : shadowOfTile s a = none := by
  simp [shadowOfTile, h]

theorem pairRuns_unpaired {s : State} {a : Nat} (m : Exec) (h : (fieldOf s (taField a)).redund = false) :
    pairRuns s a m = false := by
  cases m <;> simp [pairRuns, shadowOfTile_unpaired h]

end Sys2Proof.Machine
end

section
/-! SUPPORT. The verdict of a contraction: what it comes to, and what it leads to in an original execution (R103, R106, R122, R127 to
R129). -/

namespace Sys2Proof.Machine

/-! ### What a verdict comes to -/

section
variable (x : Field) (c : Contraction) (pass site : Nat) {v : Verdict}

/-- R127, R128: a contraction into which an injection has been made is enforced, whatever its checks found. -/
theorem verdictWord_applied (h : v.applied = true) : ∃ cls w, verdictWord x c pass v site = some (cls, w, true) := by
  unfold verdictWord
  rw [if_pos h]
  split <;> exact ⟨_, _, rfl⟩

theorem verdictWord_noFail (h : v.applied = false) (hf : v.fails = []) : verdictWord x c pass v site = none := by
  simp [verdictWord, h, hf]

/-- R122, R125: the first failure names the class; the verdict is enforced unless every class that failed is only observed. -/
theorem verdictWord_fails (h : v.applied = false) (hf : v.fails ≠ []) :
    ∃ cls w, verdictWord x c pass v site = some (cls, w, !v.fails.all (fun e => observed x e.1)) := by
  obtain ⟨e, rest, he⟩ := List.exists_cons_of_ne_nil hf
  exact ⟨e.1, _, by simp only [verdictWord, h, he]; rfl⟩

end

/-! ### The gate of a tile that fails -/

/-- R26, R106: a failure leaves the gate shut. -/
theorem latchFailure_shuts (s : State) (a cls : Nat) (w : Dword) (instr : Nat) :
    (guardOf (latchFailure s a cls w instr) a).gateShut = true := by
  unfold latchFailure
  split
  case isTrue h => simpa using h
  case isFalse =>
    dsimp only
    split
    · simp
    · exact congrArg Guard.gateShut ((guardOf_of_guards (modField_guards _ _ _) a).trans (guardOf_modGuard _ _ _))

theorem injCount_latchFailure (s : State) (a cls : Nat) (w : Dword) (instr : Nat) :
    guardView (·.injCount) (latchFailure s a cls w instr) = guardView (·.injCount) s := by
  unfold latchFailure
  split
  · exact guardView_modGuard a _ rfl
  · dsimp only
    split
    · exact guardView_modGuard a _ rfl
    · exact (guardView_of_guards (modField_guards _ _ _)).trans (guardView_modGuard a _ rfl)

/-! ### What the verdict leads to -/

section
variable {s : State} {c : Contraction} {v : Verdict} {site : Nat}

/-- The word of the verdict on a contraction of the original execution. -/
abbrev originalWord (s : State) (c : Contraction) (v : Verdict) (site : Nat) : Option (Nat × Dword × Bool) :=
  verdictWord (fieldOf s (taField c.tile)) c (passOf s c.tile .original) v site

theorem failVerdict_none (h : originalWord s c v site = none) : failVerdict s c .original v site = s := by
  simp only [failVerdict, h]

/-- R125: a verdict whose classes are all only observed leaves its entry in the tile's ring alone. -/
theorem failVerdict_observed {cls : Nat} {w : Dword} (h : originalWord s c v site = some (cls, w, false)) :
    failVerdict s c .original v site = gring s c.tile 3 cls c.stepCycle w := by
  simp only [failVerdict, h]
  rfl

/-- The tile's ring and its own failure stand before the gate shuts. -/
def ownFailure (s : State) (c : Contraction) (cls : Nat) (w : Dword) : State :=
  modGuard (gring s c.tile 3 cls c.stepCycle w) c.tile (fun g => { g with ownFail := true })

/-- R36, R106: a verdict that is enforced latches its failure in the tile, in the primary for a shadow. -/
theorem guards_failVerdict_enforced {cls : Nat} {w : Dword} (h : originalWord s c v site = some (cls, w, true)) :
    (failVerdict s c .original v site).guards =
      (latchFailure (ownFailure s c cls w) (primaryOf s c.tile) cls w c.instrAddr).guards := by
  have hp : primaryOf (ownFailure s c cls w) c.tile = primaryOf s c.tile := primaryOf_of_placing (fieldView_of_fields rfl) _
  simp only [failVerdict, h, ← hp, Bool.not_true, Bool.false_eq_true, if_false]
  split <;> rfl

theorem failVerdict_shuts {cls : Nat} {w : Dword} (h : originalWord s c v site = some (cls, w, true)) :
    (guardOf (failVerdict s c .original v site) (primaryOf s c.tile)).gateShut = true := by
  rw [guardOf_of_guards (guards_failVerdict_enforced h)]
  exact latchFailure_shuts _ _ _ _ _

theorem injCount_failVerdict {cls : Nat} {w : Dword} (h : originalWord s c v site = some (cls, w, true)) :
    guardView (·.injCount) (failVerdict s c .original v site) = guardView (·.injCount) s :=
  calc guardView (·.injCount) (failVerdict s c .original v site)
    _ = guardView (·.injCount) (ownFailure s c cls w) :=
      (guardView_of_guards (guards_failVerdict_enforced h)).trans (injCount_latchFailure _ _ _ _ _)
    _ = guardView (·.injCount) (gring s c.tile 3 cls c.stepCycle w) := guardView_modGuard _ _ rfl
    _ = guardView (·.injCount) s := guardView_gring _ _ _ _ _ _ fun _ _ => rfl

end

/-! ### CONTRACTION_END -/

/-- The injection armed for the contraction has been made, where one was. -/
def injectionUsed (s : State) (a : Nat) (v : Verdict) : State := if v.applied then useInjection s a .original else s

/-- The counters have the verdict; what it leads to is still to come. -/
def verdictCounted (s : State) (c : Contraction) (v : Verdict) : State :=
  countOf (injectionUsed s c.tile v) c.tile
    (countVerdict (fieldOf (injectionUsed s c.tile v) (taField c.tile)) v (v.applied && !v.fails.isEmpty) c.steps.length)

theorem verdictCounted_notApplied {s : State} {c : Contraction} {v : Verdict} (h : v.applied = false) :
    verdictCounted s c v = countOf s c.tile (countVerdict (fieldOf s (taField c.tile)) v false c.steps.length) := by
  simp [verdictCounted, injectionUsed, h]

theorem placing_verdictCounted (s : State) (c : Contraction) (v : Verdict) :
    fieldView placing (verdictCounted s c v) = fieldView placing s := by
  refine (fieldView_of_fields (countOf_fields _ _ _)).trans ?_
  unfold injectionUsed
  split
  · exact fieldView_modField (taField c.tile) _ rfl
  · rfl

theorem injCount_verdictCounted {s : State} {c : Contraction} {v : Verdict} (h : v.applied = true) :
    (guardOf (verdictCounted s c v) c.tile).injCount = (guardOf s c.tile).injCount + 1 := by
  rw [verdictCounted, guardOf_of_guards (countOf_guards _ _ _), injectionUsed, if_pos h, useInjection,
    guardOf_of_guards (modField_guards _ _ _), guardOf_modGuard]

/-- R125: a verdict without an injection is enforced unless the field's policy observes every class that failed. -/
theorem originalWord_fails {s : State} {c : Contraction} {v : Verdict} (site : Nat) (h : v.applied = false) (hf : v.fails ≠ []) :
    ∃ cls w, originalWord (verdictCounted s c v) c v site =
      some (cls, w, !v.fails.all (fun e => observed (fieldOf s (taField c.tile)) e.1)) := by
  have hx : fieldOf (verdictCounted s c v) (taField c.tile) = fieldOf s (taField c.tile) :=
    fieldOf_of_fields (by rw [verdictCounted_notApplied h, countOf_fields]) _
  rw [originalWord, hx]
  exact verdictWord_fails _ c _ site h hf

/-- The verdict on a contraction of the original execution, as Table 4.8 arms the tile. -/
abbrev originalVerdict (s : State) (c : Contraction) : Verdict :=
  verdictOf c (exactMode s (taField c.tile)) (armedSite s c.tile .original) ((guardOf s c.tile).injCount + 1)

theorem contractionEnd_original {s : State} {c : Contraction} (hp : physicalOk c.tile = true) (hc : contractionOk c = true)
    (hx : execOf s c.tile = some .original) :
    exec (.contractionEnd c) s = .next (failVerdict (verdictCounted s c (originalVerdict s c)) c .original (originalVerdict s c)
      (armedSite s c.tile .original)) := by
  rw [exec, execContractionEnd, hp, hc, hx, whenSome_some]
  rfl

/-- R106: where the verdict is enforced, CONTRACTION_END leaves the gate of the tile's primary shut. -/
theorem verdictCounted_shuts {s : State} {c : Contraction} {v : Verdict} {site cls : Nat} {w : Dword}
    (h : originalWord (verdictCounted s c v) c v site = some (cls, w, true)) :
    (guardOf (failVerdict (verdictCounted s c v) c .original v site) (primaryOf s c.tile)).gateShut = true := by
  rw [← primaryOf_of_placing (placing_verdictCounted s c v)]
  exact failVerdict_shuts h

theorem contractionVerdicts : Says.ContractionVerdicts := by
  rintro s c f v hp hc rfl hx rfl
  rw [contractionEnd_original hp hc hx]
  refine ⟨fun happ => ?_, fun happ hnone => ?_, fun happ hne hobs => ?_, fun cls d rest happ hcons hobs => ?_⟩
  case _ =>
    obtain ⟨cls, w, hw⟩ := verdictWord_applied _ c _ _ happ
    exact ⟨_, rfl, verdictCounted_shuts hw, (read_of_guardView (injCount_failVerdict hw) c.tile).trans (injCount_verdictCounted happ)⟩
  case _ =>
    rw [failVerdict_none (verdictWord_noFail _ c _ _ happ hnone), verdictCounted_notApplied happ]
    exact ⟨_, rfl, countOf_guards _ _ _, countOf_fields _ _ _, fun l hl hz => live_countOf _ hl hz⟩
  case _ =>
    obtain ⟨cls, w, hw⟩ := originalWord_fails (armedSite s c.tile .original) happ hne
    rw [hobs] at hw
    rw [failVerdict_observed hw, verdictCounted_notApplied happ]
    exact ⟨_, rfl, countOf_fields _ _ _, read_of_guardView
      ((guardView_gring _ _ _ _ _ _ fun _ _ => rfl).trans (guardView_of_guards (countOf_guards _ _ _)))⟩
  case _ =>
    obtain ⟨k, w, hw⟩ := originalWord_fails (armedSite s c.tile .original) happ (hcons ▸ List.cons_ne_nil _ _)
    rw [hobs] at hw
    exact ⟨_, rfl, verdictCounted_shuts hw⟩

end Sys2Proof.Machine
end

section
/-! SUPPORT. Exports at the gate of their tile, in an original execution and in a replay on the tile itself (R106, R158, R160). -/

namespace Sys2Proof.Machine

/-! ### What the gate reads of a guard -/

/-- What decides whether exports leave, and what their leaving adds to. -/
structure GateState where
  shut : Bool
  tainted : Bool
  again : Option (Nat × Dword)
  exportNo : Nat
  ports : List (Nat × Dest)

abbrev gateState (g : Guard) : GateState :=
  { shut := g.gateShut, tainted := g.tainted, again := g.again, exportNo := g.exportNo, ports := g.ports }

theorem gateState_countWait (s : State) (a cycle wait : Nat) :
    guardView gateState (countWait s a cycle wait) = guardView gateState s := by
  unfold countWait
  dsimp only
  split
  · exact (guardView_gring _ _ _ _ _ _ fun _ _ => rfl).trans (guardView_of_guards (countOf_guards _ _ _))
  · exact guardView_of_guards (countOf_guards _ _ _)

@[simp] theorem countWait_fields (s : State) (a cycle wait : Nat) : (countWait s a cycle wait).fields = s.fields :=
  fields_of_erase { guards := true, tiles := true } rfl (by simp)

@[simp] theorem countWait_out (s : State) (a cycle wait : Nat) : (countWait s a cycle wait).out = s.out :=
  out_of_erase { guards := true, tiles := true } rfl (by simp)

/-! ### What leaves -/

section
variable (s : State) {x : Export} (d : Nat)

theorem exportNo_sendExport (wait : Nat) :
    (guardOf (sendExport s x d wait) x.tile).exportNo = (guardOf s x.tile).exportNo := by
  cases hd : x.dest with
  | tile l =>
    simp only [sendExport, hd]
    rw [guardOf_of_guards (sampleHeader_guards _ _ _), guardOf_of_guards (drive_guards _ _), guardOf_modGuard]
  | fabricPort p => simp [sendExport, hd]
  | hostPort => simp [sendExport, hd]

/-- R106: exports to a tile leave at once, under the epoch of the sender's field. -/
theorem sendExport_tile (wait : Nat) {l : Nat} (h : x.dest = .tile l) :
    (sendExport s x d wait).out = .released x.tile d (.tile l) (fieldOf s (taField x.tile)).epoch :: s.out := by
  simp only [sendExport, h, sampleHeader_out, drive_out]
  rfl

/-- R160: exports to a port are held there. -/
theorem sendExport_port (wait : Nat) (h : ∀ l, x.dest ≠ .tile l) :
    (sendExport s x d wait).out = s.out ∧
    (guardOf (sendExport s x d wait) x.tile).ports = (guardOf s x.tile).ports ++ [(d, x.dest)] := by
  cases hd : x.dest with
  | tile l => exact absurd hd (h l)
  | fabricPort p => simp [sendExport, hd]
  | hostPort => simp [sendExport, hd]

/-- R158: what is withheld leaves a marker of its header and length. -/
theorem withhold_marks (n : Nat) :
    (withhold s x n).out = .marker x.tile x.header x.payload.length x.dest :: s.out ∧
    guardView (·.exportNo) (withhold s x n) = guardView (·.exportNo) s := by
  let u := sampleHeader (drive (gring s x.tile 5 n x.cycle 0) (.marker x.tile x.header x.payload.length x.dest)) (taField x.tile) x.header
  have hout : u.out = .marker x.tile x.header x.payload.length x.dest :: s.out := by simp [u]
  have hno : guardView (·.exportNo) u = guardView (·.exportNo) s :=
    (guardView_of_guards ((sampleHeader_guards _ _ _).trans (drive_guards _ _))).trans (guardView_gring _ _ _ _ _ _ fun _ _ => rfl)
  unfold withhold
  dsimp only
  split
  · exact ⟨(noteCross_out u _ _).trans hout, (guardView_of_guards (noteCross_guards u _ _)).trans hno⟩
  · exact ⟨hout, hno⟩

/-- R160: in a replay exports leave to members of the group alone. -/
theorem resendExport_tile {g : Group} {l : Nat} (hg : g.state = .same) (h : x.dest = .tile l) :
    (resendExport s g x d).out = (if g.tiles.contains l then
      .released x.tile d (.tile l) (fieldOf s (taField x.tile)).epoch :: s.out else s.out) ∧
    (resendExport s g x d).guards = s.guards := by
  simp only [resendExport, h, hg]
  split <;> simp

end

/-! ### The gate -/

section
variable {s : State} {x : Export} (n d : Nat)

theorem passGate_open (hshut : (guardOf s x.tile).gateShut = false) (htaint : (guardOf s x.tile).tainted = false)
    (hdroop : (fieldOf s (taField x.tile)).droop = false) :
    passGate s .original x n d = sendExport s x d (gateWait s x) := by
  simp [passGate, hshut, htaint, hdroop]

theorem passGate_withholds
    (h : (guardOf s x.tile).gateShut = true ∨ (guardOf s x.tile).tainted = true ∨ (fieldOf s (taField x.tile)).droop = true) :
    passGate s .original x n d = withhold s x n := by
  obtain h | h | h := h <;> simp [passGate, h]

theorem passGate_same {g : Group} (h : (guardOf s x.tile).again = none) : passGate s (.same g) x n d = resendExport s g x d := by
  simp [passGate, h]

end

/-! ### EXPORT_ATTEMPT -/

/-- The payload is digested and has its number; the gate is still to decide. -/
def numbered (s : State) (m : Exec) (x : Export) : State :=
  modGuard (foldStep s x.tile m (x.header ++ x.payload)) x.tile (fun g => { g with exportNo := g.exportNo + 1 })

/-- What has been numbered stands at the gate; in an original execution it has waited there for its verdict (R106, R416). -/
def atGate (s : State) (m : Exec) (x : Export) : State :=
  if m = .original then countWait (numbered s m x) x.tile x.cycle (gateWait (numbered s m x) x) else numbered s m x

theorem gateState_atGate (s : State) (m : Exec) (x : Export) :
    gateState (guardOf (atGate s m x) x.tile) =
      { gateState (guardOf s x.tile) with exportNo := (guardOf s x.tile).exportNo + 1 } := by
  have h : gateState (guardOf (numbered s m x) x.tile) =
      { gateState (guardOf s x.tile) with exportNo := (guardOf s x.tile).exportNo + 1 } := by
    rw [numbered, guardOf_modGuard, foldStep, guardOf_modGuard]
  unfold atGate
  split
  · exact (read_of_guardView (gateState_countWait _ _ _ _) x.tile).trans h
  · exact h

@[simp] theorem fieldOf_atGate (s : State) (m : Exec) (x : Export) (f : Nat) : fieldOf (atGate s m x) f = fieldOf s f := by
  unfold atGate
  split
  · exact fieldOf_of_fields (countWait_fields _ _ _ _) f
  · rfl

@[simp] theorem atGate_out (s : State) (m : Exec) (x : Export) : (atGate s m x).out = s.out := by
  unfold atGate
  split
  · exact countWait_out _ _ _ _
  · rfl

/-- The digest that leaves with a payload (R130). -/
abbrev exportDigest (s : State) (x : Export) : Nat := digestOf s.arm.digestKey (x.header ++ x.payload)

/-- R144: exports of an unpaired tile meet no shadow's digest: the tile's own gate decides. -/
theorem gateExport_unpaired {s : State} {x : Export} (m : Exec) (d : Nat) (hr : (fieldOf s (taField x.tile)).redund = false) :
    ∃ n, gateExport (foldStep s x.tile m (x.header ++ x.payload)) m x d = passGate (atGate s m x) m x n d := by
  have hshadow : isShadow (numbered s m x) x.tile = false := isShadow_unpaired hr
  have hpair : pairRuns (atGate s m x) x.tile m = false := pairRuns_unpaired m (by rw [fieldOf_atGate, hr])
  exact ⟨_, (if_neg fun h => Bool.eq_false_iff.mp hshadow h.2).trans (if_neg (Bool.eq_false_iff.mp hpair))⟩

theorem exportAttempt_unpaired {s : State} {x : Export} {m : Exec} (hp : physicalOk x.tile = true) (hh : x.header.length = 4)
    (hl : x.payload.length ≤ 2048) (hr : (fieldOf s (taField x.tile)).redund = false) (hkey : digestKeyOf s m = s.arm.digestKey)
    (hx : execOf s x.tile = some m) :
    ∃ n, exec (.exportAttempt x) s = .next (passGate (atGate s m x) m x n (exportDigest s x)) := by
  obtain ⟨n, hn⟩ := gateExport_unpaired m (exportDigest s x) hr
  refine ⟨n, ?_⟩
  rw [exec, execExportAttempt, if_neg (by simp [hp, hh, hl]), hx, whenSome_some, hkey]
  exact congrArg Host.Outcome.next hn

theorem exportRows : Says.ExportRows := by
  intro s x hp hh hl hr
  obtain ⟨hshut, htaint, -, hno, hports⟩ := GateState.mk.inj (gateState_atGate s .original x)
  refine ⟨fun hx hopen hclean hdroop => ?_, fun hx hwhy => ?_, fun g l hx hagain hg hd => ?_⟩
  case _ =>
    obtain ⟨n, hn⟩ := exportAttempt_unpaired hp hh hl hr rfl hx
    rw [passGate_open _ _ (hshut.trans hopen) (htaint.trans hclean) (by rw [fieldOf_atGate, hdroop])] at hn
    refine ⟨_, hn, (exportNo_sendExport _ _ _).trans hno, fun l hd => ?_, fun hd => ?_⟩
    · rw [sendExport_tile _ _ _ hd, fieldOf_atGate, atGate_out]
    · obtain ⟨hout, hheld⟩ := sendExport_port (atGate s .original x) (exportDigest s x) (gateWait (atGate s .original x) x) hd
      exact ⟨hout.trans (atGate_out s _ x), by rw [hheld, hports]⟩
  case _ =>
    obtain ⟨n, hn⟩ := exportAttempt_unpaired hp hh hl hr rfl hx
    rw [passGate_withholds _ _ (by rwa [fieldOf_atGate, hshut, htaint])] at hn
    obtain ⟨hout, hkept⟩ := withhold_marks (atGate s .original x) (x := x) n
    exact ⟨_, hn, by rw [hout, atGate_out], (read_of_guardView hkept _).trans hno⟩
  case _ =>
    obtain ⟨n, hn⟩ := exportAttempt_unpaired hp hh hl hr rfl hx
    obtain ⟨-, -, hsame, hnext, -⟩ := GateState.mk.inj (gateState_atGate s (.same g) x)
    rw [passGate_same _ _ (hsame.trans hagain)] at hn
    obtain ⟨hout, hguards⟩ := resendExport_tile (atGate s (.same g) x) (exportDigest s x) hg hd
    exact ⟨_, hn, by rw [guardOf_of_guards hguards, hnext], by rw [hout, fieldOf_atGate, atGate_out]⟩

/-- Settles O46: a verdict by what it comes to (nothing, an entry of the ring, the primary's shut gate), exports by what the gate
reads of the guard. -/
theorem verdictsAndExports : Obligations.VerdictsAndExports := ⟨contractionVerdicts, exportRows⟩

end Sys2Proof.Machine
end

section
/-! SUPPORT. Own writes, mesh writes, markers and the arrival of a tile at its seam (R21, R130, R144, R152 to R154, R158, R159, R169). -/

namespace Sys2Proof.Machine

/-! ### What is kept of a guard -/

theorem guards_of_erase (κ : Mask) {s t : State} (hκ : κ.guards = false) (h : erase κ t = erase κ s) : t.guards = s.guards := by
  simpa [erase, hκ] using congrArg State.guards h

theorem guardOf_modGuard_other (s : State) (g : Guard → Guard) {a b : Nat} (h : b ≠ a) : guardOf (modGuard s a g) b = guardOf s b :=
  guardOf_setGuard_other s a b _ h

theorem guardView_foldl {α β : Type} {π : Guard → α} (u : State → β → State) (h : ∀ s b, guardView π (u s b) = guardView π s)
    (l : List β) (s : State) : guardView π (l.foldl u s) = guardView π s := by
  induction l generalizing s with
  | nil => rfl
  | cons b l ih => rw [List.foldl_cons, ih, h]

/-- A tile is in a step of its field while its execution is the original one. -/
theorem inField_of_original {s : State} {a : Nat} (h : execOf s a = some .original) : inField s a = true := by
  have hstep : inStep s a = true := by
    by_contra hn
    simp only [execOf, if_neg hn] at h
    repeat' split at h
    all_goals cases h
  exact (Bool.and_eq_true_iff.mp hstep).1

/-! ### Own writes and mesh writes -/

/-- What follows a write of a row reaches snapshots and contexts, and no guard (R137, R179). -/
@[simp] theorem rowWritten_guards (s : State) (a row : Nat) : (rowWritten s a row).guards = s.guards :=
  guards_of_erase { hutch := true, fields := true, side := true, arrivals := true } rfl (by simp)

/-- The rows touched in a step, with a further one. -/
def touchRow (l : List Nat) (row : Nat) : List Nat := if l.contains row then l else l ++ [row]

theorem touchRow_contains (l : List Nat) (row : Nat) : (touchRow l row).contains row = true := by
  unfold touchRow
  split
  case isTrue h => exact h
  case isFalse => simp

section
variable (s : State) (a row : Nat) (full rb : Bool) (old : BitVec 512)

/-- R153: the row is touched now; beside it only the rows held and their overflow may change. -/
theorem guardOf_captureRow : ∃ undo ovf, guardOf (captureRow s a row full rb old) a =
    { guardOf s a with touched := touchRow (guardOf s a).touched row, undo := undo, holdOvf := ovf } := by
  unfold captureRow
  extract_lets g known exempt u
  have hu : guardOf u a = { g with touched := touchRow g.touched row } := guardOf_modGuard _ _ _
  split
  · exact ⟨_, _, hu⟩
  · split
    · exact ⟨_, _, by rw [guardOf_modGuard, hu]⟩
    · exact ⟨_, _, by rw [guardOf_of_guards (countOf_guards _ _ _), guardOf_modGuard, hu]⟩

theorem guardOf_captureRow_other {b : Nat} (h : b ≠ a) : guardOf (captureRow s a row full rb old) b = guardOf s b := by
  unfold captureRow
  extract_lets g known exempt u
  have hu : guardOf u b = guardOf s b := guardOf_modGuard_other _ _ h
  split
  · exact hu
  · split
    · rw [guardOf_modGuard_other _ _ h, hu]
    · rw [guardOf_of_guards (countOf_guards _ _ _), guardOf_modGuard_other _ _ h, hu]

end

theorem sramOwnWrite_original {s : State} {a row addr : Nat} (data : List Word) (full rb : Bool) (old : BitVec 512)
    (hp : physicalOk a = true) (hx : execOf s a = some .original) (hr : row < 1024) (ha : addr / 64 = row) :
    exec (.sramOwnWrite a row addr data full rb old) s =
      .next (rowWritten (captureRow (foldStep s a .original (writeSyms addr data)) a row full rb old) a row) := by
  rw [exec, execSramOwnWrite, if_neg (by simp [hp, hr, ha]), hx, whenSome_some]

/-- R154: a mesh write that comes after an own access of its row, of a step not yet marked. -/
def comesLate (g : Guard) (row : Nat) (rb : Bool) : Bool := (rb || g.touched.contains row) && !g.inbound

/-- R154: INBOUND_ORDER is set by a late write, and counted. -/
def inboundMarked (s : State) (a row : Nat) (rb : Bool) : State :=
  if comesLate (guardOf s a) row rb then
    countOf (modGuard s a (fun g => { g with inbound := true })) a (fun c => { c with inbound := sat32 (c.inbound + 1) })
  else s

theorem meshWriteReceive_eq {s : State} {a row : Nat} (rb : Bool) (hp : physicalOk a = true) (hf : inField s a = true)
    (hr : row < 1024) : exec (.meshWriteReceive a row rb) s = .next (rowWritten (inboundMarked s a row rb) a row) := by
  rw [exec, execMeshWriteReceive, if_neg (by simp [hp, hr]), hf, whenOk_true]
  rfl

theorem inbound_inboundMarked (s : State) (a row : Nat) (rb : Bool) : (guardOf (inboundMarked s a row rb) a).inbound =
    ((guardOf s a).inbound || rb || (guardOf s a).touched.contains row) := by
  unfold inboundMarked comesLate
  cases hi : (guardOf s a).inbound
  case true => simp [hi]
  case false =>
    split
    case isTrue h =>
      rw [guardOf_of_guards (countOf_guards _ _ _), guardOf_modGuard]
      simpa using h
    case isFalse h => simpa [hi] using h

theorem guardOf_inboundMarked_other (s : State) (row : Nat) (rb : Bool) {a b : Nat} (h : b ≠ a) :
    guardOf (inboundMarked s a row rb) b = guardOf s b := by
  unfold inboundMarked
  split
  · rw [guardOf_of_guards (countOf_guards _ _ _), guardOf_modGuard_other _ _ h]
  · rfl

/-! ### Markers -/

/-- R158, R159: whatever a taint leads to in the field, of the receiver's guard it sets TAINTED alone. -/
theorem guardOf_taint (s : State) (a org : Nat) : guardOf (taint s a org) a = { guardOf s a with tainted := true } := by
  have hcount : guardOf (if (guardOf s a).tainted then s else countOf s a (fun c => { c with taint := sat32 (c.taint + 1) })) a =
      guardOf s a := by
    split
    · rfl
    · exact guardOf_of_guards (countOf_guards _ _ _) a
  unfold taint
  extract_lets f u v
  have hv : guardOf v a = { guardOf s a with tainted := true } := by
    have hu : guardOf u a = guardOf s a := hcount
    rw [guardOf_modGuard, hu]
  split
  · exact (guardOf_of_guards (modField_guards _ _ _) a).trans hv
  · split
    · exact (guardOf_of_guards (modField_guards _ _ _) a).trans hv
    · exact hv

section
variable {s : State} {a org edge : Nat} (hp : physicalOk a = true) (hf : inField s a = true) (ho : logicalOk org = true) (he : edge < 4)
include hp hf ho he

theorem withheldMarkerReceive_eq (h : Word) :
    exec (.withheldMarkerReceive a org edge h) s = .next (taint (gring s a 4 edge 0 (h.setWidth 64)) a org) := by
  rw [exec, execWithheldMarkerReceive, if_neg (by simp [hp, ho, he]), hf, whenOk_true]

theorem recallMarkerReceive_eq : exec (.recallMarkerReceive a org edge) s =
    .next (taint (modGuard (countOf (gring s a 6 edge 0 0) a (fun c => { c with recalls := sat32 (c.recalls + 1) })) a
      (fun g => { g with recalled := true })) a org) := by
  rw [exec, execRecallMarkerReceive, if_neg (by simp [hp, ho, he]), hf, whenOk_true]

end

/-! ### Arrival at the seam -/

/-- What the arrival sets in a guard. -/
abbrev arrivalState (g : Guard) : Bool × List Word := (g.arrived, g.enginesNext)

theorem arrivalState_latchFailure (s : State) (a cls : Nat) (w : Dword) (instr : Nat) :
    guardView arrivalState (latchFailure s a cls w instr) = guardView arrivalState s := by
  unfold latchFailure
  split
  · exact guardView_modGuard a _ rfl
  · dsimp only
    split
    · exact guardView_modGuard a _ rfl
    · exact (guardView_of_guards (modField_guards _ _ _)).trans (guardView_modGuard a _ rfl)

theorem arrivalState_gring (s : State) (a typ arg cycle : Nat) (w : Dword) :
    guardView arrivalState (gring s a typ arg cycle w) = guardView arrivalState s := guardView_gring _ _ _ _ _ _ fun _ _ => rfl

theorem arrivalState_pairDisagrees (s : State) (a : Nat) (replayed : Bool) (kind cycle n : Nat) :
    guardView arrivalState (pairDisagrees s a replayed kind cycle n) = guardView arrivalState s := by
  unfold pairDisagrees
  dsimp only
  split
  · exact (guardView_modGuard a _ rfl).trans (arrivalState_gring _ _ _ _ _ _)
  · exact (arrivalState_latchFailure _ _ _ _ _).trans (arrivalState_gring _ _ _ _ _ _)

theorem arrivalState_withhold (s : State) (x : Export) (n : Nat) :
    guardView arrivalState (withhold s x n) = guardView arrivalState s := by
  have h : guardView arrivalState (sampleHeader (drive (gring s x.tile 5 n x.cycle 0)
      (.marker x.tile x.header x.payload.length x.dest)) (taField x.tile) x.header) = guardView arrivalState s :=
    (guardView_of_guards (sampleHeader_guards _ _ _)).trans (arrivalState_gring _ _ _ _ _ _)
  unfold withhold
  dsimp only
  split
  · exact (guardView_of_guards (noteCross_guards _ _ _)).trans h
  · exact h

/-- R144, R145: the comparison of a pair may shut a gate, and takes back no arrival. -/
theorem arrivalState_settlePair (s : State) (m : Exec) (p h cycle : Nat) :
    guardView arrivalState (settlePair s m p h cycle) = guardView arrivalState s := by
  unfold settlePair
  extract_lets left u v
  have hv : guardView arrivalState v = guardView arrivalState s :=
    (guardView_foldl _ (fun t k => (arrivalState_withhold _ _ _).trans (arrivalState_pairDisagrees _ _ _ _ _ _)) left u).trans
      (guardView_modGuard p _ rfl)
  split
  · exact hv
  · exact (arrivalState_pairDisagrees _ _ _ _ _ _).trans hv

theorem arrivalState_pairArrives (s : State) (a cycle : Nat) :
    guardView arrivalState (pairArrives s a cycle) = guardView arrivalState s := by
  unfold pairArrives
  dsimp only
  split
  · exact guardView_of_guards (modField_guards _ _ _)
  · split
    · exact (guardView_of_guards (modField_guards _ _ _)).trans (arrivalState_settlePair _ _ _ _ _)
    · rfl

/-- R21, R152: the tile has arrived, with the checkpoint and the ring entry of its step; what its field counts is still to come. -/
def tileArrived (s : State) (a cycle : Nat) (cp : List Word) : State :=
  let t := modGuard (modGuard s a (fun g => { g with enginesNext := cp })) a (fun g => { g with arrived := true })
  gring t a 1 (stepFlags (guardOf t a)) cycle 0

theorem arrivalState_tileArrived (s : State) (a cycle : Nat) (cp : List Word) :
    arrivalState (guardOf (tileArrived s a cycle cp) a) = (true, cp) :=
  (read_of_guardView (arrivalState_gring _ _ _ _ _ _) a).trans (by simp)

@[simp] theorem fieldOf_tileArrived (s : State) (a cycle : Nat) (cp : List Word) (f : Nat) :
    fieldOf (tileArrived s a cycle cp) f = fieldOf s f := rfl

theorem tileSeamReach_original {s : State} {a : Nat} (cycle : Nat) {cp : List Word} (hp : physicalOk a = true)
    (hx : execOf s a = some .original) (hcp : cp.length = 64) :
    exec (.tileSeamReach a cycle cp none) s = .next (pairArrives (tileArrived s a cycle cp) a cycle) := by
  rw [exec, execTileSeamReach, if_neg (by simp [hp, hcp]), hx]
  rfl

/-- R144: an unpaired tile counts for itself. -/
theorem arrived_pairArrives_unpaired (s : State) (a cycle : Nat) (hr : (fieldOf s (taField a)).redund = false) :
    (fieldOf (pairArrives s a cycle) (taField a)).arrived = (fieldOf s (taField a)).arrived + 1 := by
  simp [pairArrives, shadowOfTile_unpaired hr]

/-! ### The events of a tile -/

/-- Settles O47: each event by what it leaves in the tile's guard. -/
theorem tileEvents : Obligations.TileEvents := by
  rintro s a f hp rfl hx
  have hin := inField_of_original hx
  refine ⟨fun row addr data full rb old hr ha => ?_, fun row rb hr => ?_, fun org edge h ho he => ?_, fun org edge ho he => ?_,
    fun cycle cp hcp => ?_⟩
  case _ =>
    obtain ⟨undo, ovf, hc⟩ := guardOf_captureRow (foldStep s a .original (writeSyms addr data)) a row full rb old
    refine ⟨_, sramOwnWrite_original data full rb old hp hx hr ha, ?_, ?_, fun b hb => ?_⟩
    · rw [guardOf_of_guards (rowWritten_guards _ _ _), hc]
      exact touchRow_contains _ _
    · rw [guardOf_of_guards (rowWritten_guards _ _ _), hc, foldStep, guardOf_modGuard]
      rfl
    · rw [guardOf_of_guards (rowWritten_guards _ _ _), guardOf_captureRow_other _ _ _ _ _ _ hb, foldStep, guardOf_modGuard_other _ _ hb]
  case _ =>
    refine ⟨_, meshWriteReceive_eq rb hp hin hr, ?_, fun b hb => ?_⟩
    · rw [guardOf_of_guards (rowWritten_guards _ _ _), inbound_inboundMarked]
    · rw [guardOf_of_guards (rowWritten_guards _ _ _), guardOf_inboundMarked_other _ _ _ hb]
  case _ =>
    refine ⟨_, withheldMarkerReceive_eq hp hin ho he h, ?_, ?_⟩
    · rw [guardOf_taint]
    · rw [guardOf_taint]
      exact read_of_guardView (π := (·.recalled)) (guardView_gring _ _ _ _ _ _ fun _ _ => rfl) a
  case _ =>
    refine ⟨_, recallMarkerReceive_eq hp hin ho he, ?_, ?_⟩
    · rw [guardOf_taint]
    · rw [guardOf_taint, guardOf_modGuard]
  case _ =>
    have h := (read_of_guardView (arrivalState_pairArrives (tileArrived s a cycle cp) a cycle) a).trans
      (arrivalState_tileArrived s a cycle cp)
    obtain ⟨harr, hcp'⟩ := Prod.mk.inj h
    refine ⟨_, tileSeamReach_original cycle hp hx hcp, harr, hcp', fun hr => ?_⟩
    rw [arrived_pairArrives_unpaired (tileArrived s a cycle cp) a cycle hr, fieldOf_tileArrived]

end Sys2Proof.Machine
end

section
/-! SUPPORT. Replay groups: how they are found, what starting and ending some leaves of the others, and the rows of replays (R156, R157,
R162 to R168). -/

namespace Sys2Proof.Machine

/-! ### Finding a group -/

/-- Every part of State that the work on a group may change but the groups. -/
def exceptGroups : Mask :=
  { hutch := true, parts := true, fields := true, guards := true, tiles := true, hang := true, sched := true, sig := true,
    out := true, arrivals := true }

section
variable {s t : State} {g k : Group} {i : Nat}

theorem groups_of_exceptGroups (h : erase exceptGroups t = erase exceptGroups s) : t.groups = s.groups := by
  simpa [erase, exceptGroups] using congrArg State.groups h

theorem findGroup_of_groups (h : t.groups = s.groups) (i : Nat) : findGroup t i = findGroup s i := by rw [findGroup, findGroup, h]

theorem mem_of_findGroup (h : findGroup s i = some g) : g ∈ s.groups := List.mem_of_find?_eq_some h

theorem id_of_findGroup (h : findGroup s i = some g) : g.id = i := by simpa using List.find?_some h

theorem findGroup_setGroup (s : State) (k : Group) (i : Nat) :
    findGroup (setGroup s k) i = (findGroup s i).map (fun h => if h.id = k.id then k else h) :=
  find_map_same _ _ (fun h => by split <;> simp [*]) _

theorem findGroup_setGroup_other (h : k.id ≠ i) : findGroup (setGroup s k) i = findGroup s i := by
  rw [findGroup_setGroup]
  cases hf : findGroup s i with
  | none => rfl
  | some g => rw [Option.map_some, if_neg (id_of_findGroup hf ▸ h.symm)]

theorem findGroup_setGroup_same (hg : findGroup s k.id = some g) : findGroup (setGroup s k) k.id = some k := by
  rw [findGroup_setGroup, hg, Option.map_some, if_pos (id_of_findGroup hg)]

theorem findGroup_of_mem (hg : g ∈ s.groups) : ∃ h, findGroup s g.id = some h :=
  Option.isSome_iff_exists.mp (List.find?_isSome.mpr ⟨g, hg, beq_self_eq_true _⟩)

theorem findGroup_dropGroup_other {j : Nat} (h : j ≠ i) : findGroup (dropGroup s j) i = findGroup s i := by
  simp only [findGroup, dropGroup, List.find?_filter]
  congr 1
  funext g
  by_cases hg : g.id = i
  · simp [hg, h.symm]
  · simp [hg]

end

/-! ### What is done with a group leaves the others -/

section
variable (s : State) {g : Group} {i : Nat}

theorem groups_runOwn (g : Group) (st : GroupState) : (runOwn s g st).groups = (setGroup s { g with state := st, since := s.now }).groups :=
  groups_of_exceptGroups (by simp [runOwn, exceptGroups])

theorem findGroup_runOwn_other (st : GroupState) (h : g.id ≠ i) : findGroup (runOwn s g st) i = findGroup s i :=
  (findGroup_of_groups (groups_runOwn s g st) i).trans (findGroup_setGroup_other (by exact h))

theorem findGroup_startCopies_other (h : g.id ≠ i) : findGroup (startCopies s g) i = findGroup s i := by
  unfold startCopies
  extract_lets u
  calc _ = findGroup u i := findGroup_of_groups (groups_of_exceptGroups (by simp [exceptGroups])) i
    _ = findGroup s i := findGroup_setGroup_other (by exact h)

theorem findGroup_loseGroup_other (outcome spare : Nat) (suspects : List Nat) (detail : Dword) (h : g.id ≠ i) :
    findGroup (loseGroup s g outcome spare suspects detail) i = findGroup s i := by
  unfold loseGroup
  extract_lets u v w
  calc _ = findGroup w i := findGroup_of_groups (groups_of_exceptGroups (by simp [exceptGroups])) i
    _ = findGroup v i := findGroup_dropGroup_other h
    _ = findGroup s i := findGroup_of_groups (groups_of_exceptGroups (by simp [exceptGroups, v, u])) i

theorem findGroup_moveToSpares_other (again : List ReplayFail) (h : g.id ≠ i) : findGroup (moveToSpares s g again) i = findGroup s i := by
  unfold moveToSpares
  extract_lets u lone sus spares failed k v
  have hu : findGroup u i = findGroup s i := findGroup_of_groups (groups_of_exceptGroups (by simp [exceptGroups, u])) i
  have hv : findGroup v i = findGroup s i := (findGroup_setGroup_other (by exact h)).trans hu
  split_ifs
  · exact (findGroup_loseGroup_other _ _ _ _ _ h).trans hu
  · exact (findGroup_startCopies_other _ (by exact h)).trans hv
  · exact hv

theorem findGroup_startGroup_other (h : g.id ≠ i) : findGroup (startGroup s g) i = findGroup s i := by
  unfold startGroup
  extract_lets u skip k
  have hu : findGroup u i = findGroup s i := findGroup_of_groups (groups_of_exceptGroups (by simp [exceptGroups, u])) i
  split
  · exact (findGroup_runOwn_other _ _ (by exact h)).trans hu
  · exact ((findGroup_moveToSpares_other _ _ (by exact h)).trans (findGroup_setGroup_other (by exact h))).trans hu

end

/-! ### Groups start in their turn -/

/-- The group of a number starts where it may. -/
def startIf (may : State → Group → Bool) (start : State → Group → State) (s : State) (id : Nat) : State :=
  match findGroup s id with
  | some g => if may s g then start s g else s
  | none => s

theorem startWaiting_eq (s : State) (f c : Nat) : startWaiting s f c = (groupOrder s).foldl
    (startIf (fun s g => g.fields.contains f && startable s g) (fun s g => startGroup s (afterWait s g c))) s := rfl

theorem startSpares_eq (s : State) (f c : Nat) : startSpares s f c = (groupOrder s).foldl
    (startIf (fun s g => g.fields.contains f && spareStartable s g) (fun s g => startCopies s (afterWait s g c))) s := rfl

section
variable {may : State → Group → Bool} {start : State → Group → State} {s : State} {k : Group} {i : Nat}

theorem startIf_of_may {g : Group} (hg : findGroup s i = some g) (hm : may s g = true) : startIf may start s i = start s g := by
  simp only [startIf, hg, hm, if_true]

theorem startIf_of_not_may (h : ∀ g ∈ s.groups, may s g = false) (i : Nat) : startIf may start s i = s := by
  unfold startIf
  split
  case h_1 g hg => rw [h g (mem_of_findGroup hg), if_neg Bool.false_ne_true]
  case h_2 => rfl

/-- A group that may not start stands through the start of others. -/
theorem findGroup_foldl_startIf (hmay : ∀ s, may s k = false)
    (hstart : ∀ s g, g.id ≠ i → findGroup (start s g) i = findGroup s i) (ids : List Nat) (hk : findGroup s i = some k) :
    findGroup (ids.foldl (startIf may start) s) i = some k := by
  induction ids generalizing s with
  | nil => exact hk
  | cons j ids ih =>
    refine ih ?_
    unfold startIf
    split
    case h_1 g hg =>
      split
      case isTrue hm =>
        have hne : g.id ≠ i := by
          rintro rfl
          rw [← id_of_findGroup hg, hk] at hg
          obtain rfl := Option.some.inj hg
          rw [hmay] at hm
          cases hm
        rw [hstart s g hne, hk]
      case isFalse => exact hk
    case h_2 => exact hk

end

theorem startWaiting_keeps {s : State} {k : Group} {i : Nat} (f c : Nat) (hs : k.state ≠ .waiting) (hk : findGroup s i = some k) :
    findGroup (startWaiting s f c) i = some k := by
  rw [startWaiting_eq]
  refine findGroup_foldl_startIf (fun s => ?_) (fun s g h => findGroup_startGroup_other s (by exact h)) _ hk
  simp [startable, hs]

theorem startSpares_keeps {s : State} {k : Group} {i : Nat} (f c : Nat) (hs : k.state ≠ .waitSpare) (hk : findGroup s i = some k) :
    findGroup (startSpares s f c) i = some k := by
  rw [startSpares_eq]
  refine findGroup_foldl_startIf (fun s => ?_) (fun s g h => findGroup_startCopies_other s (by exact h)) _ hk
  simp [spareStartable, hs]

/-- R249: where no group waits for spares, none starts on them. -/
theorem startSpares_none {s : State} (f c : Nat) (h : ∀ g ∈ s.groups, g.state ≠ .waitSpare) : startSpares s f c = s := by
  rw [startSpares_eq]
  exact List.foldl_fixed' (startIf_of_not_may fun g hg => by simp [spareStartable, h g hg]) _

end Sys2Proof.Machine
end

section
/-! SUPPORT. The rows of replay groups (R156, R157, R162 to R168). -/

namespace Sys2Proof.Machine

/-! ### What a replay reads of tiles and fields -/

/-- What of a field decides whether a failed tile skips its replay in place (R164, R166). -/
abbrev skipping (x : Field) : (Bool × FieldMap) × Bool := (placing x, x.spareFirst)

section
variable {s t : State}

theorem redund_of_placing (h : fieldView placing t = fieldView placing s) (f : Nat) : (fieldOf t f).redund = (fieldOf s f).redund :=
  congrArg Prod.fst (read_of_fieldView h f)

theorem map_of_placing (h : fieldView placing t = fieldView placing s) (f : Nat) : (fieldOf t f).map = (fieldOf s f).map :=
  congrArg Prod.snd (read_of_fieldView h f)

theorem ownerOf_of_placing (h : fieldView placing t = fieldView placing s) (f p : Nat) :
    ownerOf (fieldOf t f) p = ownerOf (fieldOf s f) p := by
  rw [ownerOf, map_of_placing h, ownerOf]

theorem physOf_of_placing (h : fieldView placing t = fieldView placing s) (l : Nat) : physOf t l = physOf s l := by
  rw [physOf, ownerOf_of_placing h, posOf, redund_of_placing h, physOf, posOf]

theorem logOf_of_placing (h : fieldView placing t = fieldView placing s) (a : Nat) : logOf t a = logOf s a := by
  have hserved : servedBy (fieldOf t (taField a)) = servedBy (fieldOf s (taField a)) := by
    funext p
    rw [servedBy, map_of_placing h, ownerOf_of_placing h, servedBy]
  have hplace : placeOfPos (fieldOf t (taField a)) = placeOfPos (fieldOf s (taField a)) := by
    funext p
    rw [placeOfPos, redund_of_placing h, placeOfPos]
  rw [logOf, hserved, hplace, logOf]

theorem shadowOfTile_of_placing (h : fieldView placing t = fieldView placing s) (a : Nat) : shadowOfTile t a = shadowOfTile s a := by
  simp only [shadowOfTile, redund_of_placing h, logOf_of_placing h, ownerOf_of_placing h]

theorem isPair_of_placing (h : fieldView placing t = fieldView placing s) (l : Nat) : isPair t l = isPair s l := by
  rw [isPair, physOf_of_placing h, shadowOfTile_of_placing h, isPair]

theorem againOf_of_guards (hf : t.fields = s.fields) (hg : t.guards = s.guards) (hn : t.now = s.now) : againOf t = againOf s := by
  have hp := fieldView_of_fields (π := placing) hf
  funext l
  simp only [againOf, physOf_of_placing hp, shadowOfTile_of_placing hp, guardOf_of_guards hg, hn]

theorem spareAgain_of_guards (hg : t.guards = s.guards) (hn : t.now = s.now) : spareAgain t = spareAgain s := by
  funext e
  rw [spareAgain, spareAgain, guardOf_of_guards hg, hn]

theorem skipsSame_of_skipping (h : fieldView skipping t = fieldView skipping s) (g : Group) (r : ReplayFail) :
    skipsSame t g r = skipsSame s g r := by
  have hp : fieldView placing t = fieldView placing s := funext fun f => congrArg Prod.fst (congrFun h f)
  have hs : (fieldOf t (taField r.tile)).spareFirst = (fieldOf s (taField r.tile)).spareFirst := congrArg Prod.snd (congrFun h _)
  simp only [skipsSame, isPair_of_placing hp, hs]

end

/-! ### REPLAY_GROUP_START -/

/-- R156: a group of which no tile skips its replay in place runs whole on its own tiles. -/
theorem startGroup_of_noSkip {s : State} {g : Group} (h : ∀ r ∈ g.failed, skipsSame s g r = false) :
    startGroup s g = runOwn (ringReplay s g.field 5 (groupWord s g 0 0xFFFFFF)) { g with round := g.tiles } .same := by
  unfold startGroup
  extract_lets u skip k
  have hu : fieldView skipping u = fieldView skipping s := fieldView_wring _ _ _ _ fun _ _ => rfl
  have hskip : skip = [] := List.filter_eq_nil_iff.mpr fun r hr => by
    rw [skipsSame_of_skipping hu, h r hr]
    exact Bool.false_ne_true
  rw [hskip, List.isEmpty_nil, if_pos rfl]

theorem sortBy_singleton {α : Type} (le : α → α → Bool) (a : α) : sortBy le [a] = [a] := by
  have hlog : Nat.log2 1 = 0 := by decide
  simp [sortBy, sortHalves, hlog, mergeBy]

theorem startWaiting_single {s : State} {f c : Nat} {g : Group} (hs : s.groups = [g]) (hf : g.fields.contains f = true)
    (hg : startable s g = true) : startWaiting s f c = startGroup s (afterWait s g c) := by
  have horder : groupOrder s = [g.id] := by
    rw [groupOrder, hs, sortBy_singleton]
    rfl
  have hfind : findGroup s g.id = some g := by simp [findGroup, hs]
  rw [startWaiting_eq, horder, List.foldl_cons, List.foldl_nil, startIf_of_may hfind (by rw [hf, hg]; rfl)]

theorem replayGroupStart_waiting {s : State} {f : Nat} {g : Group} (hf : f < 84) (hc : clocked s = true) (hs : s.groups = [g])
    (hgf : g.fields.contains f = true) (hg : startable s g = true) (hskip : ∀ r ∈ g.failed, skipsSame s g r = false) :
    ∃ t h, exec (.replayGroupStart f) s = .next t ∧ t.groups = [h] ∧ h.id = g.id ∧ h.state = .same ∧ h.tiles = g.tiles ∧
      h.round = g.tiles := by
  have hgroups : (startWaiting s f 0).groups =
      [{ afterWait s g 0 with round := g.tiles, state := .same, since := s.now }] := by
    rw [startWaiting_single hs hgf hg, startGroup_of_noSkip (g := afterWait s g 0) hskip, groups_runOwn]
    simp [setGroup, ringReplay, wring, hs, afterWait]
  refine ⟨_, _, ?_, hgroups, rfl, rfl, rfl, rfl⟩
  have hnone : startSpares (startWaiting s f 0) f 0 = startWaiting s f 0 := startSpares_none _ _ (by rw [hgroups]; simp)
  have hany : s.groups.any (fun g => g.fields.contains f && (startable s g || spareStartable s g)) = true := by
    rw [hs, List.any_cons, hgf, hg]
    rfl
  rw [exec, execReplayGroupStart, if_neg (by omega), hc, hany, hnone]
  rfl

/-! ### Verdicts -/

/-- The group's cycles are charged, and the counters of its tiles. -/
def charged (s : State) (g : Group) (moved : List Nat) (cycles : Nat) : State :=
  countReplay (setGroup s { g with cycles := g.cycles + cycles }) g.tiles moved cycles

section
variable (s : State) (g : Group) (moved : List Nat) (cycles : Nat)

theorem erase_charged : erase { tiles := true, groups := true } (charged s g moved cycles) = erase { tiles := true, groups := true } s := by
  simp [charged]

theorem againOf_charged : againOf (charged s g moved cycles) = againOf s :=
  againOf_of_guards (fields_of_erase _ rfl (erase_charged s g moved cycles)) (guards_of_erase _ rfl (erase_charged s g moved cycles))
    (now_of_erase _ rfl (erase_charged s g moved cycles))

theorem spareAgain_charged : spareAgain (charged s g moved cycles) = spareAgain s :=
  spareAgain_of_guards (guards_of_erase _ rfl (erase_charged s g moved cycles)) (now_of_erase _ rfl (erase_charged s g moved cycles))

theorem isPair_charged (l : Nat) : isPair (charged s g moved cycles) l = isPair s l :=
  isPair_of_placing (fieldView_of_erase _ rfl (erase_charged s g moved cycles)) l

theorem findGroup_charged (hg : g ∈ s.groups) :
    findGroup (charged s g moved cycles) g.id = some { g with cycles := g.cycles + cycles } := by
  obtain ⟨h, hh⟩ := findGroup_of_mem hg
  exact (findGroup_of_groups (groups_of_exceptGroups (by simp [charged, exceptGroups])) _).trans
    (findGroup_setGroup_same (k := { g with cycles := g.cycles + cycles }) hh)

end

section
variable {s : State} {g k : Group}

theorem findGroup_passSame (h : findGroup s g.id = some k) : findGroup (passSame s g) g.id = some { g with state := .done } := by
  unfold passSame
  extract_lets u
  exact findGroup_setGroup_same (k := { g with state := .done })
    ((findGroup_of_groups (groups_of_exceptGroups (by simp [exceptGroups, u])) _).trans h)

theorem findGroup_passSpare (h : findGroup s g.id = some k) : findGroup (passSpare s g) g.id = some { g with state := .done } := by
  unfold passSpare
  extract_lets spare out seqNo u word v
  exact findGroup_setGroup_same (k := { g with state := .done })
    ((findGroup_of_groups (groups_of_exceptGroups (by simp [exceptGroups, u, v])) _).trans h)

end

theorem replayVerdict_passes {s : State} {g : Group} (cycles : Nat)
    (hfind : s.groups.find? (fun h => h.id == g.id && h.state == .same && wardenRuns s h.field && rerunDone s h) = some g)
    (hagain : g.round.filterMap (againOf s) = []) :
    exec (.replayVerdict g.id cycles) s = .next (startWaiting (passSame (charged s g [] cycles) { g with cycles := g.cycles + cycles })
      g.field (g.cycles + cycles)) := by
  rw [exec, execReplayVerdict, hfind, whenSome_some]
  extract_lets h u again v
  have hredone : againOf u = againOf s := againOf_charged s g [] cycles
  have hnone : again = [] := by
    change failOrder (g.round.filterMap (againOf u)) = []
    rw [hredone, hagain]
    rfl
  simp only [hnone, v]
  rfl

theorem spareReplayVerdict_passes {s : State} {g : Group} (cycles : Nat)
    (hfind : s.groups.find? (fun h => h.id == g.id && h.state == .spare && wardenRuns s h.field && rerunDone s h) = some g)
    (hagain : g.round.filterMap (againOf s) = []) (hspares : ∀ e ∈ g.spares, spareAgain s e = none ∧ isPair s e.1 = false) :
    exec (.spareReplayVerdict g.id cycles) s = .next (startSpares (startWaiting
      (passSpare (charged s g (g.spares.map (·.1)) cycles) { g with cycles := g.cycles + cycles })
      g.field (g.cycles + cycles)) g.field (g.cycles + cycles)) := by
  rw [exec, execSpareReplayVerdict, hfind, whenSome_some]
  extract_lets h u onSpare new v bad
  have hspare : spareAgain u = spareAgain s := spareAgain_charged s g _ cycles
  have hpair (l : Nat) : isPair u l = isPair s l := isPair_charged s g _ cycles l
  have hredone : againOf u = againOf s := againOf_charged s g _ cycles
  have hnew : new = [] := by
    change failOrder (g.round.filterMap (againOf u)) = []
    rw [hredone, hagain]
    rfl
  have honSpare : onSpare = [] := List.filterMap_eq_nil_iff.mpr fun e he => by rw [hspare, (hspares e he).1]
  have hfailed : h.spares.filter (fun e => (spareAgain u e).isSome) = [] :=
    List.filter_eq_nil_iff.mpr fun e he => by simp [hspare, hspares e he]
  have hv : v = u := by simp only [v, hfailed, List.foldl_nil]
  have hbad : h.spares.filter (unresolved u) = [] :=
    List.filter_eq_nil_iff.mpr fun e he => by simp [unresolved, hspare, hpair, hspares e he]
  simp only [hnew, honSpare, hv, hbad, bad]
  rfl

/-! ### IMAGE_COPY_DONE -/

theorem imageCopyDone_agrees {s : State} {f u l : Nat} (dig cycles : Nat) {g : Group} (hf : f < 84) (hu : u < 10000)
    (hw : wardenRuns s f = true)
    (hfind : s.groups.find? (fun h => h.state == .copying && h.spares.any (fun e => e.2 == pa f u && h.copies.contains e.1)) = some g)
    (hspare : g.spares.find? (fun e => e.2 == pa f u && g.copies.contains e.1) = some (l, pa f u)) :
    exec (.imageCopyDone f u dig dig cycles) s = .next (groupCopyDone s g (l, pa f u) true cycles) := by
  rw [exec, execImageCopyDone, if_neg (by omega), if_neg (by simp [hw])]
  simp only [hfind, hspare, whenSome_some, decide_true]

/-- R157, R164: with the last copy the spares run; until then the group goes on copying. -/
theorem groupCopyDone_last {s : State} {g : Group} (e : Nat × Nat) (cycles : Nat) (hg : g ∈ s.groups)
    (hl : (g.copies.filter (· != e.1)).isEmpty = true) :
    ∃ h, h ∈ (groupCopyDone s g e true cycles).groups ∧ h.id = g.id ∧ h.copies = [] ∧ h.state = .spare := by
  obtain ⟨k, hk⟩ := findGroup_of_mem hg
  unfold groupCopyDone
  extract_lets log g' left
  rw [if_pos rfl, if_pos hl, runSpares, groups_runOwn]
  refine ⟨_, mem_of_findGroup (findGroup_setGroup_same (g := k) ?_), rfl, rfl, rfl⟩
  exact (findGroup_of_groups (groups_of_exceptGroups (by simp [exceptGroups])) _).trans hk

theorem groupCopyDone_more {s : State} {g : Group} (e : Nat × Nat) (cycles : Nat) (hg : g ∈ s.groups)
    (hl : (g.copies.filter (· != e.1)).isEmpty = false) :
    ∃ h, h ∈ (groupCopyDone s g e true cycles).groups ∧ h.id = g.id ∧ h.copies = g.copies.filter (· != e.1) ∧ h.state = g.state := by
  obtain ⟨k, hk⟩ := findGroup_of_mem hg
  unfold groupCopyDone
  extract_lets log g' left
  rw [if_pos rfl, if_neg (Bool.eq_false_iff.mp hl)]
  exact ⟨_, mem_of_findGroup (findGroup_setGroup_same (k := { g' with copies := left }) hk), rfl, rfl, rfl⟩

theorem groupCopyDone_agrees {s : State} {g : Group} (e : Nat × Nat) (cycles : Nat) (hg : g ∈ s.groups) (hs : g.state = .copying) :
    ∃ h, h ∈ (groupCopyDone s g e true cycles).groups ∧ h.id = g.id ∧ h.copies = g.copies.filter (· != e.1) ∧
      h.state = (if (g.copies.filter (· != e.1)).isEmpty then .spare else .copying) := by
  cases hl : (g.copies.filter (· != e.1)).isEmpty with
  | true =>
    obtain ⟨h, hmem, hid, hcopies, hstate⟩ := groupCopyDone_last e cycles hg hl
    exact ⟨h, hmem, hid, hcopies.trans (List.isEmpty_iff.mp hl).symm, hstate⟩
  | false =>
    obtain ⟨h, hmem, hid, hcopies, hstate⟩ := groupCopyDone_more e cycles hg hl
    exact ⟨h, hmem, hid, hcopies, hstate.trans hs⟩

/-! ### REPLAY_ABANDONED -/

/-- R171: a lost step leaves its cause in the field. -/
theorem lostCause_loseWith (s : State) (f w : Nat) (detail : Dword) (cause : Nat) :
    (fieldOf (loseWith s f w detail cause) f).lostCause = some cause := by
  unfold loseWith resetForLoss
  extract_lets u v x
  have hv : (fieldOf v f).lostCause = some cause := congrArg Field.lostCause (fieldOf_modField _ _ _)
  have hx : fieldView (·.lostCause) x = fieldView (·.lostCause) v := fieldView_holdPartition _ _
  split
  · exact (read_of_fieldView (fieldView_autoReset _ _ _ _) f).trans ((read_of_fieldView hx f).trans hv)
  · exact (read_of_fieldView (fieldView_autoReset _ _ _ _) f).trans ((read_of_fieldView hx f).trans hv)

theorem groups_loseWith (s : State) (f w : Nat) (detail : Dword) (cause : Nat) : (loseWith s f w detail cause).groups = s.groups :=
  groups_of_exceptGroups (by simp [exceptGroups])

/-- The spare that the words of a group name: its first, or none. -/
abbrev namedSpare (g : Group) : Nat := (g.spares.head?.map (·.2)).getD 0xFFFFFF

/-- The group has left the table, with its verdict in the warden's ring. -/
def abandoned (s : State) (g : Group) : State := dropGroup (ringReplay s g.field 6 (groupWord s g 5 (namedSpare g))) g.id

theorem replayAbandoned_over {s : State} {g : Group} (hfind : s.groups.find? (fun h => h.id == g.id && wardenRuns s h.field &&
    (h.state == .same || h.state == .copying || h.state == .spare) && overLimit s h) = some g) :
    exec (.replayAbandoned g.id) s = .next (loseWith (abandoned s g) g.field (groupWord (abandoned s g) g 5 (namedSpare g))
      (triggerWord g 1 false none) 3) := by
  rw [exec, execReplayAbandoned, hfind, whenSome_some]
  rfl

theorem id_ne_of_mem_abandoned {s : State} {g h : Group} (hm : h ∈ (abandoned s g).groups) : h.id ≠ g.id := by
  simpa using (List.mem_filter.mp hm).2

/-! ### The rows together -/

theorem replayGroups : Says.ReplayGroups := by
  refine ⟨fun s f g hf hc hs hgf hg hskip => ?_, fun s g cycles hfind hagain => ?_,
    fun s f u dig cycles l g hf hu hw hfind hspare => ?_, fun s g cycles hfind hagain hspares => ?_, fun s g _ _ hfind => ?_⟩
  case _ => exact replayGroupStart_waiting hf hc hs hgf hg hskip
  case _ =>
    have hdone := findGroup_passSame (g := { g with cycles := g.cycles + cycles })
      (findGroup_charged s g [] cycles (List.mem_of_find?_eq_some hfind))
    exact ⟨_, _, replayVerdict_passes cycles hfind hagain, mem_of_findGroup (startWaiting_keeps _ _ (by simp) hdone), rfl, rfl, rfl⟩
  case _ =>
    have hstate : g.state = .copying := by
      have := List.find?_some hfind
      simp only [Bool.and_eq_true, beq_iff_eq] at this
      exact this.1
    obtain ⟨h, hh⟩ := groupCopyDone_agrees (l, pa f u) cycles (List.mem_of_find?_eq_some hfind) hstate
    exact ⟨_, h, imageCopyDone_agrees dig cycles hf hu hw hfind hspare, hh⟩
  case _ =>
    have hdone := findGroup_passSpare (g := { g with cycles := g.cycles + cycles })
      (findGroup_charged s g (g.spares.map (·.1)) cycles (List.mem_of_find?_eq_some hfind))
    exact ⟨_, _, spareReplayVerdict_passes cycles hfind hagain hspares,
      mem_of_findGroup (startSpares_keeps _ _ (by simp) (startWaiting_keeps _ _ (by simp) hdone)), rfl, rfl⟩
  case _ =>
    refine ⟨_, replayAbandoned_over hfind, fun h hm => ?_, lostCause_loseWith _ _ _ _ _⟩
    rw [groups_loseWith] at hm
    exact id_ne_of_mem_abandoned hm

end Sys2Proof.Machine
end

section
/-! SUPPORT. Drained versions and spot checks (R137, R249, R252, R254). -/

namespace Sys2Proof.Machine

theorem tfind_tdel_same {α : Type} (t : Table α) (k : Nat) : tfind (tdel t k) k = none := by
  induction t with
  | nil => rfl
  | cons e t ih =>
    rw [tdel, List.filter_cons]
    split
    case isTrue h => exact (if_neg (by simpa using h)).trans ih
    case isFalse => exact ih

/-- What a spot check reads and leaves in its field. -/
structure SpotState where
  spots : List Spot
  cnt : FieldCount
  lent : Table Nat

abbrev spotState (x : Field) : SpotState := { spots := x.spots, cnt := x.cnt, lent := x.lent }

/-- R254: the spare level may change, and nothing of the spot checks. -/
theorem spotState_settleLevel (s : State) (f : Nat) (fresh : Bool) :
    fieldView spotState (settleLevel s f fresh) = fieldView spotState s := by
  unfold settleLevel
  dsimp only
  split
  · rfl
  · rw [fieldView_emitWords]
    exact fieldView_setField f _ rfl

/-- R252: a tile that returns is lent no longer, whatever becomes of it. -/
theorem spotState_returnLent (s : State) (f p : Nat) :
    spotState (fieldOf (returnLent s f p) f) = { spotState (fieldOf s f) with lent := tdel (fieldOf s f).lent p } := by
  unfold returnLent
  extract_lets x u v
  have hv : fieldView spotState v = fieldView spotState u := by
    simp only [v]
    split
    · exact fieldView_markQuarantined _ _ _ _ _
    · rfl
  rw [read_of_fieldView ((spotState_settleLevel v f false).trans hv)]
  simp only [u, fieldOf_setField]
  rfl

/-- R137: the snapshot of a check is done. -/
def snapshotted (s : State) (f : Nat) (c : Spot) : State :=
  modField s f (fun x => { x with spots := x.spots.map (fun d => if d = c then { d with running := true } else d) })

theorem snapshotDone_found {s : State} {f tile : Nat} {c : Spot} (hf : f < 84) (hw : wardenRuns s f = true)
    (h : findSpot s f tile false = some c) :
    exec (.snapshotDone f tile) s = .next (freshRun (snapshotted s f c) [pa f c.spare]) := by
  rw [exec, execSnapshotDone, if_neg (by omega), hw, if_pos rfl, h, whenSome_some]
  rfl

theorem fieldOf_freshRun (s : State) (l : List Nat) (f : Nat) : fieldOf (freshRun s l) f = fieldOf s f :=
  fieldOf_of_fields (fields_of_erase { guards := true } rfl (by simp)) f

/-- R138: the check has ended. -/
def spotEnded (s : State) (f : Nat) (c : Spot) : State :=
  modField s f (fun x => { x with spots := x.spots.filter (fun d => d != c) })

theorem spotCheckVerdict_agrees {s : State} {f tile : Nat} {c : Spot} (cycles : Nat) (hf : f < 84) (hw : wardenRuns s f = true)
    (h : findSpot s f tile true = some c) (hredone : (guardOf s (pa f c.spare)).redone = true)
    (hagain : (guardOf s (pa f c.spare)).again = none) (hdigest : (guardOf s (pa f c.spare)).digest = c.digest) :
    exec (.spotCheckVerdict f tile cycles) s = .next (returnLent
      (countField (spotEnded s f c) f (fun n => { n with agree := sat32 (n.agree + 1) })) f c.spare) := by
  have hdue : (findSpot s f tile true).filter (fun c => wardenRuns s f && (guardOf s (pa f c.spare)).redone) = some c := by
    simp [h, hw, hredone]
  rw [exec, execSpotCheckVerdict, if_neg (by omega)]
  simp only [hdue, whenSome_some, hagain, hdigest, if_true]
  rfl

/-- R425: what the check counts, it counts while the counters are not frozen. -/
theorem spotState_agreed (s : State) (f : Nat) (c : Spot) :
    ∃ cnt, spotState (fieldOf (countField (spotEnded s f c) f (fun n => { n with agree := sat32 (n.agree + 1) })) f) =
      { spotState (fieldOf s f) with spots := (fieldOf s f).spots.filter (fun d => d != c), cnt := cnt } ∧
      ((fieldOf s f).frozen = none → cnt.agree = sat32 ((fieldOf s f).cnt.agree + 1)) := by
  have hx : fieldOf (spotEnded s f c) f = { fieldOf s f with spots := (fieldOf s f).spots.filter (fun d => d != c) } :=
    fieldOf_modField _ _ _
  unfold countField
  split
  case isTrue hz => exact ⟨_, by rw [hx], fun hn => by simp [fieldFrozen, hx, hn] at hz⟩
  case isFalse => exact ⟨_, by rw [fieldOf_modField, hx], fun _ => rfl⟩

theorem spotChecks : Says.SpotChecks := by
  intro s f hf hw
  refine ⟨fun hdirty hsw hnone => ?_, fun tile c h => ?_, fun tile c cycles h hredone hagain hdigest => ?_⟩
  case _ =>
    rw [exec, execIdleVersionDrained, if_neg (by omega), startSpares_none f 0 (by simp [hnone])]
    simp [hw, hdirty, hsw]
  case _ =>
    have hc : c ∈ (fieldOf s f).spots := List.mem_of_find?_eq_some h
    refine ⟨_, snapshotDone_found hf hw h, ?_, ?_⟩
    · rw [fieldOf_freshRun, snapshotted, fieldOf_modField]
      exact List.mem_map.mpr ⟨c, hc, if_pos rfl⟩
    · rw [fieldOf_freshRun, snapshotted, fieldOf_modField]
      exact List.length_map _
  case _ =>
    obtain ⟨cnt, hstate, hcount⟩ := spotState_agreed s f c
    have ht := spotState_returnLent (countField (spotEnded s f c) f (fun n => { n with agree := sat32 (n.agree + 1) })) f c.spare
    rw [hstate] at ht
    obtain ⟨hspots, hcnt, hlent⟩ := SpotState.mk.inj ht
    exact ⟨_, spotCheckVerdict_agrees cycles hf hw h hredone hagain hdigest, hspots, fun hz => hcnt ▸ hcount hz,
      hlent ▸ tfind_tdel_same _ _⟩

/-- Settles O49: a group is followed by its number through what starts beside it; a spot check by what it leaves in its field. -/
theorem replaysAndSpotChecks : Obligations.ReplaysAndSpotChecks := ⟨replayGroups, spotChecks⟩

end Sys2Proof.Machine
end

section
/-! SUPPORT. What the operations of the Sideboard leave of its contexts: completions, records and sends leave them all; a context that is put
stands alone in its place; the expulsion of a context, and what it takes from the others of its group (R190 to R197). -/

namespace Sys2Proof.Machine

/-! ### What leaves the Sideboard alone -/

theorem side_of_erase (κ : Mask) {s t : State} (hκ : κ.side = false) (h : erase κ t = erase κ s) : t.side = s.side := by
  simpa [erase, hκ] using congrArg State.side h

@[simp] theorem side_complete (s : State) (c : Cmd) (st : Nat) (res : List Word) : (complete s c st res).side = s.side :=
  side_of_erase { fe := true, out := true } rfl (by simp)

@[simp] theorem side_answerCmds (s : State) (c : Context) (cmds : List (Nat × Nat)) (st : Nat) : (answerCmds s c cmds st).side = s.side :=
  side_of_erase { fe := true, out := true } rfl (by simp)

@[simp] theorem side_sendExchange (s : State) (c : Context) (typ : Nat) (ok : Bool) : (sendExchange s c typ ok).side = s.side :=
  side_of_erase { out := true } rfl (by simp)

@[simp] theorem side_emitPart (s : State) (typ : Nat) (p : Option Nat) (l : List Nat) : (emitPart s typ p l).side = s.side := rfl

@[simp] theorem side_emitDigest (s : State) (typ : Nat) (c : Context) (other : Nat) (w : Dword) : (emitDigest s typ c other w).side = s.side :=
  rfl

@[simp] theorem side_expelFinding (s : State) (c : Context) (w : Dword) (n : Nat) : (expelFinding s c w n).side = s.side :=
  side_of_erase { free := true, parts := true, sig := true } rfl (by simp)

section
variable (s : State) (t n : Nat)

@[simp] theorem findContext_complete (c : Cmd) (st : Nat) (res : List Word) : findContext (complete s c st res) t n = findContext s t n :=
  findContext_side _ _ (side_complete s c st res) t n

@[simp] theorem findContext_answerCmds (c : Context) (cmds : List (Nat × Nat)) (st : Nat) :
    findContext (answerCmds s c cmds st) t n = findContext s t n :=
  findContext_side _ _ (side_answerCmds s c cmds st) t n

@[simp] theorem findContext_sendExchange (c : Context) (typ : Nat) (ok : Bool) :
    findContext (sendExchange s c typ ok) t n = findContext s t n :=
  findContext_side _ _ (side_sendExchange s c typ ok) t n

@[simp] theorem findContext_emitDigest (typ : Nat) (c : Context) (other : Nat) (w : Dword) :
    findContext (emitDigest s typ c other w) t n = findContext s t n := rfl

end

/-! ### A context is put -/

theorem mem_putContext {s : State} {k d : Context} (h : d ∈ (putContext s k).side.contexts) : d = k ∨ d ∈ s.side.contexts := by
  unfold putContext setContexts at h
  dsimp only at h
  split at h
  · obtain ⟨d', hd', rfl⟩ := List.mem_map.mp h
    split
    · exact .inl rfl
    · exact .inr hd'
  · rcases List.mem_append.mp h with hd | hd
    · exact .inr hd
    · exact .inl (List.mem_singleton.mp hd)

theorem mem_contexts_of_find {s : State} {t n : Nat} {k : Context} (h : findContext s t n = some k) : k ∈ s.side.contexts :=
  List.mem_of_find?_eq_some h

theorem findContext_putContext_other (s : State) (k : Context) (t n : Nat) (h : ¬ (k.tenant = t ∧ k.num = n)) :
    findContext (putContext s k) t n = findContext s t n := by
  have hk : (k.tenant == t && k.num == n) = false := by simpa using h
  unfold putContext setContexts findContext
  dsimp only
  split
  · rw [find_map_same]
    · cases hf : s.side.contexts.find? (fun c => c.tenant == t && c.num == n) with
      | none => rfl
      | some d =>
        have hd := List.find?_some hf
        simp only [Bool.and_eq_true, beq_iff_eq] at hd
        rw [Option.map_some, if_neg]
        rintro hs
        simp only [Bool.and_eq_true, beq_iff_eq] at hs
        exact h ⟨hs.1 ▸ hd.1, hs.2 ▸ hd.2⟩
    · intro d
      split
      case isTrue hs =>
        simp only [Bool.and_eq_true, beq_iff_eq] at hs
        rw [hs.1, hs.2]
      case isFalse => rfl
  · rw [List.find?_append, List.find?_cons, hk]
    simp

end Sys2Proof.Machine
end

section
/-! SUPPORT. DIGEST_DEFINE, DIGEST_COMPARE and EXPEL (R178, R180, R182 to R184, R187, R190, R195 to R198). -/

namespace Sys2Proof.Machine

/-! ### DIGEST_DEFINE -/

theorem findCmd_background {s : State} {q e : Nat} {c : Cmd} (h : findCmd s q e = some c) :
    findCmd (background s c) q e = some { c with phase := .background } := by
  obtain ⟨rfl, rfl, -⟩ := findCmd_some s q e c h
  exact findCmd_modCmd h (fun d => { d with phase := .background }) (fun _ => ⟨rfl, rfl⟩)

/-- R182, R190: the context that a definition puts: the commands that the number's old context holds stay with it, and its group's view. -/
def definedContext (s : State) (c : Cmd) (t : Nat) (ms : List (BitVec 1024)) : Context :=
  let peer := (groupContexts s t (c.f 6 0 16)).head?
  { kind := c.f 3 17 2, tenant := t, num := c.f 3 0 17, part := c.part, field := taField (c.f 4 0 24), first := c.f 4 0 24,
    length := c.w 5, masks := ms, group := c.f 6 0 16, replica := c.f 6 16 8, ready := decide (c.f 3 17 2 = 1),
    seams := seamsReached s (taField (c.f 4 0 24)), nowCmd := ((findContext s t (c.f 3 0 17)).map waitingCmds).getD [],
    known := (peer.map (·.known)).getD [], remotes := (peer.map (·.remotes)).getD [], gone := (peer.map (·.gone)).getD [] }

section
variable {s : State} {q e : Nat} {c : Cmd} {y : Part} {masks : List (BitVec 1024)}

/-- R177, R178, R198: the masks of the shard that a DIGEST_DEFINE names; a chain has none. -/
def shardOf (s : State) (c : Cmd) (masks : List (BitVec 1024)) : Option (List (BitVec 1024)) :=
  if c.f 3 17 2 = 0 then
    if c.w 5 % 64 = 0 then
      shardMasks (masks.take (fieldTiles (fieldOf s (taField (c.f 4 0 24))) - tileIndex (c.f 4 0 24))) (c.w 5 / 64)
    else none
  else some []

/-- R182 to R184, R198: a definition that fits its group and finds room puts its context; a chain completes, a shard goes on. -/
theorem digestDefine_puts {ms : List (BitVec 1024)} (hp : partOf s c.part = some y) (hrun : runCmd s q e opDigestDefine = some c)
    (hres : reservedOk c [(3, 0x7FFFF), (4, 0xFFFFFF), (5, 0xFFFFFFFF), (6, 0xFFFFFF)] = true) (hprog : y.prog.isSome = true)
    (hlog : logicalOk (c.f 4 0 24) = true) (hhas : partHas y (taField (c.f 4 0 24)) = true)
    (hleft : tileIndex (c.f 4 0 24) < fieldTiles (fieldOf s (taField (c.f 4 0 24))))
    (hfits : fitsGroup s y.tenant (c.f 3 0 17) (c.f 3 17 2) (c.w 5) (c.f 6 0 16) (c.f 6 16 8) = true)
    (hroom : noRoom s y.tenant (c.f 3 0 17) (c.f 3 17 2) (c.f 6 0 16) = false) (hkind : c.f 3 17 2 ≤ 1)
    (hshard : shardOf s c masks = some ms) (hchain : c.f 3 17 2 = 1 → 4 ≤ c.w 5 ∧ c.w 5 ≤ 8192 ∧ c.w 5 % 4 = 0) :
    exec (.digestDefine q e masks) s = .next (if c.f 3 17 2 = 1
      then complete (putContext s (definedContext s c y.tenant ms)) c stOk (w64 0)
      else background (putContext s (definedContext s c y.tenant ms)) c) := by
  have hbad : (!reservedOk c [(3, 0x7FFFF), (4, 0xFFFFFF), (5, 0xFFFFFFFF), (6, 0xFFFFFF)] || decide (1 < c.f 3 17 2) ||
      y.prog.isNone || !logicalOk (c.f 4 0 24) || !partHas y (taField (c.f 4 0 24)) ||
      decide (fieldTiles (fieldOf s (taField (c.f 4 0 24))) - tileIndex (c.f 4 0 24) = 0)) = false := by
    have hloaded : y.prog.isNone = false := by simpa [← Option.not_isSome] using hprog
    simp [hres, hlog, hhas, hloaded, hkind, Nat.sub_ne_zero_of_lt hleft]
  have hunfit : ((decide (c.f 3 17 2 = 1) && !(decide (4 ≤ c.w 5) && decide (c.w 5 ≤ 8192) && decide (c.w 5 % 4 = 0))) ||
      !fitsGroup s y.tenant (c.f 3 0 17) (c.f 3 17 2) (c.w 5) (c.f 6 0 16) (c.f 6 16 8)) = false := by
    simp [hfits]
    omega
  unfold shardOf at hshard
  rw [exec, execDigestDefine, hrun, whenSome_some]
  simp only [hp, hbad, hshard, hunfit, hroom, Bool.false_eq_true, if_false]
  rfl

end

/-- R184, R187, R195: a context whose covered rows have been read. -/
def readContext (s : State) (k : Context) (tiles : List (List Word)) : Context :=
  let parts := tileParts weightKey 0 tiles
  let again := (groupContexts s k.tenant k.group).find? (·.reverify)
  { k with
    ready := true, defined := sumParts parts, parts := parts, digest := sumParts parts,
    changed := (goldenOf s k.tenant k.group).any (fun g => g.digest != sumParts parts), reverify := again.isSome,
    reverifyNo := (again.map (·.reverifyNo)).getD 0 }

/-- R184: a definition whose rows have been read completes with the digest. -/
theorem digestDefineReadDone_next {s : State} {q e : Nat} {c : Cmd} {y : Part} {k : Context} {tiles : List (List Word)}
    (hp : partOf s c.part = some y) (hcmd : findCmd s q e = some c) (hphase : c.phase = .background)
    (hop : c.opcode = opDigestDefine) (hclk : clocked s = true) (hexec : executes s opDigestDefine = true)
    (hk : findContext s y.tenant (c.f 3 0 17) = some k)
    (hlen : tiles.map (·.length) = k.masks.map (fun m => 16 * (maskRows m).length)) :
    exec (.digestDefineReadDone q e tiles) s =
      .next (complete (putContext s (readContext s k tiles)) c stOk (w64 (sumParts (tileParts weightKey 0 tiles)))) := by
  have hfound : (findCmd s q e).filter (fun c => c.phase == .background && c.opcode == opDigestDefine) = some c := by
    simp [hcmd, Option.filter, hphase, hop]
  rw [exec, execDigestDefineReadDone, hfound, whenSome_some, hclk, hexec, hp, Option.bind_some, hk, whenSome_some, if_neg (by decide),
    if_neg (not_not_intro hlen), readContext]
  cases goldenOf s k.tenant k.group <;> rfl

theorem digestDefined : Says.DigestDefined := by
  rintro s q e c y _ hp rfl
  refine ⟨fun masks hrun hres hprog hlog hhas hleft hfits hroom => ⟨fun hk h4 hmax hmod => ?chain, fun ms hk hmod hms => ?shard⟩,
    fun k tiles hcmd hphase hop hclk hexec hk hlen => ?read⟩
  case chain =>
    have hrow := digestDefine_puts (masks := masks) hp hrun hres hprog hlog hhas hleft hfits hroom (by omega)
      (if_neg (by omega)) (fun _ => ⟨h4, hmax, hmod⟩)
    rw [if_pos hk] at hrow
    refine ⟨_, _, definedContext s c y.tenant [], hrow, rfl, ?_, hk, decide_eq_true hk, rfl, rfl, rfl, rfl⟩
    rw [findContext_complete]
    exact findContext_putContext s (definedContext s c y.tenant [])
  case shard =>
    have hrow := digestDefine_puts hp hrun hres hprog hlog hhas hleft hfits hroom (by omega)
      ((if_pos hk).trans ((if_pos hmod).trans hms)) (by omega)
    rw [if_neg (by omega)] at hrow
    obtain ⟨hfind, -, -⟩ := runCmd_some s q e opDigestDefine c hrun
    exact ⟨_, definedContext s c y.tenant ms, { c with phase := .background }, hrow,
      findContext_putContext s (definedContext s c y.tenant ms), hk, decide_eq_false (by omega), rfl, rfl,
      findCmd_background (s := putContext s _) hfind, rfl, rfl⟩
  case read =>
    obtain ⟨hkt, hkn⟩ := findContext_some s _ _ k hk
    refine ⟨_, _, readContext s k tiles, digestDefineReadDone_next hp hcmd hphase hop hclk hexec hk hlen, rfl, ?_, rfl, rfl, rfl, ?_⟩
    · rw [findContext_complete, ← hkt, ← hkn]
      exact findContext_putContext s (readContext s k tiles)
    · simp [readContext, Option.any_eq_true]

/-! ### DIGEST_COMPARE -/

theorem any_reverify_putContext {s : State} {k : Context} {t g : Nat} (hk : k.reverify = false)
    (h : (groupContexts s t g).any (·.reverify) = false) : (groupContexts (putContext s k) t g).any (·.reverify) = false := by
  rw [List.any_eq_false] at h ⊢
  intro d hd
  obtain ⟨hmem, hgroup⟩ := List.mem_filter.mp hd
  rcases mem_putContext hmem with rfl | hold
  · simp [hk]
  · exact h d (List.mem_filter.mpr ⟨hold, hgroup⟩)

theorem mem_groupContexts_of_find {s : State} {t n : Nat} {k : Context} (h : findContext s t n = some k) :
    k ∈ groupContexts s k.tenant k.group :=
  List.mem_filter.mpr ⟨mem_contexts_of_find h, by simp⟩

/-- R190: a context under the interval that a DIGEST_COMPARE sets. -/
def withInterval (k : Context) (c : Cmd) : Context := { k with interval := if c.f 4 0 16 = 0 then 64 else c.f 4 0 16 }

/-- R190: a context of which NOW asks one more comparison, at its field's next seam. -/
def askedNow (s : State) (k : Context) (q e : Nat) : Context :=
  { k with nowCmd := k.nowCmd ++ [(q, e)], nowAt := seamsReached s k.field + 1 }

section
variable {s : State} {q e : Nat} {c : Cmd} {y : Part} {k : Context}
variable (hp : partOf s c.part = some y) (hrun : runCmd s q e opDigestCompare = some c)
    (hres : reservedOk c [(3, 0x1FFFF), (4, 0x8000FFFF)] = true) (hk : findContext s y.tenant (c.f 3 0 17) = some k)
    (hready : k.ready = true) (hpart : k.part = c.part)
include hp hrun hres hk hready hpart

/-- R190: DIGEST_COMPARE sets the interval, and answers by whether the group is re-verified and whether NOW is set. -/
theorem digestCompare_next :
    exec (.digestCompare q e) s = .next (
      let u := putContext s (withInterval k c)
      if (groupContexts u k.tenant k.group).any (·.reverify) then complete u c stDegraded (compareResults k)
      else if c.b 4 31 && !k.expelled then background (putContext u (askedNow s (withInterval k c) q e)) c
      else complete u c stOk (compareResults k)) := by
  have hbad : (!reservedOk c [(3, 0x1FFFF), (4, 0x8000FFFF)] || !k.ready || decide (k.part ≠ c.part)) = false := by
    simp [hres, hready, hpart]
  rw [exec, execDigestCompare, hrun, whenSome_some]
  simp only [hp, hk, hbad, Bool.false_eq_true, if_false, apply_ite Host.Outcome.next]
  rfl

theorem digestCompare_degraded (hrev : k.reverify = true) :
    exec (.digestCompare q e) s = .next (complete (putContext s (withInterval k c)) c stDegraded (compareResults k)) := by
  have hany : (groupContexts (putContext s (withInterval k c)) k.tenant k.group).any (·.reverify) = true :=
    List.any_eq_true.mpr ⟨withInterval k c, mem_groupContexts_of_find (findContext_putContext s (withInterval k c)), hrev⟩
  rw [digestCompare_next hp hrun hres hk hready hpart]
  exact congrArg _ (if_pos hany)

theorem digestCompare_live (hexp : k.expelled = false)
    (hrev : (groupContexts s k.tenant k.group).any (·.reverify) = false) :
    exec (.digestCompare q e) s = .next (if c.b 4 31
      then background (putContext (putContext s (withInterval k c)) (askedNow s (withInterval k c) q e)) c
      else complete (putContext s (withInterval k c)) c stOk (compareResults k)) := by
  have hkrev : k.reverify = false := by simpa using List.any_eq_false.mp hrev k (mem_groupContexts_of_find hk)
  have hany := any_reverify_putContext (k := withInterval k c) hkrev hrev
  rw [digestCompare_next hp hrun hres hk hready hpart, hexp, Bool.not_false, Bool.and_true]
  exact congrArg _ (if_neg (by simp [hany]))

end

/-! ### EXPEL -/

/-- R197: what an expelled context becomes. -/
def expelledContext (k : Context) : Context := { k with expelled := true, reverify := false, opens := [], nowCmd := [], reports := [] }

theorem findContext_expelContext (s : State) (k : Context) (other : Nat) (w : Dword) :
    findContext (expelContext s k other w) k.tenant k.num = some (expelledContext k) := by
  unfold expelContext leaveComparisons
  extract_lets c u
  rw [findContext_setContexts_map _ _ (fun d => by split <;> exact ⟨rfl, rfl⟩), findContext_answerCmds]
  exact (congrArg _ (findContext_putContext _ (expelledContext k))).trans (by simp [c, expelledContext])

section
variable {s : State} {q e : Nat} {c : Cmd} {y : Part}

/-- R196: a replica of another wafer leaves the view of the group's contexts here. -/
def removedFromView (t group replica : Nat) (k : Context) : Context :=
  if k.tenant = t ∧ k.group = group then { forgetReplica replica k with gone := k.gone ++ [replica] } else k

/-- R196: EXPEL of one of at least three replicas in view expels it where it is this wafer's, and takes it out of the view where not. -/
theorem expel_next (hp : partOf s c.part = some y) (hrun : runCmd s q e opExpel = some c)
    (hres : reservedOk c [(3, 0xFFFF), (4, 0xFF)] = true) (hview : (viewOf s y.tenant (c.f 3 0 16)).contains (c.f 4 0 8) = true)
    (hthree : 3 ≤ (viewOf s y.tenant (c.f 3 0 16)).length) :
    exec (.expel q e) s = .next (complete
      (((groupContexts s y.tenant (c.f 3 0 16)).find? (fun k => k.replica == c.f 4 0 8 && !k.expelled)).elim
        (setContexts s (s.side.contexts.map (removedFromView y.tenant (c.f 3 0 16) (c.f 4 0 8))))
        (fun k => expelContext (advFree s) k ((contextGolden s k).getD 0)
          (digestWord k (freeVal s 8) k.agree k.disagree (!k.remotes.isEmpty))))
      c stOk [w32 ((viewOf s y.tenant (c.f 3 0 16)).length - 1)]) := by
  have hbad : (!reservedOk c [(3, 0xFFFF), (4, 0xFF)] || !(viewOf s y.tenant (c.f 3 0 16)).contains (c.f 4 0 8)) = false := by
    simp only [hres, hview, Bool.not_true, Bool.or_false]
  rw [exec, execExpel, hrun, whenSome_some]
  simp only [hp, hbad, Bool.false_eq_true, if_false, if_neg (Nat.not_lt.mpr hthree)]
  cases (groupContexts s y.tenant (c.f 3 0 16)).find? (fun k => k.replica == c.f 4 0 8 && !k.expelled) <;> rfl

end

theorem removedFromView_keeps (t group replica : Nat) (k : Context) : (removedFromView t group replica k).tenant = k.tenant ∧
    (removedFromView t group replica k).group = k.group ∧ (removedFromView t group replica k).replica = k.replica ∧
    (removedFromView t group replica k).expelled = k.expelled := by
  unfold removedFromView
  split <;> exact ⟨rfl, rfl, rfl, rfl⟩

theorem not_mem_remotes_removedFromView {t group replica : Nat} {k : Context} (ht : k.tenant = t) (hg : k.group = group) :
    replica ∉ (removedFromView t group replica k).remotes := by
  rw [removedFromView, if_pos ⟨ht, hg⟩]
  simp [forgetReplica]

/-- R196: a replica that no context here carries is out of the view once the group's contexts have forgotten it. -/
theorem viewOf_removedFromView {s : State} {t group replica : Nat}
    (hown : (groupContexts s t group).find? (fun k => k.replica == replica && !k.expelled) = none) :
    (viewOf (setContexts s (s.side.contexts.map (removedFromView t group replica))) t group).contains replica = false := by
  rw [← Bool.not_eq_true, List.contains_iff_mem]
  unfold viewOf
  extract_lets cs
  have hcs : ∀ d ∈ cs, d.replica ≠ replica ∧ replica ∉ d.remotes := by
    intro d hd
    obtain ⟨hd, hlive⟩ := List.mem_filter.mp hd
    obtain ⟨hmap, hgroup⟩ := List.mem_filter.mp hd
    obtain ⟨k, hk, rfl⟩ := List.mem_map.mp hmap
    obtain ⟨ht, hg, hr, he⟩ := removedFromView_keeps t group replica k
    rw [ht, hg] at hgroup
    rw [he] at hlive
    refine ⟨fun h => ?_, ?_⟩
    · exact List.find?_eq_none.mp hown k (List.mem_filter.mpr ⟨hk, hgroup⟩) (by rw [hlive, ← hr, h, beq_self_eq_true]; rfl)
    · simp only [Bool.and_eq_true, beq_iff_eq] at hgroup
      exact not_mem_remotes_removedFromView hgroup.1 hgroup.2
  rw [List.mem_eraseDups, List.mem_append, List.mem_map, List.mem_flatMap]
  rintro (⟨d, hd, h⟩ | ⟨d, hd, h⟩)
  · exact (hcs d hd).1 h
  · exact (hcs d hd).2 (List.mem_filter.mp h).1

theorem viewOf_complete (s : State) (c : Cmd) (st : Nat) (res : List Word) (t g : Nat) :
    viewOf (complete s c st res) t g = viewOf s t g := by
  rw [viewOf, groupContexts, side_complete]
  rfl

theorem digestAnswers : Says.DigestAnswers := by
  intro s q e c y k hp
  refine ⟨fun hrun hres hk hready hpart hexp hrev => ?live, fun hrun hres hk hready hpart hrev => ?degraded,
    fun hrun hres hview hthree => ?expel⟩
  case live =>
    obtain ⟨hkt, hkn⟩ := findContext_some s _ _ k hk
    rw [digestCompare_live hp hrun hres hk hready hpart hexp hrev, ← hkt, ← hkn]
    cases hnow : c.b 4 31 with
    | false =>
      refine ⟨_, withInterval k c, rfl, ?_, rfl, fun _ => ⟨rfl, _, rfl⟩, fun h => absurd h (by decide)⟩
      rw [if_neg (by decide), findContext_complete]
      exact findContext_putContext s (withInterval k c)
    | true =>
      exact ⟨_, askedNow s (withInterval k c) q e, rfl, findContext_putContext _ (askedNow s (withInterval k c) q e), rfl,
        fun h => absurd h (by decide), fun _ => ⟨rfl, rfl, rfl⟩⟩
  case degraded => exact ⟨_, _, digestCompare_degraded hp hrun hres hk hready hpart hrev, rfl⟩
  case expel =>
    refine ⟨_, _, expel_next hp hrun hres hview hthree, rfl, ?_⟩
    rintro _ rfl
    refine ⟨fun d hd => ?own, fun hnone => ?other⟩
    case own =>
      obtain ⟨-, hgroup⟩ := List.mem_filter.mp (List.mem_of_find?_eq_some hd)
      obtain ⟨hdt, -⟩ : d.tenant = y.tenant ∧ d.group = c.f 3 0 16 := by simpa using hgroup
      refine ⟨expelledContext d, ?_, rfl⟩
      rw [findContext_complete, hd, ← hdt]
      exact findContext_expelContext _ d _ _
    case other =>
      rw [viewOf_complete, hnone]
      exact viewOf_removedFromView hnone

/-- Settles O34: every row puts one context, or changes those of one group, and `findContext` reads back what it put. -/
theorem digestCommands : Obligations.DigestCommands := ⟨digestDefined, digestAnswers⟩

end Sys2Proof.Machine
end

section
/-! SUPPORT. Exchange records, intervals, comparisons, scrub passes and re-verification (R188, R190 to R195). -/

namespace Sys2Proof.Machine

/-! ### Exchange records -/

/-- R191: the context takes part in comparisons of the group, the kind and the job that an exchange record names. -/
def recordFor (s : State) (x : Exchange) (k : Context) : Bool :=
  k.group == bitsOf (cw x.words 0) 16 16 && k.kind == bitsOf (cw x.words 1) 8 1 && !k.expelled &&
    (match (partOf s k.part).bind (·.tree) with | some t => t.job == bitsOf (cw x.words 0) 0 16 | none => false)

/-- R195: a re-verification result is kept in the place of an older one of its replica, unless EXPEL took the replica out of view. -/
def keepResult (x : Exchange) (k : Context) : Context :=
  if k.gone.contains (bitsOf (cw x.words 1) 0 8) then k
  else { k with matches_ := k.matches_.filter (fun m => m.1 != bitsOf (cw x.words 1) 0 8) ++
    [(bitsOf (cw x.words 1) 0 8, cw x.words 2, bitAt (cw x.words 1) 12)] }

/-- R191, R195: what a context takes from an exchange record. -/
def takeRecord (s : State) (x : Exchange) (k : Context) : Context :=
  if !recordFor s x k then k else if bitsOf (cw x.words 1) 10 2 = 0 then hear (reportOf x) k else keepResult x k

section
variable {s : State} {x : Exchange} (hlen : x.words.length = 8) (hport : x.port < 64) (hclk : clocked s = true)
include hlen hport hclk

theorem exchange_badCrc (hcrc : crc32c (bytesOf (x.words.take 6)) ≠ cw x.words 6) :
    exec (.exchangeRecordReceive x) s = .next { s with side := { s.side with crcBad := s.side.crcBad + 1 } } := by
  rw [exec, execExchangeRecordReceive, if_neg (by omega), hclk, if_neg (by decide)]
  exact if_pos hcrc

theorem exchange_goodCrc (hcrc : crc32c (bytesOf (x.words.take 6)) = cw x.words 6) :
    exec (.exchangeRecordReceive x) s = .next
      (if !s.side.contexts.any (recordFor s x) || decide (1 < bitsOf (cw x.words 1) 10 2)
        then { s with side := { s.side with discards := s.side.discards + 1 } }
        else setContexts s (s.side.contexts.map (takeRecord s x))) := by
  rw [exec, execExchangeRecordReceive, if_neg (by omega), hclk, if_neg (by decide), apply_ite Host.Outcome.next]
  exact if_neg (not_not_intro hcrc)

theorem exchange_taken (hcrc : crc32c (bytesOf (x.words.take 6)) = cw x.words 6) (hany : s.side.contexts.any (recordFor s x) = true)
    (htyp : bitsOf (cw x.words 1) 10 2 ≤ 1) :
    exec (.exchangeRecordReceive x) s = .next (setContexts s (s.side.contexts.map (takeRecord s x))) := by
  rw [exchange_goodCrc hlen hport hclk hcrc, hany, Bool.not_true, Bool.false_or, if_neg (by simpa using htyp)]

end

theorem takeRecord_report {s : State} {x : Exchange} (htyp : bitsOf (cw x.words 1) 10 2 = 0) :
    takeRecord s x = fun k => if recordFor s x k then hear (reportOf x) k else k := by
  funext k
  rw [takeRecord, if_pos htyp]
  cases recordFor s x k <;> rfl

theorem takeRecord_result {s : State} {x : Exchange} (htyp : bitsOf (cw x.words 1) 10 2 = 1) :
    takeRecord s x = fun k => if recordFor s x k && !k.gone.contains (bitsOf (cw x.words 1) 0 8) then
      { k with matches_ := k.matches_.filter (fun m => m.1 != bitsOf (cw x.words 1) 0 8) ++
        [(bitsOf (cw x.words 1) 0 8, cw x.words 2, bitAt (cw x.words 1) 12)] } else k := by
  have hreport : ¬ bitsOf (cw x.words 1) 10 2 = 0 := by omega
  funext k
  rw [takeRecord, if_neg hreport, keepResult]
  cases recordFor s x k <;> cases k.gone.contains (bitsOf (cw x.words 1) 0 8) <;> rfl

theorem exchangeRecords : Says.ExchangeRecords := by
  intro s x hlen hport hclk mine hmine
  obtain rfl : mine = recordFor s x := hmine
  refine ⟨exchange_badCrc hlen hport hclk, fun hcrc hnone => ?_, fun hcrc hany htyp => ?_, fun hcrc htyp => ?_, fun hcrc hany htyp => ?_⟩
  · rw [exchange_goodCrc hlen hport hclk hcrc, hnone]
    rfl
  · rw [exchange_taken hlen hport hclk hcrc hany (by omega), takeRecord_report htyp]
    rfl
  · rw [exchange_goodCrc hlen hport hclk hcrc, if_pos (by simp [Nat.lt_of_succ_le htyp])]
  · rw [exchange_taken hlen hport hclk hcrc hany (by omega), takeRecord_result htyp]
    rfl

/-! ### Interval boundaries -/

theorem hear_keeps (r : Report) (k : Context) : (hear r k).tenant = k.tenant ∧ (hear r k).num = k.num ∧
    (hear r k).intervalNo = k.intervalNo ∧ (hear r k).seams = k.seams ∧ (hear r k).opens = k.opens := by
  unfold hear
  split <;> exact ⟨rfl, rfl, rfl, rfl, rfl⟩

/-- R190: what a live context of a reporting context's group hears on this wafer. -/
def hearLocal (k d : Context) : Context :=
  if d.tenant = k.tenant ∧ d.group = k.group ∧ d.ready = true ∧ d.expelled = false then hear (ownReport k) d else d

theorem hearLocal_keeps (k d : Context) : (hearLocal k d).tenant = d.tenant ∧ (hearLocal k d).num = d.num ∧
    (hearLocal k d).intervalNo = d.intervalNo ∧ (hearLocal k d).seams = d.seams ∧ (hearLocal k d).opens = d.opens := by
  unfold hearLocal
  split
  · exact hear_keeps _ d
  · exact ⟨rfl, rfl, rfl, rfl, rfl⟩

/-- R190, R192: the context as its report for interval `n / interval` opens the comparison. -/
def reporting (s : State) (k : Context) : Context :=
  openComparison (queueRecords s (reportRecords s k)) k (seamsReached s k.field / max 1 k.interval) (seamsReached s k.field)

section
variable {s : State} {tn ctx : Nat} {k : Context}

/-- R190, R193: at a boundary of a live context the report goes out, or is skipped while the last one has not left. -/
theorem digestIntervalBoundary_next (hclk : clocked s = true) (hk : findContext s tn ctx = some k) (hready : k.ready = true)
    (hexp : k.expelled = false) (hrev : k.reverify = false) (hload : fieldLoaded s k.field = true)
    (hup : (fieldOf s k.field).warden = .up) (hdue : boundaryDue s k = true) :
    exec (.digestIntervalBoundary tn ctx) s = .next (
      if s.now < k.sentAt then
        putContext { s with side := { s.side with skipped := s.side.skipped + 1 } } { k with seams := seamsReached s k.field }
      else
        let u := putContext (queueRecords s (reportRecords s k)) (reporting s k)
        sendExchange (setContexts u (u.side.contexts.map (hearLocal (reporting s k)))) (reporting s k) 0 false) := by
  obtain ⟨rfl, rfl⟩ := findContext_some s tn ctx k hk
  have hgo : (!(clocked s && k.ready && !k.expelled && !k.reverify && fieldLoaded s k.field && (fieldOf s k.field).warden == .up &&
      boundaryDue s k)) = false := by simp [hclk, hready, hexp, hrev, hload, hup, hdue]
  rw [exec, execDigestIntervalBoundary, hk, whenSome_some, hgo, if_neg (by decide), apply_ite Host.Outcome.next]
  rfl

end

/-! ### The close of a comparison -/

/-- The context of a tenant's number is there, and no comparison of it is open. -/
def NoOpens (s : State) (t n : Nat) : Prop := ∃ k, findContext s t n = some k ∧ k.opens = []

section
variable {s u : State} {t n : Nat}

theorem noOpens_of_side (h : u.side = s.side) (hs : NoOpens s t n) : NoOpens u t n := by
  rwa [NoOpens, funext₂ (findContext_side s u h)]

theorem noOpens_of_contexts (h : u.side.contexts = s.side.contexts) (hs : NoOpens s t n) : NoOpens u t n := by
  rwa [NoOpens, findContext, h]

theorem noOpens_putContext {k : Context} (hk : k.opens = []) (hs : NoOpens s t n) : NoOpens (putContext s k) t n := by
  by_cases h : k.tenant = t ∧ k.num = n
  · obtain ⟨rfl, rfl⟩ := h
    exact ⟨k, findContext_putContext s k, hk⟩
  · rwa [NoOpens, findContext_putContext_other s k t n h]

theorem noOpens_map {f : Context → Context} (hf : ∀ k, (f k).tenant = k.tenant ∧ (f k).num = k.num ∧ (f k).opens = k.opens)
    (hs : NoOpens s t n) : NoOpens (setContexts s (s.side.contexts.map f)) t n := by
  obtain ⟨k, hk, hopens⟩ := hs
  obtain ⟨-, -, hkeep⟩ := hf k
  refine ⟨f k, ?_, hkeep.trans hopens⟩
  rw [findContext_setContexts_map s f (fun d => ⟨(hf d).1, (hf d).2.1⟩), hk, Option.map_some]

theorem noOpens_leaveComparisons (k : Context) (st : Nat) (hs : NoOpens s t n) : NoOpens (leaveComparisons s k st) t n :=
  noOpens_of_side (side_answerCmds _ _ _ _) (noOpens_putContext rfl hs)

theorem noOpens_expelContext (k : Context) (other : Nat) (w : Dword) (hs : NoOpens s t n) : NoOpens (expelContext s k other w) t n :=
  noOpens_map (fun d => by split <;> exact ⟨rfl, rfl, rfl⟩) (noOpens_leaveComparisons _ _ (noOpens_of_side rfl hs))

theorem noOpens_expelByRule (k : Context) (outcome other : Nat) (remote : Bool) (hs : NoOpens s t n) :
    NoOpens (expelByRule s k outcome other remote) t n := by
  unfold expelByRule
  extract_lets w seqNo u
  have hu : NoOpens u t n := noOpens_expelContext k other w hs
  split
  · exact noOpens_of_side (side_expelFinding u k w seqNo) hu
  · exact hu

theorem noOpens_foldl {β : Type} {f : State → β → State} (hf : ∀ s b, NoOpens s t n → NoOpens (f s b) t n) (l : List β)
    (hs : NoOpens s t n) : NoOpens (l.foldl f s) t n := by
  induction l generalizing s with
  | nil => exact hs
  | cons b l ih => exact ih (hf s b hs)

theorem noOpens_noMajority (k : Context) (word : Nat → Dword) (hs : NoOpens s t n) : NoOpens (noMajority s k word) t n := by
  unfold noMajority
  split
  · exact noOpens_of_side (side_emitDigest _ _ _ _ _) hs
  · exact noOpens_foldl (fun u d hu => noOpens_leaveComparisons _ _ hu) _ hs

theorem noOpens_baseline (k : Context) (own : Report) (rs : List Report) (word : Nat → Dword) (hs : NoOpens s t n) :
    NoOpens (baseline s k own rs word) t n := by
  unfold baseline
  split
  · split
    · exact hs
    · exact noOpens_of_contexts rfl hs
  · exact noOpens_of_side (side_emitDigest _ _ _ _ _) hs

theorem foldl_forgetReplica_keeps (l : List Nat) (k : Context) :
    (l.foldl (fun d r => forgetReplica r d) k).tenant = k.tenant ∧ (l.foldl (fun d r => forgetReplica r d) k).num = k.num ∧
    (l.foldl (fun d r => forgetReplica r d) k).opens = k.opens := by
  induction l generalizing k with
  | nil => exact ⟨rfl, rfl, rfl⟩
  | cons r l ih => exact ih (forgetReplica r k)

theorem noOpens_dropOdd (k : Context) (odd : List Report) (hs : NoOpens s t n) : NoOpens (dropOdd s k odd) t n := by
  refine noOpens_map (fun d => ?_) hs
  split
  · exact foldl_forgetReplica_keeps ((odd.filter (·.remote)).map (·.replica)) d
  · exact ⟨rfl, rfl, rfl⟩

/-- R194, Table 7.2: no verdict opens a comparison. -/
theorem noOpens_adjudicate (k : Context) (own : Report) (rs : List Report) (hs : NoOpens s t n) :
    NoOpens (adjudicate s k own rs) t n := by
  unfold adjudicate
  extract_lets golden eq remote word side agreed all majority
  have hagreed : NoOpens agreed t n := noOpens_of_contexts rfl hs
  split
  · exact noOpens_baseline k own rs word hs
  · split
    · exact hagreed
    · clear_value majority
      cases majority with
      | none => exact noOpens_noMajority k word hs
      | some m =>
        dsimp only
        split
        · exact noOpens_dropOdd k _ hagreed
        · exact noOpens_expelByRule k _ _ _ hs

end

theorem closing_reported {s : State} {k : Context} {o : OpenComp} (hopens : k.opens = [o])
    (hknown : ∀ e ∈ k.known, (heardFor k o.interval).contains e.1 = true) : closing s k = some o := by
  rw [closing, hopens, List.find?_singleton, List.all_eq_true.mpr hknown, Bool.true_or, if_pos rfl]

/-- R192: the comparison closes, and none is left open. -/
theorem comparisonClose_noOpens {s : State} {tn ctx : Nat} {k : Context} {o : OpenComp} (hclk : clocked s = true)
    (hk : findContext s tn ctx = some k) (hopens : k.opens = [o])
    (hknown : ∀ e ∈ k.known, (heardFor k o.interval).contains e.1 = true) :
    ∃ t, exec (.comparisonClose tn ctx) s = .next t ∧ NoOpens t tn ctx := by
  obtain ⟨rfl, rfl⟩ := findContext_some s tn ctx k hk
  rw [exec, execComparisonClose, hk, whenSome_some, hclk, if_pos rfl, closing_reported hopens hknown, whenSome_some]
  extract_lets c rs own agree side u st k' v w adj
  have hk' : k'.opens = [] := by simp [k', st, c, closed, settleKnown, hopens]
  have hv : NoOpens v k.tenant k.num := ⟨_, findContext_putContext u { k' with intervalNo := k.intervalNo }, hk'⟩
  have hw : NoOpens w k.tenant k.num := noOpens_foldl (fun x _ hx => noOpens_of_side (side_emitPart x _ _ _) hx) st.2 hv
  exact ⟨_, rfl, noOpens_of_side (side_answerCmds _ _ _ _) (noOpens_adjudicate k' own rs hw)⟩

/-! ### Scrub passes -/

/-- R188: the sum of a pass that agrees is the maintained digest. -/
def maintained (k : Context) (parts : List Nat) : Context := { k with passFrom := none, digest := sumParts parts }

/-- R188, R277: a pass that differs marks the context changed, and keeps the first tile that differs. -/
def foundChanged (k : Context) (parts : List Nat) : Context :=
  { maintained k parts with changed := true, badTile := (firstDiffer k parts).or k.badTile }

section
variable {s : State} {tn ctx : Nat} {k : Context} {parts : List Nat}

/-- R188: the end of a scrub pass over a defined shard. -/
theorem scrubPassDone_next (hclk : clocked s = true) (hk : findContext s tn ctx = some k) (hkind : k.kind = 0) (hready : k.ready = true)
    (hup : (fieldOf s k.field).warden = .up) (hend : passMayEnd s k = true) (hlen : parts.length = k.masks.length) :
    exec (.scrubPassDone tn ctx parts) s = .next (
      if sumParts parts = k.defined ∧ k.written = false then putContext s (maintained k parts)
      else emitDigest (putContext s (foundChanged k parts)) evDigestChanged (foundChanged k parts)
        ((contextGolden s k).getD 0) (digestWord k 6 k.agree k.disagree (!k.remotes.isEmpty))) := by
  have hgo : (!(clocked s && k.kind == 0 && k.ready && (fieldOf s k.field).warden == .up && passMayEnd s k)) = false := by
    simp [hclk, hkind, hready, hup, hend]
  have hfirst : (firstDiffer k parts).or k.badTile = match firstDiffer k parts with | some a => some a | none => k.badTile := by
    cases firstDiffer k parts <;> rfl
  rw [exec, execScrubPassDone, hk, whenSome_some, hgo, if_neg (by decide), if_neg (not_not_intro hlen), apply_ite Host.Outcome.next,
    foundChanged, hfirst]
  rfl

end

/-! ### Re-verification -/

/-- R195: what the end of a group's re-verification does to a context. -/
def reverifiedIn (t group : Nat) (d : Context) : Context := if d.tenant = t ∧ d.group = group then reverified d else d

theorem reverifiedIn_keeps (t group : Nat) (d : Context) :
    (reverifiedIn t group d).tenant = d.tenant ∧ (reverifiedIn t group d).num = d.num := by
  unfold reverifiedIn reverified
  split
  · rw [← List.foldl_map (g := fun d r => forgetReplica r d) (f := Prod.fst)]
    obtain ⟨ht, hn, -⟩ := foldl_forgetReplica_keeps (((resultsHeard d).filter (fun m => !m.2)).map (·.1))
      { d with reverify := false, matches_ := [] }
    exact ⟨ht, hn⟩
  · exact ⟨rfl, rfl⟩

section
variable {s : State} {tn : Nat} {k : Context} {g : Golden}

/-- R195: whether the digest read again, looked up under the context's number, is the golden. -/
def freshMatches (k : Context) (g : Golden) (fresh : List (Nat × Nat)) : Bool :=
  decide (((fresh.find? (fun e => e.1 == k.num)).map (·.2)).getD 0 = g.digest)

/-- R195: the group's re-verification is over, and its disagreement counted as transient. -/
def settledTransient (s : State) (t group : Nat) : State :=
  let u := setContexts s (s.side.contexts.map (reverifiedIn t group))
  { u with side := { u.side with transients := u.side.transients + 1 } }

/-- R195: the one context of a group, of which no other wafer has sent a result, matches the golden: the disagreement was transient. -/
theorem reverifyDone_transient (hclk : clocked s = true) (hrev : k.reverify = true) (hgroup : groupContexts s tn k.group = [k])
    (hgold : goldenOf s tn k.group = some g) (hheard : resultsHeard k = []) :
    exec (.reverifyDone tn k.group [(k.num, g.digest)]) s = .next
      (emitDigest (settledTransient (sendExchange s { k with intervalNo := k.reverifyNo } 1 true) tn k.group) evDigestReverify k g.digest
        (digestWord k 3 k.agree k.disagree false)) := by
  have hks : (groupContexts s tn k.group).filter (fun k => k.reverify) = [k] := by rw [hgroup, List.filter_singleton, hrev, cond_true]
  have hmatch : freshMatches k g [(k.num, g.digest)] = true := by simp [freshMatches]
  have hremote : [k].any (fun k => !(resultsHeard k).isEmpty) = false := by simp [hheard]
  calc exec (.reverifyDone tn k.group [(k.num, g.digest)]) s
      = .next (emitDigest (settledTransient (sendExchange s { k with intervalNo := k.reverifyNo } 1
          (freshMatches k g [(k.num, g.digest)])) tn k.group) evDigestReverify k g.digest
          (digestWord k 3 k.agree k.disagree ([k].any (fun k => !(resultsHeard k).isEmpty)))) := by
        rw [exec, execReverifyDone, hks, hgold]
        exact (if_neg (by simp [hclk])).trans ((if_neg (by simp)).trans (if_pos (by simp [hheard])))
    _ = _ := by rw [hmatch, hremote]

theorem side_settledTransient (s : State) (t group : Nat) : (settledTransient s t group).side =
    { s.side with contexts := s.side.contexts.map (reverifiedIn t group), transients := s.side.transients + 1 } := rfl

theorem findContext_settledTransient (s : State) (t group tn n : Nat) :
    findContext (settledTransient s t group) tn n = (findContext s tn n).map (reverifiedIn t group) :=
  findContext_setContexts_map s _ (reverifiedIn_keeps t group) tn n

end

theorem sideboardEvents : Says.SideboardEvents := by
  intro s tn ctx k hclk hk
  obtain ⟨hkt, hkn⟩ := findContext_some s tn ctx k hk
  refine ⟨fun hready hexp hrev hload hup hdue n hn => ?boundary, fun o hopens hknown => ?close,
    fun parts hkind hready hup hend hwritten hlen hsum => ?agreeing, fun parts hkind hready hup hend hlen hsum => ?changed,
    fun g fresh hrev hgroup hgold hheard hfresh => ?reverify⟩
  case boundary =>
    subst hn
    rw [digestIntervalBoundary_next hclk hk hready hexp hrev hload hup hdue]
    refine ⟨fun hunsent => congrArg _ (if_pos hunsent), fun hsent => ?_⟩
    obtain ⟨-, -, hno, hseams, hopens⟩ := hearLocal_keeps (reporting s k) (reporting s k)
    refine ⟨_, hearLocal (reporting s k) (reporting s k), congrArg _ (if_neg (Nat.not_lt.mpr hsent)), ?found, hno, hseams, ?opened,
      ?skipped⟩
    case found =>
      subst hkt hkn
      rw [findContext_sendExchange, findContext_setContexts_map _ _ (fun d => ?_)]
      · exact congrArg _ (findContext_putContext _ (reporting s k))
      · obtain ⟨hdt, hdn, -⟩ := hearLocal_keeps (reporting s k) d
        exact ⟨hdt, hdn⟩
    case opened =>
      rw [hopens]
      simp [reporting, openComparison]
    case skipped =>
      rw [side_sendExchange]
      rfl
  case close =>
    obtain ⟨t, hrow, k', hfound, hnone⟩ := comparisonClose_noOpens hclk hk hopens hknown
    exact ⟨t, k', hrow, hfound, hnone⟩
  case agreeing =>
    subst hkt hkn
    rw [scrubPassDone_next hclk hk hkind hready hup hend hlen, if_pos ⟨hsum, hwritten⟩]
    exact ⟨_, maintained k parts, rfl, findContext_putContext s (maintained k parts), hsum, rfl, rfl⟩
  case changed =>
    subst hkt hkn
    rw [scrubPassDone_next hclk hk hkind hready hup hend hlen, if_neg (fun h => hsum h.1)]
    exact ⟨_, foundChanged k parts, rfl, findContext_putContext s (foundChanged k parts), rfl, rfl⟩
  case reverify =>
    subst hfresh
    refine ⟨_, reverifiedIn tn k.group k, reverifyDone_transient hclk hrev hgroup hgold hheard, ?_, ?_, ?_⟩
    · rw [findContext_emitDigest, findContext_settledTransient, findContext_sendExchange, hk, Option.map_some]
    · rw [reverifiedIn, if_pos ⟨hkt, rfl⟩, reverified, hheard]
      rfl
    · rw [side_emitDigest, side_settledTransient, side_sendExchange]

/-- Settles O35: what an event does to the context found is read off the row; nothing that a verdict does opens a comparison again. -/
theorem exchangeAndSideboard : Obligations.ExchangeAndSideboard := ⟨exchangeRecords, sideboardEvents⟩

end Sys2Proof.Machine
end

section
/-! SUPPORT. BENCH_SCHEDULE, BENCH_RUN and BENCH_RESULT (R85, R201, R229 to R232). -/

namespace Sys2Proof.Machine

/-! ### BENCH_SCHEDULE and BENCH_RESULT -/

section
variable {s : State} {q e : Nat} {c : Cmd}

theorem benchSchedule_next (hrun : runCmd s q e opBenchSchedule = some c) (hres : reservedOk c [(3, 0x701), (4, 0xFFFF)] = true)
    (hlow : 1 ≤ c.f 3 8 3) (hhigh : c.f 3 8 3 ≤ 4)
    (hperiod : c.f 4 0 16 = 0 ∨ (60 ≤ c.f 4 0 16 ∧ c.f 4 0 16 ≤ 10080)) :
    exec (.benchSchedule q e) s = .next (complete { s with sched := { s.sched with
      enable := c.b 3 0, slots := c.f 3 8 3, period := if c.f 4 0 16 = 0 then 360 else c.f 4 0 16, setWord := c.words.getD 3 0 } }
      c stOk [s.sched.setWord]) := by
  have hslots : c.f 3 8 3 ≠ 0 ∧ ¬ 4 < c.f 3 8 3 := by omega
  rw [exec, execBenchSchedule, hrun, whenSome_some]
  exact if_neg (by simpa [hres, hslots] using hperiod.resolve_left)

theorem benchResult_next (hrun : runCmd s q e opBenchResult = some c) (hres : reservedOk c [(3, 0xFFFFFF)] = true)
    (hphys : physicalOk (c.f 3 0 24) = true) :
    exec (.benchResult q e) s = .next (complete s c stOk [w32 (tileRec s (c.f 3 0 24)).lastResult, w32 (recordedFmax s (c.f 3 0 24)),
      w32 ((tileRec s (c.f 3 0 24)).lastTest * 57600), w32 (tileRec s (c.f 3 0 24)).suspectCount]) := by
  rw [exec, execBenchResult, hrun, whenSome_some]
  exact if_neg (by simp [hres, hphys])

/-! ### BENCH_RUN -/

/-- R229, R231: a run of a tile in a field with a free slot is accepted, and joins or queues the tile's test. -/
theorem benchRun_next (hrun : runCmd s q e opBenchRun = some c) (hres : reservedOk c [(3, 0xFFFFFF), (4, 0xF)] = true)
    (hphys : physicalOk (c.f 3 0 24) = true) (hcorner : c.f 4 0 4 ≤ 3)
    (hroom : (fieldOf s (taField (c.f 3 0 24))).bench.length < 4) (hnotify : noNotification s c = false) :
    exec (.benchRun q e) s = .next (attachRun (accept s c [c.f 3 0 24]) (taField (c.f 3 0 24)) (taPlace (c.f 3 0 24)) (c.f 4 0 4)
      c.seqNo s.fe.nextHandle) := by
  have hgood : ¬ (!reservedOk c [(3, 0xFFFFFF), (4, 0xF)] || !physicalOk (c.f 3 0 24) || decide (3 < c.f 4 0 4)) = true := by
    simp [hres, hphys, hcorner]
  rw [exec, execBenchRun, hrun, whenSome_some]
  dsimp only
  rw [if_neg hgood, if_neg (by simp [hroom]), hnotify]
  rfl

end

/-- A command that leaves the flight changes the flight and its slot alone. -/
theorem fe_dropCmd (s : State) (q e : Nat) : ∃ flight slots, (dropCmd s q e).fe = { s.fe with flight := flight, slots := slots } := by
  unfold dropCmd
  extract_lets u
  split
  · exact ⟨_, _, rfl⟩
  · exact ⟨_, _, rfl⟩

theorem nextHandle_completeWith (s : State) (c : Cmd) (st handle : Nat) (res : List Word) :
    (completeWith s c st handle res).fe.nextHandle = s.fe.nextHandle := by
  obtain ⟨flight, slots, hfe⟩ := fe_dropCmd s c.q c.e
  rw [completeWith, writeCompletion_eq]
  exact congrArg (·.nextHandle) hfe

/-- R85: the handle of an accepted command is not given again. -/
theorem nextHandle_accept (s : State) (c : Cmd) (args : List Nat) : (accept s c args).fe.nextHandle = s.fe.nextHandle + 1 := by
  unfold accept
  extract_lets h op _ u v
  have hv : v.fe.nextHandle = s.fe.nextHandle + 1 := by
    simp only [v]
    split
    · rfl
    · rfl
  exact (nextHandle_completeWith v c _ h _).trans hv

@[simp] theorem fieldOf_accept (s : State) (c : Cmd) (args : List Nat) (f : Nat) : fieldOf (accept s c args) f = fieldOf s f :=
  fieldOf_of_fields (fields_of_erase { fe := true, out := true } rfl (by simp)) f

/-- The test that BENCH_RUN queues for a tile that has none. -/
def runTest (s : State) (p corner seq handle : Nat) : BenchWait :=
  { tile := p, trigger := 1, corner := corner, order := s.sched.order, handles := [handle], fetched := some seq }

/-- R226: where no test runs or waits in the field, the run is the one that waits. -/
theorem waitTests_attachRun {s : State} {f : Nat} (p corner seq handle : Nat) (hbench : (fieldOf s f).bench = [])
    (hwait : (fieldOf s f).waitTests = []) :
    (fieldOf (attachRun s f p corner seq handle) f).waitTests = [runTest s p corner seq handle] := by
  unfold attachRun
  simp only [hbench, hwait, List.any_nil, Bool.false_eq_true, if_false, List.nil_append]
  exact congrArg (·.waitTests) (fieldOf_setField s f _)

@[simp] theorem fe_attachRun (s : State) (f p corner seq handle : Nat) : (attachRun s f p corner seq handle).fe = s.fe :=
  fe_of_erase { fields := true, sched := true } rfl (by simp)

/-- Settles O20: each row by its command's words; what BENCH_RUN leaves is the operation of its acceptance and the test that it queues. -/
theorem benchCommands : Obligations.BenchCommands := by
  refine fun s q e c => ⟨benchSchedule_next, fun hrun hres hphys hcorner hlegacy hbench hwait => ?_, benchResult_next⟩
  have hnotify : noNotification s c = false := by simp [noNotification, hlegacy]
  obtain ⟨o, ho, hop⟩ := accept_leavesOp s c [c.f 3 0 24]
  refine ⟨_, runTest (accept s c [c.f 3 0 24]) (taPlace (c.f 3 0 24)) (c.f 4 0 4) c.seqNo s.fe.nextHandle,
    benchRun_next hrun hres hphys hcorner (by simp [hbench]) hnotify, ?_, rfl, rfl, rfl, rfl, ?_, o, ?_, hop⟩
  · exact waitTests_attachRun _ _ _ _ (by simpa using hbench) (by simpa using hwait)
  · rw [fe_attachRun, nextHandle_accept]
  · rwa [fe_attachRun]

end Sys2Proof.Machine
end

section
/-! SUPPORT. The starts of Bench tests, the windows of an idle field, the end of a lockout, and overdue tiles (R205, R226 to R229). -/

namespace Sys2Proof.Machine

/-! ### A test takes a slot -/

/-- R254: the spare level of a field is all that may change in it. -/
theorem fieldOf_settleLevel (s : State) (f : Nat) (fresh : Bool) :
    ∃ l, fieldOf (settleLevel s f fresh) f = { fieldOf s f with level := l } := by
  unfold settleLevel
  dsimp only
  split
  · exact ⟨(fieldOf s f).level, rfl⟩
  · exact ⟨_, fieldOf_setField s f _⟩

/-- R226: the test that starts is in its slot and waits no longer. -/
theorem startTest_takesSlot (s : State) (f slot : Nat) (w : BenchWait) (st : TestStart) :
    ∃ b, tfind (fieldOf (startTest s f slot w st) f).bench slot = some b ∧ b.tile = w.tile ∧ b.trigger = w.trigger ∧
      b.handles = w.handles ∧
      (fieldOf (startTest s f slot w st) f).waitTests = (fieldOf s f).waitTests.filter (fun v => v.tile != w.tile) := by
  unfold startTest
  extract_lets a b0 b u v
  have hb : b.tile = w.tile ∧ b.trigger = w.trigger ∧ b.handles = w.handles := by
    cases st with
    | inPlace => exact ⟨rfl, rfl, rfl⟩
    | swap pos subst => exact ⟨rfl, rfl, rfl⟩
  obtain ⟨htile, htrigger, hhandles⟩ := hb
  have hv : v.fields = u.fields := by
    simp only [v]
    split
    · rfl
    · rfl
  obtain ⟨l, hl⟩ := fieldOf_settleLevel v f false
  rw [hl, fieldOf_of_fields hv, fieldOf_modField]
  exact ⟨b, tfind_tset_same _ slot b, htile, htrigger, hhandles, rfl⟩

section
variable {s : State} {f slot : Nat} {w : BenchWait} {st : TestStart}

/-- R205, R226, R227: which test a free slot starts. -/
def slotStarts (s : State) (f slot : Nat) (w : BenchWait) (st : TestStart) : Prop :=
  (firstStart s f (waitOrder (fieldOf s f)) 0).1 = some (w, st) ∨
    ((firstStart s f (waitOrder (fieldOf s f)) 0).1 = none ∧ rotationDue s f slot = true ∧ (fieldOf s f).reduced = false ∧
      (rotationNext s f).1 = some (w, st))

/-- R205, R226: beside the start only deferrals are counted. -/
theorem benchSlotStart_next (hf : f < 84) (hslot : slot < 4) (hclk : clocked s = true) (hin : inService (fieldOf s f) = true)
    (hfree : tfind (fieldOf s f).bench slot = none) (hquiet : s.hang.quiesce = 0) (hstart : slotStarts s f slot w st) :
    ∃ m n, exec (.benchSlotStart f slot) s =
      .next (startTest (modField s f (fun y => { y with defers := sat32 (y.defers + m + n) })) f slot w st) := by
  have hmay : ¬ (!(clocked s && inService (fieldOf s f) && (tfind (fieldOf s f).bench slot).isNone &&
      decide (s.hang.quiesce = 0))) = true := by
    simp [hclk, hin, hfree, hquiet]
  rw [exec, execBenchSlotStart, if_neg (by omega)]
  dsimp only
  rw [if_neg hmay]
  rcases hstart with hfirst | ⟨hfirst, hdue, hfull, hnext⟩
  · rw [hfirst]
    exact ⟨_, _, rfl⟩
  · rw [hfirst]
    simp only [hdue, hfull, Bool.not_false, Bool.and_self, if_true, hnext]
    exact ⟨_, _, rfl⟩

end

/-! ### An idle field's window -/

section
variable {s : State} {f g : Nat}

theorem fieldOf_startSegment_other (s : State) (e : Nat × BenchSlot) (h : g ≠ f) :
    fieldOf (startSegment s f e) g = fieldOf s g := by
  unfold startSegment
  extract_lets b a u v
  have hu : fieldOf u g = fieldOf s g := fieldOf_modField_other s f g _ h
  exact hu

/-- R207, R209: a window changes its own field alone. -/
theorem fieldOf_openWindow_other (s : State) (h : g ≠ f) : fieldOf (openWindow s f) g = fieldOf s g := by
  unfold openWindow
  extract_lets r ready u
  have hu : fieldOf u g = fieldOf s g := fieldOf_modField_other s f g _ h
  split
  · exact List.foldlRecOn (motive := fun v => fieldOf v g = fieldOf s g) ready _ hu fun v hv e _ =>
      (fieldOf_startSegment_other v e h).trans hv
  · exact hu

theorem window_openWindow (s : State) (f : Nat) : (fieldOf (openWindow s f) f).window = s.now + 1000 * windowLen s f := by
  have hseg (u : State) (e : Nat × BenchSlot) : fieldView (·.window) (startSegment u f e) = fieldView (·.window) u := by
    simp [startSegment]
  unfold openWindow
  extract_lets r ready u
  have hu : (fieldOf u f).window = s.now + 1000 * windowLen s f := congrArg (·.window) (fieldOf_modField s f _)
  split
  · exact (read_of_fieldView (fieldView_foldl _ hseg ready u) f).trans hu
  · exact hu

theorem benchIdleWindow_next (hf : f < 84) (hclk : clocked s = true) (hidle : fieldLoaded s f = false) (hstage : (fieldOf s f).stage = 7)
    (hin : (fieldOf s f).excluded = false) (hpast : (fieldOf s f).window = 0 ∨ (fieldOf s f).window + 60000 ≤ s.now) :
    exec (.benchIdleWindow f) s = .next (openWindow s f) := by
  have hdue : (clocked s && !fieldLoaded s f && (fieldOf s f).stage == 7 && !(fieldOf s f).excluded &&
      ((fieldOf s f).window == 0 || decide ((fieldOf s f).window + 60000 ≤ s.now))) = true := by
    simpa [hclk, hidle, hstage, hin] using hpast
  rw [exec, execBenchIdleWindow, if_neg (by omega)]
  dsimp only
  rw [hdue, whenOk_true]

/-! ### The end of a lockout, and overdue tiles -/

theorem benchDroopLockoutEnd_next (hf : f < 84) (hclk : clocked s = true) (hlock : (fieldOf s f).benchLock = true) :
    exec (.benchDroopLockoutEnd f) s = .next (modField s f (fun x => { x with benchLock := false })) := by
  rw [exec, execBenchDroopLockoutEnd, decide_eq_true hf, hclk, hlock]
  rfl

/-- R228: the record of an overdue tile, and when the tile was last found overdue. -/
theorem benchOverdue_next {tile : Nat} (hclk : clocked s = true) (hphys : physicalOk tile = true) (hquar : (tileRec s tile).quar = false)
    (hlast : lastCompleted s tile + 2 * (s.sched.period * 960) ≤ s.cab.opTime)
    (hagain : ∀ at_, tfind s.sched.overdue tile = some at_ → at_ + s.sched.period * 960 ≤ s.cab.opTime) :
    exec (.benchOverdue tile) s =
      .next (emitPart { s with sched := { s.sched with overdue := tset s.sched.overdue tile s.cab.opTime } } evBenchOverdue
        (partNo s (taField tile)) [tile, overdueCause s tile]) := by
  rw [exec, execBenchOverdue, hphys, hclk, hquar]
  simp only [Bool.not_true, Bool.false_eq_true, if_false, Bool.not_false, Bool.and_true, decide_eq_true hlast, Bool.true_and]
  cases hover : tfind s.sched.overdue tile with
  | none => rfl
  | some at_ =>
    simp only [decide_eq_true (hagain at_ hover)]
    rfl

end

theorem benchEvents : Says.BenchEvents := by
  intro s f hf hclk
  refine ⟨fun slot w st hslot hin hfree hquiet hstart => ?_, fun hidle hstage hin hpast => ?_, benchDroopLockoutEnd_next hf hclk,
    fun tile hphys hquar hlast hagain => ?_⟩
  · obtain ⟨m, n, hnext⟩ := benchSlotStart_next hf hslot hclk hin hfree hquiet hstart
    obtain ⟨b, hb, htile, htrigger, hhandles, hwait⟩ :=
      startTest_takesSlot (modField s f (fun y => { y with defers := sat32 (y.defers + m + n) })) f slot w st
    refine ⟨_, b, hnext, hb, htile, htrigger, hhandles, fun v hv => ?_⟩
    rw [hwait] at hv
    simpa using (List.mem_filter.mp hv).2
  · exact ⟨_, benchIdleWindow_next hf hclk hidle hstage hin hpast, window_openWindow s f, fun g hg => fieldOf_openWindow_other s hg⟩
  · exact ⟨_, benchOverdue_next hclk hphys hquar hlast hagain, tfind_tset_same _ tile _, rfl⟩

end Sys2Proof.Machine
end

section
/-! SUPPORT. The ends of Bench segments (R211, R213, R214, R219, R229, Table 8.4). -/

namespace Sys2Proof.Machine

/-! ### What a third droop leaves locked -/

/-- An entry that is changed in its place is found changed. -/
theorem tfind_map_at {α : Type} (t : Table α) (k : Nat) (h : α → α) :
    tfind (t.map (fun e => if e.1 = k then (e.1, h e.2) else e)) k = (tfind t k).map h := by
  induction t with
  | nil => rfl
  | cons e t ih =>
    obtain ⟨a, v⟩ := e
    by_cases ha : a = k
    · simp [tfind, ha]
    · simpa [tfind, ha] using ih

/-- R229: the field's Bench is locked. -/
abbrev benchLocked (x : Field) : Bool := x.benchLock

theorem benchLocked_settleLevel (s : State) (f : Nat) (fresh : Bool) :
    benchLocked (fieldOf (settleLevel s f fresh) f) = benchLocked (fieldOf s f) := by
  obtain ⟨l, hl⟩ := fieldOf_settleLevel s f fresh
  rw [hl]

theorem benchLocked_queueTest (s : State) (f p trigger corner : Nat) :
    fieldView benchLocked (queueTest s f p trigger corner) = fieldView benchLocked s := by
  unfold queueTest
  extract_lets
  split
  · rfl
  · exact (fieldView_of_fields rfl).trans (fieldView_setField (s := s) f _ rfl)

theorem benchLocked_releaseTile (s : State) (f p : Nat) : fieldView benchLocked (releaseTile s f p) = fieldView benchLocked s := by
  unfold releaseTile
  exact (benchLocked_queueTest _ f p 2 0).trans rfl

theorem benchLocked_releaseTested (s : State) (f p : Nat) :
    fieldView benchLocked (releaseTested s f p) = fieldView benchLocked s := by
  unfold releaseTested
  extract_lets x due u
  have hu : fieldView benchLocked u = fieldView benchLocked s := fieldView_setField f _ rfl
  refine (fieldView_foldl _ (fun v e => ?_) due u).trans hu
  extract_lets w
  have hw : fieldView benchLocked w = fieldView benchLocked v := by
    simp only [w]
    split
    · exact benchLocked_releaseTile v f p
    · rfl
  split
  · exact (fieldView_of_exceptFields (by simp [exceptFields])).trans hw
  · exact hw

/-- Table 8.4: what an aborted test leaves does not touch the lockout. -/
theorem benchLocked_finishAborted (s : State) (f slot action : Nat) (again : Bool) :
    benchLocked (fieldOf (finishAborted s f slot action again) f) = benchLocked (fieldOf s f) := by
  unfold finishAborted
  split
  · rfl
  · extract_lets a u v w word x test y
    have hu : fieldView benchLocked u = fieldView benchLocked s := fieldView_modField f _ rfl
    have hx : fieldView benchLocked x = fieldView benchLocked u := rfl
    have hy : fieldView benchLocked y = fieldView benchLocked x := by
      simp only [y]
      split
      · exact fieldView_modField f _ rfl
      · exact fieldView_of_exceptFields (erase_foldl exceptFields _ (fun z h => by simp [exceptFields]) _ _)
    rw [benchLocked_settleLevel]
    exact read_of_fieldView ((benchLocked_releaseTested y f _).trans (hy.trans (hx.trans hu))) f

/-- Table 8.4: the result of a test that ends early. -/
def abortedSlot (b : BenchSlot) : BenchSlot := { b with result := 7, done := true, admitted := false }

/-- R229: a test that a droop aborts in its slot leaves the lockout. -/
theorem benchLocked_endTest_aborted (s : State) (f slot : Nat) :
    benchLocked (fieldOf (endTest s f slot 7) f) = benchLocked (fieldOf s f) := by
  unfold endTest
  rw [if_pos rfl]
  extract_lets u
  have hu : fieldView benchLocked u = fieldView benchLocked s := fieldView_modField f _ rfl
  have hfind : tfind (fieldOf u f).bench slot = (tfind (fieldOf s f).bench slot).map abortedSlot := by
    simp only [u, fieldOf_modField]
    exact tfind_map_at _ slot abortedSlot
  rw [hfind]
  cases tfind (fieldOf s f).bench slot with
  | none => exact read_of_fieldView hu f
  | some b =>
    simp only [Option.map_some, abortedSlot, if_true]
    split
    · exact read_of_fieldView hu f
    · exact (benchLocked_finishAborted u f slot 2 true).trans (read_of_fieldView hu f)

theorem benchLock_droopedSegment {s : State} {f slot : Nat} {b : BenchSlot} (h : b.droops = 2) :
    (fieldOf (droopedSegment s f slot b) f).benchLock = true := by
  unfold droopedSegment
  extract_lets n u v
  rw [if_neg (by omega)]
  refine (benchLocked_endTest_aborted v f slot).trans ?_
  have hlock : (fieldOf (modField u f (fun x => { x with benchLock := true })) f).benchLock = true := by rw [fieldOf_modField]
  exact hlock

/-! ### How a segment ends -/

section
variable {s : State} {f slot : Nat} {b : BenchSlot} {seg : SegmentEnd}

/-- R211: a segment that was to heat the tile and did not is counted, and judged all the same. -/
def coldCounted (s : State) (f : Nat) (b : BenchSlot) (seg : SegmentEnd) : State :=
  if cornerHeat b.corner && !heatReached seg then modField s f (fun x => { x with benchCold := x.benchCold + 1 }) else s

theorem guards_coldCounted : (coldCounted s f b seg).guards = s.guards := by
  unfold coldCounted
  split
  · rfl
  · rfl

theorem parts_coldCounted : (coldCounted s f b seg).parts = s.parts := by
  unfold coldCounted
  split
  · rfl
  · rfl

theorem segmentBad_of_guards {t : State} (h : t.guards = s.guards) : segmentBad t f b seg = segmentBad s f b seg := by
  rw [segmentBad, segmentBad, guardOf_of_guards h]

theorem noteSegment_of_guards {t : State} (h : t.guards = s.guards) : noteSegment t f b seg = noteSegment s f b seg := by
  rw [noteSegment, noteSegment, guardOf_of_guards h]

theorem windowLen_of_parts {t : State} (h : t.parts = s.parts) : windowLen t f = windowLen s f := by
  rw [windowLen, windowLen, fieldProg, fieldProg, fieldPart, fieldPart, h]

theorem tfind_setSlotB (s : State) (f slot : Nat) (b : BenchSlot) : tfind (fieldOf (setSlotB s f slot b) f).bench slot = some b := by
  rw [setSlotB, fieldOf_modField]
  exact tfind_tset_same _ slot b

/-- R214: what the verdict of the segment comes to. -/
def judgedSegment (s : State) (f slot : Nat) (b : BenchSlot) (seg : SegmentEnd) : State :=
  if segmentBad s f b seg then segmentFailed (coldCounted s f b seg) f slot (noteSegment s f b seg)
  else segmentPassed (coldCounted s f b seg) f slot (noteSegment s f b seg)

theorem benchSegmentEnd_next (hf : f < 84) (hslot : slot < 4) (hfind : tfind (fieldOf s f).bench slot = some b)
    (hadm : b.admitted = true) (hdone : b.done = false) (hrows : seg.rows.all (· < 1032) = true)
    (hlinks : seg.links.all (· < 4) = true) (hup : (fieldOf s f).warden = .up) (hclk : clocked s = true) :
    exec (.benchSegmentEnd f slot seg) s = .next (
      if b.drooped then droopedSegment s f slot b
      else if b.miss then endTest (setSlotB (coldCounted s f b seg) f slot (noteSegment s f b seg)) f slot 4
      else judgedSegment s f slot b seg) := by
  have hwf : ¬ (84 ≤ f ∨ 4 ≤ slot ∨ (!(seg.rows.all (· < 1032) && seg.links.all (· < 4))) = true) := by
    rw [hrows, hlinks]
    simp [hf, hslot]
  have hruns : wardenRuns s f = true := by simp [wardenRuns, hclk, hup]
  rw [exec, execBenchSegmentEnd, if_neg hwf, hruns, if_pos rfl, hfind, whenSome_some, if_neg (by simp [hadm, hdone]), judgedSegment,
    ← noteSegment_of_guards guards_coldCounted, ← segmentBad_of_guards guards_coldCounted, apply_ite Host.Outcome.next,
    apply_ite Host.Outcome.next, apply_ite Host.Outcome.next]
  rfl

/-- R229: before the third droop within the test, the segment is discarded and the test goes on. -/
theorem droopedSegment_goesOn (h : b.droops + 1 < 3) : droopedSegment s f slot b = modField s f (fun x => { x with
    bench := tset x.bench slot { b with droops := b.droops + 1, admitted := false, drooped := false, site := 0 } }) := by
  rw [droopedSegment]
  exact if_pos h

/-- R219: the first failure of a segment has it run again. -/
theorem segmentFailed_again (honce : b.failOnce = false) (hladder : b.ladder = 0) :
    segmentFailed s f slot b = setSlotB s f slot { b with failOnce := true, admitted := false } := by
  rw [segmentFailed]
  exact if_pos ⟨by rw [honce]; rfl, hladder⟩

/-- R213: a segment that has passed counts towards a test that is not at its end. -/
theorem segmentPassed_counts (hladder : b.ladder = 0) (hleft : windowLen s f - 16 < b.left) :
    ∃ b', tfind (fieldOf (segmentPassed s f slot b) f).bench slot = some b' ∧ b'.failOnce = false ∧ b'.admitted = false ∧
      b'.left = b.left - (windowLen s f - 16) ∧ b'.pattern = patternAt b'.left := by
  have hdown : (decide (0 < b.ladder) && decide (b.freq < b.fmaxOld)) = false := by simp [hladder]
  unfold segmentPassed
  extract_lets u down v left d w
  have hlen : windowLen v f = windowLen s f := by
    have hu : u.parts = s.parts := by
      simp only [u]
      split
      · rfl
      · rfl
    have hv : v = u := if_neg (by simp [down, hdown])
    rw [hv, windowLen_of_parts hu]
  have hmore : ¬ left = 0 := by
    simp only [left, hlen]
    omega
  rw [if_neg hmore]
  exact ⟨d, tfind_setSlotB v f slot d, rfl, rfl, by rw [← hlen], rfl⟩

end

theorem benchSegments : Says.BenchSegments := by
  intro s f slot b seg hf hslot hfind hadm hdone hrows hlinks hup hclk
  have hnext := benchSegmentEnd_next hf hslot hfind hadm hdone hrows hlinks hup hclk
  refine ⟨fun hdroop hfew => ?_, fun hdroop hthird => ?_, fun hdroop hmiss honce hladder hpattern hbad => ?_,
    fun hdroop hmiss hladder hpin hdigest hleft => ?_⟩
  · rw [hnext, if_pos hdroop, droopedSegment_goesOn hfew]
  · rw [hnext, if_pos hdroop]
    exact ⟨_, rfl, benchLock_droopedSegment hthird⟩
  · have hfailed : segmentBad s f b seg = true := by simpa [segmentBad, hpattern] using hbad
    rw [hnext, hdroop, hmiss, if_neg Bool.false_ne_true, if_neg Bool.false_ne_true, judgedSegment, if_pos hfailed,
      segmentFailed_again (b := noteSegment s f b seg) honce hladder]
    exact ⟨_, _, rfl, tfind_setSlotB _ f slot _, rfl, rfl, rfl, rfl⟩
  · have hpassed : ¬ segmentBad s f b seg = true := by simp [segmentBad, hpin, hdigest]
    have hlen : windowLen (coldCounted s f b seg) f = windowLen s f := windowLen_of_parts parts_coldCounted
    rw [hnext, hdroop, hmiss, if_neg Bool.false_ne_true, if_neg Bool.false_ne_true, judgedSegment, if_neg hpassed, ← hlen]
    obtain ⟨b', hcounted⟩ := segmentPassed_counts (s := coldCounted s f b seg) (b := noteSegment s f b seg) (slot := slot) hladder
      (by rw [hlen]; exact hleft)
    exact ⟨_, b', rfl, hcounted⟩

/-- Settles O23: a start, a window and an overdue tile by their rows, whose record of an overdue tile stands in `benchOverdue_next`; a
segment by how it ends: discarded, run again, or counted. -/
theorem benchRows : Obligations.BenchRows := ⟨benchEvents, benchSegments⟩

end Sys2Proof.Machine
end

section
/-! SUPPORT. MAP_GRID LOAD (R94, R173, R208, R245, R256, R358). -/

namespace Sys2Proof.Machine

/-- A partition that is there reads back as it was changed. -/
theorem partOf_modPart {s : State} {p : Nat} {x : Part} (h : partOf s p = some x) (g : Part → Part) :
    partOf (modPart s p g) p = some (g x) := by
  rw [modPart, h]
  exact partOf_setPart s p (g x)

/-- R94, R173, R208: the program that the command's words and the directory give. -/
def loadedProgram (c : Cmd) (dir : List DirEntry) : Program :=
  { id := c.words.getD 9 0, slack := slackOf (c.f 7 0 10), windowUs := windowUs (c.f 7 16 10), period := windowPeriod (c.f 8 0 16),
    seams := dir.foldl (fun m d => tset m d.field (d.entries.map seamOf)) [] }

/-- R245, R358: the partition holds the program, in the mode last set. -/
theorem partOf_loadProgram {s : State} {p : Nat} {x : Part} (hx : partOf s p = some x) (c : Cmd) (dir : List DirEntry) :
    ∃ y, partOf (loadProgram s c p x dir) p = some y ∧ y.prog = some (loadedProgram c dir) ∧ y.opmodeRun = x.opmode ∧
      y.tenant = x.tenant ∧ partFields y = partFields x := by
  unfold loadProgram
  extract_lets fs g marked held cleared
  have hheld : partOf held p = some { x with
      prog := some g, opmodeRun := x.opmode, programStart := marked.now, slackWarned := [], slackOut := [] } :=
    partOf_modPart ((partOf_of_parts (parts_setMarks s fs x.tenant) p).trans hx) _
  refine ⟨_, (partOf_of_parts ?_ p).trans hheld, rfl, rfl, rfl, rfl⟩
  exact parts_of_erase { free := true, fe := true, fields := true, guards := true, tiles := true, out := true } rfl (by simp [cleared])

section
variable {s : State} {q e : Nat} {c : Cmd} {x : Part} {dir : List DirEntry}

/-- R245, R256: a LOAD that nothing stands in the way of loads the program, once the layouts stand. -/
theorem mapGridLoad_loads (hrun : runCmd s q e opMapGrid = some c) (hload : c.f 3 0 2 = 0) (hleg : s.regs.legacy = false)
    (hx : partOf s c.part = some x)
    (hres : reservedOk c [(3, 7), (4, 0xFFFFFFFF), (5, 0xFFFFFFFF), (6, 0x7F), (7, 0x03FF03FF), (8, 0xFFFF),
      (9, 0xFFFFFFFF), (11, 0xFFFFFFFF), (12, 0xFFFFFFFF), (13, 0xFFFFFFFF)] = true)
    (hlow : 1 ≤ c.f 6 0 7) (hhigh : c.f 6 0 7 ≤ 84) (hlen : dir.length = c.f 6 0 7)
    (hdir : directoryOk (partFields x) (c.f 7 0 10) (c.f 7 16 10) (c.f 8 0 16) dir = true) (hprog : x.prog = none)
    (hheld : x.heldAll = false) (hmode : x.opmode = 0)
    (hready : ∀ f ∈ partFields x, (fieldOf s f).excluded = false ∧ notReady (fieldOf s f) = false ∧ (fieldOf s f).therm.shut = none)
    (hfull : ∀ f ∈ partFields x, (loadLayout s f 0 (c.b 3 2 && bitAt x.policy 2)).missing = []) :
    ∃ u st res, partOf u c.part = some x ∧
      exec (.mapGridLoad q e dir) s = .next (completeRes (settleBoot (loadProgram u c c.part x dir)) c st res) := by
  have hfree : (partFields x).any (fun f => notReady (fieldOf s f) || (fieldOf s f).therm.shut.isSome) = false := by
    rw [List.any_eq_false]
    intro f hf
    obtain ⟨-, hnot, hshut⟩ := hready f hf
    simp [hnot, hshut]
  have hin : (partFields x).any (fun f => (fieldOf s f).excluded) = false := by
    rw [List.any_eq_false]
    intro f hf
    obtain ⟨hexcl, -, -⟩ := hready f hf
    simp [hexcl]
  have hmissing : (((partFields x).map (fun f => (f, loadLayout s f 0 (c.b 3 2 && bitAt x.policy 2)))).map
      (fun m => m.2.missing.length)).sum = 0 := by
    rw [List.map_map, List.sum_eq_zero_iff_forall_eq_nat]
    intro n hn
    obtain ⟨f, hf, rfl⟩ := List.mem_map.mp hn
    simp [hfull f hf]
  rw [exec, execMapGridLoad, hrun, whenSome_some, if_neg (by simp [hload]), hx]
  dsimp only
  rw [if_neg (by simp [hres, hload, hlow, hhigh, hleg]), if_neg (by simp [hlen]), if_neg (by simp [hdir]),
    if_neg (by simp [hprog, hheld, hmode, hfree]), if_neg (by simp [hin]), hmode, if_neg (by rw [hmissing]; simp)]
  refine ⟨_, _, _, ?_, rfl⟩
  exact (partOf_of_parts (parts_of_erase { fields := true, hutch := true, arrivals := true } rfl (by simp)) _).trans hx

end

/-- Settles O17: LOAD installs its layouts and records, which leave the partition, and loads the program into it. -/
theorem loadLoadsProgram : Obligations.LoadLoadsProgram := by
  intro s q e c x dir hrun hload hleg hx hres hlow hhigh hlen hdir hprog hheld hmode hready hfull
  obtain ⟨u, st, res, hu, hnext⟩ :=
    mapGridLoad_loads hrun hload hleg hx hres hlow hhigh hlen hdir hprog hheld hmode hready hfull
  obtain ⟨y, hy, hg, hrunMode, htenant, hfields⟩ := partOf_loadProgram hu c dir
  have hboot : (settleBoot (loadProgram u c c.part x dir)).parts = (loadProgram u c c.part x dir).parts :=
    parts_of_erase { nor := true, boot := true, out := true, status := true, arrivals := true } rfl (by simp)
  exact ⟨_, y, _, hnext, (partOf_of_parts ((parts_completeRes _ c st res).trans hboot) _).trans hy, hg, rfl, rfl,
    hrunMode.trans hmode, htenant, hfields⟩

end Sys2Proof.Machine
end

section
/-! SUPPORT. UNMAP (R22, R81, R95, R245, R294). -/

namespace Sys2Proof.Machine

/-! ### What an unload leaves of a field -/

/-- How the steps of a field stand. -/
abbrev runOf (x : Field) : Run := x.run

theorem runOf_applySettings (s : State) (f : Nat) : fieldView runOf (applySettings s f) = fieldView runOf s :=
  congrArg (fun v f => (v f).run) (stepView_applySettings s f)

@[simp] theorem fieldView_syncMap {α : Type} {π : Field → α} (s : State) (f : Nat) : fieldView π (syncMap s f) = fieldView π s := rfl

theorem runOf_settleLevel (s : State) (f : Nat) (fresh : Bool) : fieldView runOf (settleLevel s f fresh) = fieldView runOf s := by
  unfold settleLevel
  extract_lets x n l
  split
  · rfl
  · exact fieldView_setField f _ rfl

/-- R245: a new layout starts and stops nothing. -/
theorem runOf_layOut (s : State) (f opmode : Nat) : fieldView runOf (layOut s f opmode) = fieldView runOf s := by
  rw [layOut, installLayout, runOf_settleLevel, fieldView_syncMap]
  exact fieldView_modField f _ rfl

theorem parts_layOut (s : State) (f opmode : Nat) : (layOut s f opmode).parts = s.parts :=
  parts_of_erase { hutch := true, fields := true, arrivals := true } rfl (by simp)

theorem parts_modFields (s : State) (fs : List Nat) (g : Field → Field) : (modFields s fs g).parts = s.parts :=
  parts_of_erase { fields := true } rfl (by simp)

theorem fields_complete (s : State) (c : Cmd) (st : Nat) (res : List Word) : (complete s c st res).fields = s.fields :=
  fields_of_erase { fe := true, out := true } rfl (by simp)

/-! ### The unload ends -/

/-- R22, R245: the partition holds no program and is neither held nor unloading. -/
def Unloaded (y : Part) : Prop := y.prog = none ∧ y.heldAll = false ∧ y.unloading = none

/-- What becomes of a partition by `g`, where it is there at all. -/
theorem partOf_modPart_all {P : Part → Prop} (s : State) (p : Nat) {g : Part → Part} (h : ∀ x, partOf s p = some x → P (g x)) :
    ∀ y, partOf (modPart s p g) p = some y → P y := by
  intro y hy
  cases hp : partOf s p with
  | none =>
    rw [modPart, hp] at hy
    rw [hp] at hy
    cases hy
  | some x =>
    rw [partOf_modPart hp] at hy
    cases hy
    exact h x hp

/-- R245: a program leaves its partition, which is released. -/
theorem unloaded_dropProgram (s : State) (p : Nat) :
    ∀ y, partOf (modPart (dropProgram s p) p (fun y => { y with heldAll := false, unloading := none })) p = some y → Unloaded y := by
  have hdrop : ∀ x, partOf (dropProgram s p) p = some x → x.prog = none := by
    intro x hx
    rw [dropProgram, partOf_of_parts (parts_modFields ..)] at hx
    exact partOf_modPart_all (P := fun x => x.prog = none) s p (fun _ _ => rfl) x hx
  exact partOf_modPart_all (P := Unloaded) _ p fun x hx => ⟨hdrop x hx, rfl, rfl⟩

/-- R245: once all its fields have stopped the partition is unloaded, and its fields are idle. -/
theorem finishUnload_unloads {s : State} {p : Nat} {x : Part} (hx : partOf s p = some x) :
    (∀ y, partOf (finishUnload s p) p = some y → Unloaded y) ∧ ∀ f ∈ partFields x, (fieldOf (finishUnload s p) f).run = .idle := by
  unfold finishUnload
  split
  next hnone => cases hx.symm.trans hnone
  next z hz =>
    obtain rfl : x = z := Option.some.inj (hx.symm.trans hz)
    extract_lets fs ended dropped released idled applied late ready boot joined laid
    have hparts : laid.parts = released.parts := by
      calc laid.parts = joined.parts := parts_foldl _ (fun u f => parts_layOut u f x.opmodeRun) fs joined
        _ = applied.parts := parts_modFields applied late _
        _ = idled.parts := parts_foldl _ parts_applySettings fs idled
        _ = released.parts := parts_modFields released fs _
    have hrun : fieldView runOf laid = fieldView runOf idled := by
      calc fieldView runOf laid = fieldView runOf ready := fieldView_foldl _ (fun u f => runOf_layOut u f x.opmodeRun) fs joined
        _ = fieldView runOf applied := fieldView_foldl _ (fun u f => fieldView_modField f _ rfl) late applied
        _ = fieldView runOf idled := fieldView_foldl _ runOf_applySettings fs idled
    have hunloaded : ∀ y, partOf laid p = some y → Unloaded y := by
      rw [partOf_of_parts hparts]
      exact unloaded_dropProgram ended p
    have hidle : ∀ f ∈ partFields x, (fieldOf laid f).run = .idle := fun f hf =>
      (read_of_fieldView hrun f).trans (fieldOf_modFields_mem (fun y => y.run = .idle) released (fun _ => rfl) hf)
    split
    · exact ⟨hunloaded, hidle⟩
    · split
      · refine ⟨?_, fun f hf => ?_⟩
        · rw [partOf_complete]
          exact hunloaded
        · rw [fieldOf_of_fields (fields_complete ..)]
          exact hidle f hf
      · exact ⟨hunloaded, hidle⟩

/-! ### UNMAP, unload -/

/-- R22, R294: a field with a program at which an UNMAP waits for nothing. -/
def stopsAtOnce (s : State) (x : Part) (f : Nat) : Bool := standsStill s f && (x.heldAll || (fieldOf s f).run == .gated)

/-- R22: an unload of the partition has begun, and the fields that stand still are stopped. -/
def unloadBegun (s : State) (q e : Nat) (c : Cmd) (x : Part) : State :=
  modFields (setPart (background s c) c.part { x with unloading := some (q, e) }) ((partFields x).filter (stopsAtOnce s x))
    (fun y => { y with stopped := true })

theorem partOf_unloadBegun (s : State) (q e : Nat) (c : Cmd) (x : Part) :
    partOf (unloadBegun s q e c x) c.part = some { x with unloading := some (q, e) } :=
  (partOf_of_parts (parts_modFields ..) _).trans (partOf_setPart ..)

section
variable {s : State} {q e : Nat} {c : Cmd} {x : Part} (hrun : runCmd s q e opUnmap = some c) (hx : partOf s c.part = some x)
  (hres : reservedOk c [(3, 1)] = true)
include hrun hx hres

section
variable (hunload : c.b 3 0 = false)
include hunload

theorem unmapUnload_noProgram (hprog : x.prog = none) : exec (.unmapUnload q e) s =
    if x.heldAll then .next (finishUnload (modPart s c.part (fun y => { y with unloading := some (q, e) })) c.part)
    else .next (complete s c stOk [0]) := by
  rw [exec, execUnmapUnload, hrun, whenSome_some, if_neg (by simp [hunload]), hx]
  dsimp only
  rw [if_neg (by simp [hres]), if_pos (by simp [hprog])]

theorem unmapUnload_program (hprog : x.prog.isSome = true) : exec (.unmapUnload q e) s =
    .next (if (partFields x).all (stopsAtOnce s x) then finishUnload (unloadBegun s q e c x) c.part else unloadBegun s q e c x) := by
  have hpart : modPart (background s c) c.part (fun y => { y with unloading := some (q, e) }) =
      setPart (background s c) c.part { x with unloading := some (q, e) } := by
    have hback : partOf (background s c) c.part = some x := hx
    rw [modPart, hback]
  have hall : ((partFields x).filter (stopsAtOnce s x)).length = (partFields x).length ↔
      (partFields x).all (stopsAtOnce s x) = true := by
    rw [List.length_filter_eq_length_iff, List.all_eq_true]
  rw [exec, execUnmapUnload, hrun, whenSome_some, if_neg (by simp [hunload]), hx]
  dsimp only
  rw [if_neg (by simp [hres]), if_neg (by simpa [Option.isSome_iff_ne_none] using hprog), hpart]
  exact congrArg _ (if_congr hall rfl rfl)

/-- R81, R245, R294: fields that nothing keeps running are unloaded at once. -/
theorem unmapUnload_atOnce (hstill : (x.prog = none ∧ x.heldAll = true) ∨ (x.prog.isSome = true ∧
      (partFields x).all (stopsAtOnce s x) = true)) :
    ∃ u y, exec (.unmapUnload q e) s = .next (finishUnload u c.part) ∧ partOf u c.part = some y ∧ partFields y = partFields x := by
  rcases hstill with ⟨hprog, hheld⟩ | ⟨hprog, hall⟩
  · exact ⟨_, _, (unmapUnload_noProgram hrun hx hres hunload hprog).trans (if_pos hheld), partOf_modPart hx _, rfl⟩
  · refine ⟨_, _, (unmapUnload_program hrun hx hres hunload hprog).trans (congrArg _ (if_pos hall)),
      partOf_unloadBegun s q e c x, rfl⟩

/-- R22, R81: where a field runs on, the command goes on in the background. -/
theorem unmapUnload_goesOn (hprog : x.prog.isSome = true) (hruns : (partFields x).all (stopsAtOnce s x) = false) :
    ∃ t y d, exec (.unmapUnload q e) s = .next t ∧ partOf t c.part = some y ∧ y.unloading = some (q, e) ∧ y.prog = x.prog ∧
      findCmd t q e = some d ∧ d.phase = .background ∧ t.out = s.out := by
  have hkeeps : erase { fields := true, parts := true } (unloadBegun s q e c x) =
      erase { fields := true, parts := true } (background s c) := by simp [unloadBegun]
  obtain ⟨hfind, -, -⟩ := runCmd_some s q e opUnmap c hrun
  refine ⟨_, _, { c with phase := .background },
    (unmapUnload_program hrun hx hres hunload hprog).trans (congrArg _ (if_neg (by simp [hruns]))),
    partOf_unloadBegun s q e c x, rfl, rfl, ?_, rfl, (out_of_erase _ rfl hkeeps).trans rfl⟩
  rw [findCmd_of_flight (congrArg (·.flight) (fe_of_erase _ rfl hkeeps))]
  exact findCmd_background hfind

end

/-! ### UNMAP, dissolve -/

theorem unmapDissolve_busy (hdissolve : c.b 3 0 = true) (hprog : x.prog.isSome = true) :
    exec (.unmapDissolve q e) s = .next (complete s c stBusy []) := by
  rw [exec, execUnmapDissolve, hrun, whenSome_some, if_neg (by simp [hdissolve]), hx]
  dsimp only
  rw [if_neg (by simp [hres]), if_pos hprog]

/-- R95: what follows the end of the partition leaves it ended. -/
theorem unmapDissolve_removes (hdissolve : c.b 3 0 = true) (hprog : x.prog = none) :
    ∃ u, exec (.unmapDissolve q e) s = .next (complete u c stOk [w32 (partFields x).length]) ∧ partOf u c.part = none := by
  rw [exec, execUnmapDissolve, hrun, whenSome_some, if_neg (by simp [hdissolve]), hx]
  dsimp only
  rw [if_neg (by simp [hres]), if_neg (by simp [hprog])]
  refine ⟨_, rfl, ?_⟩
  rw [partOf, parts_foldl _ fun u f => parts_layOut u f 0, parts_modFields, tfind_tdel_same]

end

/-- Settles O18: an unload by whether all the partition's fields stand still, and by what ends it; a dissolution by what it does to the
table of partitions. That a partition without a program and without a hold releases 0 fields is log entry 56. -/
theorem unmapRows : Obligations.UnmapRows := by
  intro s q e c x hrun hx hres
  refine ⟨fun hunload hprog hheld => ?_, fun hunload hstill => ?_,
    fun hunload hprog hruns => unmapUnload_goesOn hrun hx hres hunload hprog hruns, fun hdissolve hprog => ?_,
    unmapDissolve_busy hrun hx hres⟩
  · rw [unmapUnload_noProgram hrun hx hres hunload hprog, hheld]
    rfl
  · obtain ⟨u, y, hnext, hy, hfields⟩ := unmapUnload_atOnce hrun hx hres hunload hstill
    obtain ⟨hpart, hidle⟩ := finishUnload_unloads hy
    exact ⟨_, hnext, hpart, hfields ▸ hidle⟩
  · obtain ⟨u, hnext, hgone⟩ := unmapDissolve_removes hrun hx hres hdissolve hprog
    exact ⟨_, u, hnext, rfl, (partOf_complete ..).trans hgone⟩

end Sys2Proof.Machine
end

section
/-! SUPPORT. QUARANTINE and RELEASE (R56, R234, R237 to R239, R251 to R253, R345, R349). -/

namespace Sys2Proof.Machine

/-! ### Addresses, and the Hutch's records -/

/-- R5: the address of an existing physical tile is that of its field and place. -/
theorem pa_of_physicalOk {a : Nat} (h : physicalOk a = true) : pa (taField a) (taPlace a) = a := by
  simp only [physicalOk, Bool.and_eq_true, decide_eq_true_eq, taField, taPhys, taX, taY, bitsOf, bitAt, Nat.testBit,
    Nat.shiftRight_eq_div_pow, bne_iff_ne, Nat.one_and_eq_mod_two] at h
  simp only [pa, tileAddr, taField, taPlace, taX, taY, bitsOf, bit01, Nat.shiftRight_eq_div_pow, if_true]
  omega

theorem hutch_of_erase (κ : Mask) {s t : State} (hκ : κ.hutch = false) (h : erase κ t = erase κ s) : t.hutch = s.hutch := by
  simpa [erase, hκ] using congrArg State.hutch h

@[simp] theorem hutch_complete (s : State) (c : Cmd) (st : Nat) (res : List Word) : (complete s c st res).hutch = s.hutch :=
  hutch_of_erase { fe := true, out := true } rfl (by simp)

theorem tileRec_of_hutch {s t : State} (h : t.hutch = s.hutch) (a : Nat) : tileRec t a = tileRec s a := by
  rw [tileRec, tileRec, h]

@[simp] theorem tileRec_modTileRec (s : State) (a : Nat) (g : TileRec → TileRec) : tileRec (modTileRec s a g) a = g (tileRec s a) :=
  tget_tset_same ..

theorem tileRec_modTileRec_other (s : State) {a b : Nat} (g : TileRec → TileRec) (h : b ≠ a) :
    tileRec (modTileRec s a g) b = tileRec s b :=
  tget_tset_other _ _ _ _ _ h

/-- From `s` to `t` the Hutch has changed the record of tile `a` alone, by `g`. -/
def RecordChanged (s : State) (a : Nat) (g : TileRec → TileRec) (t : State) : Prop :=
  tileRec t a = g (tileRec s a) ∧ ∀ b, b ≠ a → tileRec t b = tileRec s b

theorem recordChanged_of_hutch {s t : State} {a : Nat} {g : TileRec → TileRec} (h : t.hutch = (modTileRec s a g).hutch) :
    RecordChanged s a g t :=
  ⟨(tileRec_of_hutch h a).trans (tileRec_modTileRec s a g),
    fun b hb => (tileRec_of_hutch h b).trans (tileRec_modTileRec_other s g hb)⟩

/-! ### QUARANTINE of a tile -/

/-- R251: the record of a tile that is quarantined. -/
def quarRec (reason : Nat) (r : TileRec) : TileRec := { r with quar := true, qreason := reason }

section
variable {s : State} {c : Cmd} {f p reason : Nat}

theorem quarantineTile_again (hquar : (tileRec s (pa f p)).quar = true) :
    quarantineTile s c f p reason = complete s c stOk [w32 0xFFFFFF, w32 (lendableCount s f)] :=
  if_pos hquar

/-- R252: a spare that nothing uses is quarantined at once, with ST_OK. -/
theorem quarantineTile_spare (hquar : (tileRec s (pa f p)).quar = false) (hlent : isLent (fieldOf s f) p = false)
    (hbench : (fieldOf s f).bench = []) (hserves : servedBy (fieldOf s f) p = none) (hreplay : replaysHere s f p = false) :
    ∃ u, quarantineTile s c f p reason = complete u c stOk [w32 0xFFFFFF, w32 (lendableCount u f)] ∧
      RecordChanged s (pa f p) (quarRec reason) (quarantineTile s c f p reason) := by
  have hdone : quarantineTile s c f p reason = complete (settleLevel (markQuarantined s f p reason 0) f false) c stOk
      [w32 0xFFFFFF, w32 (lendableCount (settleLevel (markQuarantined s f p reason 0) f false) f)] := by
    rw [quarantineTile]
    dsimp only
    rw [if_neg (by simp [hquar]), if_neg (by simp [hlent]), hbench, List.find?_nil]
    dsimp only
    rw [hserves]
    exact if_neg (by simp [hreplay])
  refine ⟨_, hdone, recordChanged_of_hutch ?_⟩
  have hlevel : (settleLevel (markQuarantined s f p reason 0) f false).hutch = (markQuarantined s f p reason 0).hutch :=
    hutch_of_erase { fields := true, arrivals := true } rfl (by simp)
  rw [hdone, hutch_complete, hlevel, markQuarantined, if_neg (by simp [hquar])]
  rfl

end

/-! ### QUARANTINE of a row or a command slot -/

theorem findCmd_applyAt {s : State} {q e : Nat} {c : Cmd} (h : findCmd s q e = some c) {waits : List Nat} (hwaits : waits ≠ [])
    (st : Nat) (res : List Word) :
    findCmd (applyAt s c waits st res) q e = some { c with phase := .applying, waits := waits, status := st, results := res } := by
  obtain ⟨rfl, rfl, -⟩ := findCmd_some s q e c h
  rw [applyAt, if_neg (by simpa using hwaits)]
  exact findCmd_modCmd h (fun d => { d with phase := .applying, waits := waits, status := st, results := res }) (fun _ => ⟨rfl, rfl⟩)

/-- R234, R252: the command waits for the seam of field `f`, in which `g` has noted what is due there. -/
theorem applyAt_waits {s : State} {q e : Nat} {c : Cmd} (h : findCmd s q e = some c) (f : Nat) (g : Field → Field) (st : Nat)
    (res : List Word) :
    ∃ d, findCmd (applyAt (modField s f g) c [f] st res) q e = some d ∧ d.phase = .applying ∧ d.waits = [f] ∧
      fieldOf (applyAt (modField s f g) c [f] st res) f = g (fieldOf s f) :=
  ⟨_, findCmd_applyAt (s := modField s f g) h (List.cons_ne_nil f []) st res, rfl, rfl, fieldOf_modField s f g⟩

theorem seamFields_loaded {s : State} {f : Nat} (h : fieldLoaded s f = true) : seamFields s [f] = [f] := by
  simp [seamFields, h]

section
variable {s : State} {c : Cmd} {f : Nat} (hload : fieldLoaded s f = true)
include hload

theorem quarantineRow_waits {p row : Nat} (hrows : (tileRec s (pa f p)).rows < 8) (hroom : s.hutch.img.rowList.length < 65536)
    (hnew : s.hutch.img.rowList.contains (pa f p, row) = false)
    (hdue : (fieldOf s f).rowsDue.any (fun d => d.1 == p && d.2.1 == row) = false) :
    ∃ res, quarantineRow s c f p row =
      applyAt (modField s f (fun x => { x with rowsDue := x.rowsDue ++ [(p, row, 0)] })) c [f] stOk res := by
  have hseam := seamFields_loaded (s := modField s f (fun x => { x with rowsDue := x.rowsDue ++ [(p, row, 0)] })) hload
  rw [quarantineRow]
  dsimp only
  rw [if_neg (by rw [hnew, hdue]; decide), if_neg (by omega), hseam]
  exact ⟨_, if_neg Bool.false_ne_true⟩

theorem quarantineSlot_waits {k : Nat} (hnew : s.hutch.img.badSlots.contains (f, k) = false) :
    ∃ res, quarantineSlot s c f k = applyAt (modField s f (fun x => { x with slotsDue := x.slotsDue ++ [k] })) c [f] stOk res := by
  have hseam := seamFields_loaded (s := modField s f (fun x => { x with slotsDue := x.slotsDue ++ [k] })) hload
  rw [quarantineSlot, if_neg (by rw [hnew]; decide)]
  dsimp only
  rw [hseam]
  exact ⟨_, if_neg Bool.false_ne_true⟩

end

/-! ### QUARANTINE of a sector or a phase -/

/-- R237, R345: a unit that is retired stands among the bad ones, whatever the ring's loss of it brings about. -/
theorem badSectors_retireUnit (s : State) (u source : Nat) : (retireUnit s u source).hutch.img.badSectors.contains u = true := by
  unfold retireUnit
  extract_lets listed swapped noted
  split
  next h => exact h
  next =>
    have hswapped : swapped.hutch.img.badSectors = listed.hutch.img.badSectors := by
      simp only [swapped]
      split
      · rfl
      · split <;> rfl
    have hlisted : noted.hutch.img.badSectors.contains u = true := by
      have hnoted : noted.hutch = swapped.hutch := rfl
      rw [hnoted, hswapped]
      simp [listed, modImg]
    have hfailed : (declareNorFailed noted 3 (u * 65536)).hutch = noted.hutch :=
      hutch_of_erase { cab := true, out := true, status := true, arrivals := true } rfl (by simp)
    split
    · rw [hfailed]
      exact hlisted
    · exact hlisted

/-- R239, R349: with phases left above the minimum, the phase is shed. -/
theorem badPhases_quarantinePhase {s : State} {z : Nat} (c : Cmd) (ph : Nat) (hleft : phasesLeft s z ≠ 0)
    (hmfr : s.arb.mfrOk.getD z true = true) : (quarantinePhase s c z ph).hutch.img.badPhases.contains (z, ph) = true := by
  unfold quarantinePhase
  extract_lets shed queued noted capped
  split
  next h => rw [hutch_complete, h]
  next =>
    have hcapped : capped.hutch = shed.hutch :=
      hutch_of_erase { arb := true, arrivals := true } rfl (by simp [capped, noted, queued])
    rw [if_neg (by rw [hmfr]; simp [hleft]), hutch_complete, hcapped]
    simp [shed, modImg]

/-! ### The row of QUARANTINE -/

/-- Table 3.10: a command whose reserved bits are clear and whose resource exists acts on it by its kind. -/
theorem quarantine_next {s : State} {q e kind : Nat} {c : Cmd} (hrun : runCmd s q e opQuarantine = some c) (hkind : c.f 4 0 4 = kind)
    (hres : reservedOk c [(3, 0xFFFFFF), (4, 0xF), (5, indexMask kind)] = true)
    (hok : resourceOk s kind (c.f 3 0 24) (c.w 5) = true) :
    exec (.quarantine q e) s =
      let f := taField (c.f 3 0 24)
      let p := taPlace (c.f 3 0 24)
      if kind = 0 then .next (quarantineTile s c f p 8)
      else if kind = 1 then .next (quarantineRow s c f p (c.w 5))
      else if kind = 2 then .next (quarantineLink s c f p (c.w 5))
      else if kind = 3 then
        .next (complete (retireUnit s (c.w 5) 0) c stOk [w32 0xFFFFFF, w32 (goodSectors (retireUnit s (c.w 5) 0)).length])
      else if kind = 4 then .next (quarantineSlot s c f (c.w 5))
      else .next (quarantinePhase s c (c.w 5 % 8) (c.w 5 / 2 ^ 8)) := by
  subst hkind
  rw [exec, execQuarantine, hrun, whenSome_some]
  exact if_neg (by simp [hres, hok])

theorem quarantineRows : Says.QuarantineRows := by
  intro s q e a c hrun ha
  subst ha
  obtain ⟨hfind, -, -⟩ := runCmd_some s q e opQuarantine c hrun
  refine ⟨fun hkind hres hphys => ?_, fun hkind hres hidx => ?_, fun hres hphys hload => ⟨?_, ?_⟩, ?_⟩
  · have hnext := quarantine_next hrun hkind hres (by simpa [resourceOk] using hphys)
    have hpa := pa_of_physicalOk hphys
    refine ⟨fun hquar => ?_, fun hquar hlent hbench hserves hreplay => ?_⟩
    · exact ⟨_, hnext.trans (congrArg _ (quarantineTile_again (by rwa [hpa]))), hutch_complete .., rfl⟩
    · obtain ⟨u, -, hrec⟩ := quarantineTile_spare (c := c) (reason := 8) (by rwa [hpa]) hlent hbench hserves hreplay
      rw [hpa] at hrec
      obtain ⟨hself, hother⟩ := hrec
      exact ⟨_, hnext, congrArg (·.quar) hself, congrArg (·.qreason) hself, hother⟩
  · refine ⟨_, quarantine_next hrun hkind hres (by simpa [resourceOk] using hidx), ?_⟩
    rw [hutch_complete]
    exact badSectors_retireUnit s (c.w 5) 0
  · intro hkind hidx hrows hroom hnew hdue
    have hpa := pa_of_physicalOk hphys
    obtain ⟨res, hwaits⟩ := quarantineRow_waits (c := c) hload (by rwa [hpa]) hroom (by rwa [hpa]) hdue
    obtain ⟨d, hd, hphase, hfields, hfield⟩ := applyAt_waits hfind (taField (c.f 3 0 24))
      (fun x => { x with rowsDue := x.rowsDue ++ [(taPlace (c.f 3 0 24), c.w 5, 0)] }) stOk res
    refine ⟨_, d, quarantine_next hrun hkind hres (by simpa [resourceOk, hphys] using hidx), ?_⟩
    rw [hwaits]
    exact ⟨hd, hphase, hfields, congrArg (·.rowsDue) hfield⟩
  · intro hkind hidx hnew
    obtain ⟨res, hwaits⟩ := quarantineSlot_waits (c := c) hload hnew
    obtain ⟨d, hd, hphase, hfields, hfield⟩ := applyAt_waits hfind (taField (c.f 3 0 24))
      (fun x => { x with slotsDue := x.slotsDue ++ [c.w 5] }) stOk res
    refine ⟨_, d, quarantine_next hrun hkind hres (by simpa [resourceOk, hphys] using hidx), ?_⟩
    rw [hwaits]
    exact ⟨hd, hphase, hfields, congrArg (·.slotsDue) hfield⟩
  · intro z ph hkind hres hz hph hin hleft hmfr
    subst hz hph
    exact ⟨_, quarantine_next hrun hkind hres (by simpa [resourceOk] using hin), badPhases_quarantinePhase c _ hleft hmfr⟩

/-! ### RELEASE -/

/-- R253: the record of a tile that comes back. -/
def releasedRec (r : TileRec) : TileRec :=
  { r with quar := false, suspect := true, passes := 0, qreason := 0, routerFault := false }

/-- R253: a tile out of the Bench comes back, and the spare level of its field follows. -/
def tileReleased (s : State) (c : Cmd) (f p : Nat) : State :=
  let u := settleLevel (releaseTile s f p) f false
  complete u c stOk [w32 (lendableCount u f)]

theorem recordChanged_tileReleased (s : State) (c : Cmd) (f p : Nat) :
    RecordChanged s (pa f p) releasedRec (tileReleased s c f p) := by
  have hreleased : (releaseTile s f p).hutch = (modTileRec s (pa f p) releasedRec).hutch := by
    unfold releaseTile
    extract_lets a reason marked queued
    change _ = marked.hutch
    exact hutch_of_erase { fields := true, sched := true, arrivals := true } rfl (by simp [queued])
  refine recordChanged_of_hutch (Eq.trans ?_ hreleased)
  exact hutch_of_erase { fe := true, fields := true, arrivals := true, out := true } rfl (by simp [tileReleased])

theorem release_tile {s : State} {q e : Nat} {c : Cmd} (hrun : runCmd s q e opRelease = some c) (hkind : c.f 4 0 4 = 0)
    (hres : reservedOk c [(3, 0xFFFFFF), (4, 0xF), (5, 0)] = true) (hphys : physicalOk (c.f 3 0 24) = true) :
    exec (.release q e) s =
      let f := taField (c.f 3 0 24)
      let p := taPlace (c.f 3 0 24)
      if !(tileRec s (c.f 3 0 24)).quar then .next (complete s c stBadParam [])
      else if inBench (fieldOf s f) p then
        .next (background (modField s f (fun x => { x with releaseDue := x.releaseDue ++ [(p, q, e)] })) c)
      else .next (tileReleased s c f p) := by
  rw [exec, execRelease, hrun, whenSome_some]
  dsimp only
  rw [hkind, if_neg (by simpa [resourceOk, hphys, indexMask] using hres)]
  rfl

theorem releaseRows : Says.ReleaseRows := by
  intro s q e a c hrun ha hkind hres hphys
  subst ha
  have hnext := release_tile hrun hkind hres hphys
  refine ⟨fun hquar => hnext.trans (if_pos (by simp [hquar])), fun hquar hbench => ?_⟩
  have hrec := recordChanged_tileReleased s c (taField (c.f 3 0 24)) (taPlace (c.f 3 0 24))
  rw [pa_of_physicalOk hphys] at hrec
  obtain ⟨hself, hother⟩ := hrec
  exact ⟨_, (hnext.trans (if_neg (by simp [hquar]))).trans (if_neg (by simp [hbench])), congrArg (·.quar) hself,
    congrArg (·.suspect) hself, congrArg (·.passes) hself, hother⟩

/-- Settles O21: each kind by what it leaves in the Hutch or notes in its field; that an idle spare is answered ST_OK stands in
`quarantineTile_spare`. -/
theorem quarantineAndRelease : Obligations.QuarantineAndRelease := ⟨quarantineRows, releaseRows⟩

end Sys2Proof.Machine
end

section
/-! SUPPORT. What a lost step and a stop of the wardens leave of a field, and the heartbeats, resets and restarts of the wardens (R32, R171,
R270, R301 to R303). -/

namespace Sys2Proof.Machine

/-! ### What a lost step and a stop of the wardens leave of a field -/

section
variable {α : Type} {π : Field → α}

/-- R171: a lost step writes nothing of a field but its counters and the cause of the loss. -/
theorem fieldView_lostStep (s : State) (f trigger outcome : Nat) (cross : Bool) (tiles spare hold : Nat) (detail : Dword) (cause : Nat)
    (hπ : ∀ x c l, π { x with cnt := c, lostCause := l } = π x) :
    fieldView π (lostStep s f trigger outcome cross tiles spare hold detail cause) = fieldView π s := by
  unfold lostStep loseWith resetForLoss
  extract_lets u v w
  have hu : fieldView π u = fieldView π s := fieldView_countField s f _ fun x c => hπ x c x.lostCause
  have hw : fieldView π w = fieldView π s := by
    rw [fieldView_holdPartition, fieldView_modField f _ (hπ _ (fieldOf _ f).cnt _), fieldView_emitWords, hu]
  split
  · rw [fieldView_autoReset, hw]
  · rw [fieldView_autoReset, hw]

theorem fieldView_modFields (s : State) (fs : List Nat) (g : Field → Field) (h : ∀ x, π (g x) = π x) :
    fieldView π (modFields s fs g) = fieldView π s := fieldView_foldl _ (fun _ f => fieldView_modField f _ (h _)) fs s

end

/-- R302: a field whose warden stops. -/
def stoppedField (x : Field) : Field :=
  { x with warden := if x.warden = .off then .off else .inReset, beats := 0, latched := none, link := [] }

/-- R302: a replay that is lost touches nothing of a field but its counters and the cause of the loss. -/
theorem fieldView_stopWardens {α : Type} {π : Field → α} (s : State) (fs : List Nat)
    (hπ : ∀ x c l, π { x with cnt := c, lostCause := l } = π x) :
    fieldView π (stopWardens s fs) = fieldView π (modFields s fs stoppedField) := by
  refine fieldView_foldl _ (fun u g => ?_) (fs.filter (groupRuns s)) _
  split
  · exact fieldView_lostStep u g _ _ _ _ _ _ _ _ hπ
  · exact fieldView_autoReset u _ _ _

/-- R302: where no replay runs, the wardens that stop are all that changes. -/
theorem stopWardens_of_noReplay {s : State} {fs : List Nat} (h : fs.filter (groupRuns s) = []) :
    stopWardens s fs = modFields s fs stoppedField := by
  rw [stopWardens, h]
  rfl

/-! ### A warden is reset -/

theorem mem_wardenPair (f : Nat) : f ∈ wardenPair f := by
  unfold wardenPair
  split <;> simp

theorem fields_resetWarden (s : State) (f : Nat) : (resetWarden s f).fields = (stopWardens s (wardenPair f)).fields := rfl

/-- R302: each warden of the pair that has power goes into reset. -/
theorem warden_resetWarden {s : State} {f g : Nat} (hg : g ∈ wardenPair f) (hon : (fieldOf s g).warden ≠ .off) :
    (fieldOf (resetWarden s f) g).warden = .inReset := by
  rw [fieldOf_of_fields (fields_resetWarden s f)]
  rw [read_of_fieldView (π := (·.warden)) (fieldView_stopWardens s (wardenPair f) fun _ _ _ => rfl) g]
  have hoff : decide ((fieldOf (modFields s (wardenPair f) stoppedField) g).warden = .off) = decide ((fieldOf s g).warden = .off) :=
    read_of_fieldView (fieldView_modFields s _ stoppedField (π := fun x => decide (x.warden = .off)) fun x => by
      by_cases h : x.warden = .off <;> simp [stoppedField, h]) g
  have hstop := fieldOf_modFields_mem (fun x => x.warden = .off ∨ x.warden = .inReset) s (h := stoppedField) (fun x => by
    by_cases h : x.warden = .off <;> simp [stoppedField, h]) hg
  exact hstop.resolve_left (by simpa [hon] using hoff)

theorem starts_resetWarden (s : State) (f g : Nat) : (fieldOf (resetWarden s f) g).starts = (fieldOf s g).starts := by
  have h : fieldView (·.starts) (stopWardens s (wardenPair f)) = fieldView (·.starts) s :=
    (fieldView_stopWardens s (wardenPair f) fun _ _ _ => rfl).trans (fieldView_modFields s _ stoppedField fun _ => rfl)
  rw [fieldOf_of_fields (fields_resetWarden s f)]
  exact read_of_fieldView h g

/-- R302: without a replay to lose, the reset reaches no field outside the pair. -/
theorem fieldOf_resetWarden_other {s : State} {f g : Nat} (h : (wardenPair f).filter (groupRuns s) = []) (hg : g ∉ wardenPair f) :
    fieldOf (resetWarden s f) g = fieldOf s g := by
  rw [fieldOf_of_fields (fields_resetWarden s f), stopWardens_of_noReplay h]
  exact fieldOf_modFields_other s _ hg

/-! ### Heartbeats -/

section
variable {s : State} {f : Nat} (hf : f < 84) (hw : WardenReads s f)
include hf hw

theorem wardenHeartbeat_next :
    exec (.wardenHeartbeat f) s = .next (setField s f { fieldOf s f with wardenTs := s.now, beats := 0 }) := by
  rw [exec, execWardenHeartbeat, if_neg (Nat.not_le.mpr hf), hw.clocked, hw.up]
  rfl

/-- R302: a miss is counted up to the third in a row; the fourth resets the warden. -/
theorem wardenHeartbeatMiss_next (hfw : s.hang.fwUp = true) : exec (.wardenHeartbeatMiss f) s =
    .next (if (fieldOf s f).beats < 3 then modField s f (fun x => { x with beats := x.beats + 1 }) else resetWarden s f) := by
  rw [exec, execWardenHeartbeatMiss, if_neg (Nat.not_le.mpr hf), hw.clocked, hw.up, hfw]
  rfl

end

/-! ### Restarts -/

/-- R303: a failed restart is counted. -/
def restartFailed (s : State) (f : Nat) : State := modField s f (fun x => { x with starts := min 3 (x.starts + 1) })

/-- R302: the hub restarts the field's warden. -/
structure WardenRestarts (s : State) (f : Nat) : Prop where
  clocked : clocked s = true
  fwUp : s.hang.fwUp = true
  inReset : (fieldOf s f).warden = .inReset

section
variable {s : State} {f : Nat} (hf : f < 84) (hw : WardenRestarts s f)
include hf hw

theorem wardenRestartDone_next (hp : partnerOn s f = true) : exec (.wardenRestartDone f) s =
    .next (modField s f (fun x => { x with
      warden := .up, beats := 0, starts := 0, wardenTs := s.now, lateLatch := !x.guardPins.isEmpty || !x.routerPins.isEmpty })) := by
  rw [exec, execWardenRestartDone, if_neg (Nat.not_le.mpr hf), hw.clocked, hw.inReset, hw.fwUp, hp]
  rfl

theorem wardenRestartTimeout_next : exec (.wardenRestartTimeout f) s =
    .next (if min 3 ((fieldOf s f).starts + 1) = 3 then wantCycle (restartFailed s f) 4 else resetWarden (restartFailed s f) f) := by
  rw [exec, execWardenRestartTimeout, if_neg (Nat.not_le.mpr hf), hw.clocked, hw.inReset, hw.fwUp]
  dsimp only
  rw [fieldOf_modField]
  rfl

/-- R303: the first two failed restarts in a row reset the warden again. -/
theorem wardenRestartTimeout_again (hs : (fieldOf s f).starts < 2) :
    ∃ t, exec (.wardenRestartTimeout f) s = .next t ∧ (fieldOf t f).starts = (fieldOf s f).starts + 1 ∧
      (fieldOf t f).warden = .inReset := by
  have hfew : min 3 ((fieldOf s f).starts + 1) ≠ 3 := by omega
  have hin : (fieldOf (restartFailed s f) f).warden = .inReset := by
    rw [restartFailed, fieldOf_modField]
    exact hw.inReset
  refine ⟨_, (wardenRestartTimeout_next hf hw).trans (congrArg _ (if_neg hfew)), ?_,
    warden_resetWarden (mem_wardenPair f) (hin.trans_ne (by decide))⟩
  rw [starts_resetWarden, restartFailed, fieldOf_modField]
  exact Nat.min_eq_right (by omega)

/-- R303, R307: the third asks for a CYCLE. -/
theorem wardenRestartTimeout_third (hs : 2 ≤ (fieldOf s f).starts) (hlow : s.tray.pwrcycLow = false) (hwant : s.hang.cycleWant = none) :
    ∃ t, exec (.wardenRestartTimeout f) s = .next t ∧ t.hang.cycleWant = some 4 ∧ (fieldOf t f).starts = 3 := by
  have h3 : min 3 ((fieldOf s f).starts + 1) = 3 := by omega
  have hcycle := wantCycle_eq (s := restartFailed s f) hlow hwant 4
  refine ⟨_, (wardenRestartTimeout_next hf hw).trans (congrArg _ ((if_pos h3).trans hcycle)), rfl, ?_⟩
  change (fieldOf (restartFailed s f) f).starts = 3
  rw [restartFailed, fieldOf_modField]
  exact h3

end

/-- Settles O40: each row by the state that it answers; a reset warden by what a stop leaves of its field. -/
theorem wardenRows : Obligations.WardenRows := by
  intro s f hf hc
  refine ⟨fun hup => wardenHeartbeat_next hf ⟨hc, hup⟩, fun hup hfw hbeats => ?_, fun hup hfw hbeats => ?_, fun hin hfw hp => ?_,
    fun hin hfw => ⟨wardenRestartTimeout_again hf ⟨hc, hfw, hin⟩, wardenRestartTimeout_third hf ⟨hc, hfw, hin⟩⟩⟩
  · exact (wardenHeartbeatMiss_next hf ⟨hc, hup⟩ hfw).trans (congrArg _ (if_pos hbeats))
  · exact ⟨_, (wardenHeartbeatMiss_next hf ⟨hc, hup⟩ hfw).trans (congrArg _ (if_neg (by omega))),
      warden_resetWarden (mem_wardenPair f) (by simp [hup]), fun g hg => warden_resetWarden hg,
      fun hgroups g => fieldOf_resetWarden_other hgroups⟩
  · refine ⟨_, wardenRestartDone_next hf ⟨hc, hfw, hin⟩ hp, ?_, ?_, ?_, fun g => fieldOf_modField_other s f g _⟩
    · rw [fieldOf_modField]
    · rw [fieldOf_modField]
    · rw [fieldOf_modField]

end Sys2Proof.Machine
end

section
/-! SUPPORT. The end of a field's storm record, the merge of closed storms, and signatures (R274 to R276, R278). -/

namespace Sys2Proof.Machine

/-! ### The end of a storm record -/

/-- R275: the record that goes on with a storm after 100 ms. -/
def stormGoesOn (s : State) (f : Nat) (m : Storm) : Storm :=
  { noStorm with start := s.now, continued := true, first := m.first, lastRise := m.lastRise, seam0 := (fieldOf s f).seam + 1 }

/-- R275: the field's record is closed with the counts of the ring walk, and `next` takes its place. -/
def stormClosed (s : State) (f : Nat) (m : Storm) (next : Option Storm) : State :=
  { setField s f { fieldOf s f with storm := next } with
    storms := s.storms ++ [(f, { m with stopped := s.now, counts := walkCounts s f m })] }

theorem storm_stormClosed (s : State) (f : Nat) (m : Storm) (next : Option Storm) :
    (fieldOf (stormClosed s f m next) f).storm = next := congrArg (·.storm) (fieldOf_setField s f _)

section
variable {s : State} {f : Nat} {m : Storm} (hf : f < 84) (hc : clocked s = true) (hm : (fieldOf s f).storm = some m)
  (hep : (fieldOf s f).episode = none)
include hf hc hm hep

/-- R275: a record closes once it has been open for 100 ms, and then goes on; or once no pin has stood or risen for 1 ms. -/
theorem stormClose_next (hends : m.start + 100000000 ≤ s.now ∨
      m.lastRise + 1000000 ≤ s.now ∧ (fieldOf s f).guardPins = [] ∧ (fieldOf s f).routerPins = []) :
    exec (.stormClose f) s =
      .next (stormClosed s f m (if m.start + 100000000 ≤ s.now then some (stormGoesOn s f m) else none)) := by
  have hopen : (clocked s && !(inStorm (fieldOf s f) && !epReleased (fieldOf s f))) = true := by simp [hc, inStorm, hep]
  rw [exec, execStormClose, if_neg (Nat.not_le.mpr hf)]
  dsimp only
  rw [if_pos hopen, hm, whenSome_some, if_neg ?ends]
  case ends =>
    rcases hends with hold | ⟨hrise, hg, hr⟩
    · simp [hold]
    · simp [hrise, hg, hr]
  simp only [decide_eq_true_eq]
  rfl

end

/-! ### The merge of closed storms -/

/-- R276: the earliest of the storms that wait is one of those that are merged. -/
theorem mergedStorms_ne_nil {s : State} (h : s.storms ≠ []) : mergedStorms s ≠ [] := by
  obtain ⟨e, r, he⟩ := List.exists_cons_of_ne_nil h
  have hmin : r.foldl (fun m d => min m d.2.start) e.2.start ∈ s.storms.map (·.2.start) := by
    rw [he, List.map_cons, ← List.foldl_map (f := fun d : Nat × Storm => d.2.start) (g := min)]
    exact List.min?_mem List.min?_cons'
  obtain ⟨d, hd, hstart⟩ := List.mem_map.mp hmin
  refine List.ne_nil_of_mem (a := d) ?_
  unfold mergedStorms
  rw [he] at hd ⊢
  exact List.mem_filter.mpr ⟨hd, by simp [hstart]⟩

/-- R276: EV_STORM of the merged storms is handed to the Cabinet. -/
theorem stormMergeCommit_next {s : State} (hc : clocked s = true) (h : s.storms ≠ []) (hw : mergeWaits s = false) :
    exec .stormMergeCommit s =
      .next (emitWords { s with storms := s.storms.filter (fun e => !(mergedStorms s).contains e) } evStorm none
        (stormWords (mergedStorms s) ((mergedStorms s).foldl (fun m e => max m e.2.stopped) 0))) := by
  rw [exec, execStormMergeCommit, hc, hw, List.isEmpty_eq_false_iff.mpr (mergedStorms_ne_nil h)]
  rfl

/-! ### Signatures -/

/-- R278: the oldest finding takes the next signature number, which the Hutch keeps. -/
theorem signatureSigned_next {s : State} (hc : clocked s = true) (hfw : s.hang.fwUp = true) {fd : Finding} {rest : List Finding}
    (hq : s.sig.queue = fd :: rest) : ∃ t, exec .signatureSigned s = .next t ∧ t.sig.queue = rest ∧
      t.sig.lastSig = some s.hutch.img.nextSig ∧ t.hutch.img.nextSig = s.hutch.img.nextSig + 1 := by
  rw [exec, execSignatureSigned, hq, hc, hfw]
  exact ⟨_, rfl, rfl, rfl, rfl⟩

end Sys2Proof.Machine
end

section
/-! SUPPORT. A droop marks the running step (R169, R366, R367, R371). -/

namespace Sys2Proof.Machine

theorem run_addSource (s : State) (f : Nat) (d : SourceDetail) (more : Nat) :
    fieldView (·.run) (addSource s f d more) = fieldView (·.run) s := by
  unfold addSource
  dsimp only
  split
  · exact (fieldView_wring _ f 3 _ fun _ _ => rfl).trans (fieldView_setField f _ rfl)
  · exact fieldView_setField f _ rfl

theorem run_latchLevel (s : State) (f cls tile master access : Nat) (loc : Word) (detail : Dword) :
    fieldView (·.run) (latchLevel s f cls tile master access loc detail) = fieldView (·.run) s := by
  unfold latchLevel
  split
  · exact run_addSource s f _ 0
  · rfl

theorem run_openStorm (s : State) (f n : Nat) (droop : Bool) : fieldView (·.run) (openStorm s f n droop) = fieldView (·.run) s := by
  unfold openStorm
  dsimp only
  split
  · rfl
  · split <;> exact fieldView_setField f _ rfl

theorem run_emitDroop (s : State) (f mv : Nat) : fieldView (·.run) (emitDroop s f mv) = fieldView (·.run) s := by
  unfold emitDroop
  dsimp only
  split
  · exact fieldView_setField f _ rfl
  · exact (fieldView_emitWords _ _ _ _).trans (fieldView_setField f _ rfl)

/-- R367: the abort of a change of frequency leaves the step as it stands. -/
theorem droop_abortChange (s : State) (f : Nat) : fieldView (·.droop) (abortChange s f) = fieldView (·.droop) s := by
  have hcancel (u : State) : fieldView (·.droop) (cancelVcore u f) = fieldView (·.droop) u := rfl
  have hqueue (u : State) (mv : Nat) : fieldView (·.droop) (queueVcore u f mv) = fieldView (·.droop) u := rfl
  unfold abortChange
  dsimp only
  split
  · rfl
  · split
    · rfl
    · rw [fieldView_emitWords]
      split
      · rw [fieldView_ite, hqueue, ite_self, fieldView_modField f _ rfl, hcancel]
      · rw [fieldView_ite, hqueue, ite_self, fieldView_modField f _ rfl, hcancel]

/-- R169: a recall writes nothing of a field but the sampled headers, their ring entry and the fields sent to. -/
theorem fieldView_recallExport {α : Type} {π : Field → α}
    (hπ : ∀ x h c r, π { x with headers := h, crossSent := c, ring := r } = π x)
    (s : State) (f t cycle : Nat) (r : Nat × Nat × List Word) : fieldView π (recallExport s f t cycle r) = fieldView π s := by
  have hcross (u : State) (log : Nat) : fieldView π (noteCross u f log) = fieldView π u := by
    unfold noteCross
    split
    · rfl
    · exact fieldView_modField f _ (hπ _ (fieldOf u f).headers _ (fieldOf u f).ring)
  have hheader (u : State) (h : List Word) : fieldView π (sampleHeader u f h) = fieldView π u := by
    have hset (n : Nat) : fieldView π (setField u f { fieldOf u f with headers := n }) = fieldView π u :=
      fieldView_setField f _ (hπ _ _ (fieldOf u f).crossSent (fieldOf u f).ring)
    unfold sampleHeader
    dsimp only
    split
    · exact (fieldView_wring _ f 11 _ fun x r => hπ x x.headers x.crossSent r).trans (hset 0)
    · exact hset _
  unfold recallExport
  split
  · rfl
  · rw [hcross, hheader, fieldView_drive]

theorem fieldView_recallAll {α : Type} {π : Field → α}
    (hπ : ∀ x h c r, π { x with headers := h, crossSent := c, ring := r } = π x)
    (l : List (Nat × Guard)) (s : State) (f cycle : Nat) :
    fieldView π (l.foldl (fun s e => e.2.recent.foldl (fun s r => recallExport s f e.1 cycle r) s) s) = fieldView π s := by
  refine fieldView_foldl _ (fun u e => fieldView_foldl _ (fun v r => ?_) _ u) l s
  exact fieldView_recallExport hπ v f e.1 cycle r

theorem run_droopSignal (s : State) (f cycle : Nat) : fieldView (·.run) (droopSignal s f cycle) = fieldView (·.run) s := by
  unfold droopSignal
  dsimp only
  split
  · rfl
  · exact (fieldView_recallAll (fun _ _ _ _ => rfl) _ _ f cycle).trans (fieldView_setField f _ rfl)

/-- R169: the running step counts as failed. -/
theorem droop_droopSignal {s : State} {f : Nat} (h : (fieldOf s f).run = .running) (cycle : Nat) :
    (fieldOf (droopSignal s f cycle) f).droop = true := by
  unfold droopSignal
  dsimp only
  split
  case isTrue hd => exact hd.resolve_left (not_not_intro h)
  case isFalse =>
    rw [read_of_fieldView (π := (·.droop)) (fieldView_recallAll (fun _ _ _ _ => rfl) _ _ f cycle) f, fieldOf_setField]

/-- R273: a storm takes the step's failure, not its run. -/
theorem run_stormCheck (s : State) (f n cycle : Nat) (droop : Bool) :
    fieldView (·.run) (stormCheck s f n cycle droop) = fieldView (·.run) s := by
  unfold stormCheck
  dsimp only
  split_ifs
  · exact run_openStorm s f n droop
  · rw [run_droopSignal, run_openStorm]
  · rfl

/-- R273, R371: the droop is latched as a source, opens a storm and is reported. -/
def droopReported (s : State) (f mv cycle : Nat) : State :=
  let u := latchLevel s f 8 (fieldAddr f) 9 10 0 0
  emitDroop (stormCheck u f ((fieldOf s f).guardPins.length + (fieldOf s f).routerPins.length) cycle true) f mv

theorem run_droopReported (s : State) (f mv cycle : Nat) : fieldView (·.run) (droopReported s f mv cycle) = fieldView (·.run) s := by
  rw [droopReported, run_emitDroop, run_stormCheck, run_latchLevel]

/-- R368: the Bench tests that the droop struck. -/
def benchDrooped (x : Field) : Field :=
  { x with bench := x.bench.map (fun e => (e.1, { e.2 with drooped := e.2.drooped || e.2.admitted })) }

theorem droopDetect_next {s : State} {f : Nat} (hf : f < 84) (hc : clocked s = true) (hz : (fieldOf s f).zoneDown = false)
    (hup : (fieldOf s f).warden = .up) (hr : epReleased (fieldOf s f) = false) (mv cycle : Nat) :
    exec (.droopDetect f mv cycle) s =
      .next (abortChange (modField (droopSignal (droopReported s f mv cycle) f cycle) f benchDrooped) f) := by
  rw [exec, execDroopDetect, if_neg (Nat.not_le.mpr hf)]
  dsimp only
  rw [hc, hz, hup, hr]
  rfl

theorem droopDetect_marks {s : State} {f : Nat} (hf : f < 84) (hc : clocked s = true) (hz : (fieldOf s f).zoneDown = false)
    (hup : (fieldOf s f).warden = .up) (hr : epReleased (fieldOf s f) = false) (hrun : (fieldOf s f).run = .running) (mv cycle : Nat) :
    ∃ t, exec (.droopDetect f mv cycle) s = .next t ∧ (fieldOf t f).droop = true := by
  have hreported : (fieldOf (droopReported s f mv cycle) f).run = .running :=
    (read_of_fieldView (π := (·.run)) (run_droopReported s f mv cycle) f).trans hrun
  refine ⟨_, droopDetect_next hf hc hz hup hr mv cycle, ?_⟩
  rw [read_of_fieldView (π := (·.droop)) (droop_abortChange _ f) f, fieldOf_modField]
  dsimp only [benchDrooped]
  exact droop_droopSignal hreported cycle

/-! ### The rows together -/

/-- R169, R274 to R276, R278, R366: the storm records, the merge, the signatures and the droop together. -/
theorem stormsAndSignatures : Says.StormsAndSignatures := by
  intro s hc
  refine ⟨fun f m hf hm hep => ⟨fun hnew hrise hg hr => ?_, fun hold => ?_⟩, fun h hw => ⟨_, stormMergeCommit_next hc h hw, rfl⟩,
    fun fd rest hfw hq => signatureSigned_next hc hfw hq,
    fun f mv cyc hf hz hup hr hrun => droopDetect_marks hf hc hz hup hr hrun mv cyc⟩
  · exact ⟨_, stormClose_next hf hc hm hep (.inr ⟨hrise, hg, hr⟩),
      (storm_stormClosed s f m _).trans (if_neg (Nat.not_le.mpr hnew)), rfl⟩
  · exact ⟨_, stormGoesOn s f m, stormClose_next hf hc hm hep (.inl hold),
      (storm_stormClosed s f m _).trans (if_pos hold), rfl, rfl, rfl⟩

end Sys2Proof.Machine
end

section
/-! SUPPORT. Corrected and uncorrectable errors of SRAM rows (R234, R263, R272). -/

namespace Sys2Proof.Machine

/-! ### Corrected errors -/

theorem countOf_other (s : State) (a : Nat) (g : TileCount → TileCount) : ∃ tiles, countOf s a g = { s with tiles := tiles } := by
  unfold countOf countTile
  split
  · split
    · exact ⟨_, rfl⟩
    · exact ⟨_, rfl⟩
  · exact ⟨_, rfl⟩

/-- R427: the tile's ring shows the corrected error. -/
abbrev corrected (s : State) (a row bit : Nat) : State := gring s a 7 row 0 (BitVec.ofNat 64 bit)

/-- R234: the first correction in a tile is noted against its row; nothing is retired. -/
theorem eccCorrectedNotice_first {s : State} {a row bit : Nat} (ha : physicalOk a = true) (hrow : row < 1024) (hbit : bit < 512)
    (hfeed : s.feed = true) (hfirst : (guardOf s a).rowUses = []) :
    ∃ tiles, exec (.eccCorrectedNotice a row bit) s =
      .next (modGuard { corrected s a row bit with tiles := tiles } a (fun g => { g with rowUses := [(row, s.cab.opTime)] })) := by
  obtain ⟨tiles, ht⟩ := countOf_other (corrected s a row bit) a (fun c => { c with eccCorr := sat32 (c.eccCorr + 1) })
  have huses : (guardOf { corrected s a row bit with tiles := tiles } a).rowUses = [] :=
    (read_of_guardView (π := (·.rowUses)) (guardView_gring s a _ _ _ _ fun _ _ => rfl) a).trans hfirst
  refine ⟨tiles, ?_⟩
  rw [exec, execEccCorrectedNotice, if_neg (by simp [ha]; omega), if_neg (by simp [hfeed])]
  dsimp only
  rw [ht, huses, if_pos (by simp)]
  rfl

/-! ### What an uncorrectable error leaves of fields and guards -/

section
variable {α : Type} {π : Field → α} (hπ : ∀ x p m l, π { x with guardPins := p, storm := m, failed := l } = π x)
include hπ

theorem fieldView_latchFailure (s : State) (a cls : Nat) (w : Dword) (instr : Nat) :
    fieldView π (latchFailure s a cls w instr) = fieldView π s := by
  unfold latchFailure
  split
  · rfl
  · dsimp only
    split
    · rfl
    · exact fieldView_modField _ _ (hπ _ _ _ (fieldOf _ _).failed)

theorem fieldView_raiseSram (s : State) (a cls loc : Nat) : fieldView π (raiseSram s a cls loc) = fieldView π s := by
  unfold raiseSram
  extract_lets shut u
  have hu : fieldView π u = fieldView π s := fieldView_latchFailure hπ s a cls _ loc
  split
  · split
    · exact (fieldView_modField _ _ (hπ _ (fieldOf _ _).guardPins (fieldOf _ _).storm _)).trans hu
    · exact hu
  · exact hu

theorem fieldView_noteFailed (s : State) (f a : Nat) : fieldView π (noteFailed s f a) = fieldView π s := by
  unfold noteFailed
  split
  · rfl
  · exact fieldView_modField f _ (hπ _ (fieldOf s f).guardPins (fieldOf s f).storm _)

end

/-- R26, R272: an uncorrectable error leaves the gate shut. -/
theorem raiseSram_shuts (s : State) (a cls loc : Nat) : (guardOf (raiseSram s a cls loc) a).gateShut = true := by
  unfold raiseSram
  extract_lets shut u
  have hu : (guardOf u a).gateShut = true := latchFailure_shuts s a cls _ loc
  split
  · split
    · rw [guardOf_of_guards (modField_guards _ _ _), guardOf_modGuard]
      exact hu
    · exact hu
  · exact hu

theorem servesProgram_of_placing {s t : State} (hp : t.parts = s.parts) (h : fieldView placing t = fieldView placing s) (a : Nat) :
    servesProgram t a = servesProgram s a := by
  rw [servesProgram, logOf_of_placing h, fieldLoaded, fieldPart, hp]
  rfl

/-- A tile that an error strikes goes on to serve its program. -/
theorem servesProgram_raiseSram (s : State) (a cls loc : Nat) : servesProgram (raiseSram s a cls loc) a = servesProgram s a :=
  servesProgram_of_placing (parts_of_erase { free := true, fields := true, guards := true } rfl (by simp))
    (fieldView_raiseSram (fun _ _ _ _ => rfl) s a cls loc) a

/-! ### A row is retired at the next seam -/

/-- R234: a row of the tile waits for its retirement at the field's next seam. -/
def rowDue (s : State) (a row : Nat) : Bool :=
  (fieldOf s (taField a)).rowsDue.any (fun e => e.1 == taPlace a && e.2.1 == row)

theorem rowDue_of_rowsDue {s t : State} (h : fieldView (·.rowsDue) t = fieldView (·.rowsDue) s) (a row : Nat) :
    rowDue t a row = rowDue s a row := by
  rw [rowDue, read_of_fieldView (π := (·.rowsDue)) h, rowDue]

theorem rowDue_retireAtSeam (s : State) (a row : Nat) : rowDue (retireAtSeam s a row) a row = true := by
  rw [rowDue, retireAtSeam, fieldOf_modField]
  dsimp only
  split
  case isTrue h => exact h
  case isFalse => simp

/-! ### Uncorrectable errors -/

/-- R272: the tile's ring shows the error, which shuts its gate and loses the step. -/
def sramLost (s : State) (a row b : Nat) : State := raiseSram (gring s a 8 row 0 (BitVec.ofNat 64 b)) a clsSramLost b

/-- R234, R272: a row that has no start-of-step content in the undo area loses the step, and is retired at the next seam. -/
theorem eccUncorrectable_lost {s : State} {a row : Nat} (ha : physicalOk a = true) (hrow : row < 1024) (hx : execOf s a = some .original)
    (hs : servesProgram s a = true) (hundo : (guardOf s a).undo.any (fun e => e.1 == row) = false) (b : Nat) :
    exec (.eccUncorrectable a row b false) s = .next (retireAtSeam (sramLost s a row b) a row) := by
  have hcls : sramClass s a row false = clsSramLost := by simp [sramClass, hundo]
  have hserves : servesProgram (sramLost s a row b) a = true := (servesProgram_raiseSram _ a _ b).trans hs
  have hworn : sramWorn (sramLost s a row b) a row clsSramLost false = retireAtSeam (sramLost s a row b) a row := by
    rw [sramWorn, if_neg (by simp), if_neg (by decide), retireWorn, hserves]
    rfl
  rw [exec, execEccUncorrectable, if_neg (by simp [ha]; omega), hx, whenSome_some]
  dsimp only
  rw [hcls]
  exact congrArg _ hworn

/-- R272: the step that the scrubber loses, at the seam of a step that runs. -/
def scrubLost (s : State) (a row : Nat) : State :=
  if (fieldOf s (taField a)).run = .running then noteFailed (raiseSram s a clsScrub (row * 64)) (taField a) a
  else if (fieldOf s (taField a)).lostCause.isSome then s
  else lostStep s (taField a) 0 3 false 1 0xFFFFFF 0 0 4

theorem rowsDue_scrubLost (s : State) (a row : Nat) : fieldView (·.rowsDue) (scrubLost s a row) = fieldView (·.rowsDue) s := by
  unfold scrubLost
  split_ifs
  · rw [fieldView_noteFailed fun _ _ _ _ => rfl, fieldView_raiseSram fun _ _ _ _ => rfl]
  · rfl
  · exact fieldView_lostStep s _ _ _ _ _ _ _ _ _ fun _ _ _ => rfl

theorem scrubUncorrectable_serving {s : State} {a row : Nat} (ha : physicalOk a = true) (hrow : row < 1024) (hfeed : s.feed = true)
    (hs : servesProgram s a = true) : exec (.scrubUncorrectable a row) s =
      .next (scrubLost (retireAtSeam (gring s a 8 row 0 (BitVec.ofNat 64 (row * 64))) a row) a row) := by
  have hserves : servesProgram (gring s a 8 row 0 (BitVec.ofNat 64 (row * 64))) a = true := hs
  rw [exec, execScrubUncorrectable, if_neg (by simp [ha]; omega), if_neg (by simp [hfeed])]
  dsimp only
  rw [hserves, if_neg (by simp), scrubLost]
  split_ifs <;> rfl

theorem eccRows : Says.EccRows := by
  intro s a row ha hrow hc
  have hfeed : s.feed = true := (Bool.and_eq_true_iff.mp hc).1
  refine ⟨fun bit hbit hfirst => ?_, fun b hx hs hundo => ?_, fun hs => ?_⟩
  · obtain ⟨tiles, hnext⟩ := eccCorrectedNotice_first ha hrow hbit hfeed hfirst
    refine ⟨_, hnext, ?_, rfl, rfl, rfl⟩
    rw [guardOf_modGuard]
  · refine ⟨_, eccUncorrectable_lost ha hrow hx hs hundo b, ?_, rowDue_retireAtSeam _ a row⟩
    exact raiseSram_shuts _ a _ b
  · exact ⟨_, scrubUncorrectable_serving ha hrow hfeed hs, (rowDue_of_rowsDue (rowsDue_scrubLost _ a row) a row).trans
      (rowDue_retireAtSeam _ a row)⟩

/-- Settles O51: each row by the state that it answers, and by what the shared operations leave of the field and the guard. That EV_STORM
is handed to the Cabinet stands in `stormMergeCommit_next`; the start of a continued record (log entry 163) is the model's choice. -/
theorem stormsSignaturesAndEcc : Obligations.StormsSignaturesAndEcc := ⟨stormsAndSignatures, eccRows⟩

end Sys2Proof.Machine
end

section
/-! SUPPORT. Which rows change a generation, and how a reset, a hub restart, CYCLE and the loss of the feed change it (R28, R285, R286,
Table 11.1). -/

namespace Sys2Proof.Machine

/-! ### Only a reset, a hub restart and the loss of the feed change a generation -/

/-- The rows whose frame lists the generations. -/
def listsGens : Instr → Bool
  | .resetStart | .hubRestart | .tripRestart .. | .hubFeedLoss | .zonePgoodLoss .. => true
  | _ => false

theorem changes_gens (i : Instr) (h : listsGens i = false) : (changes i).gens = false := by
  cases i with
  | resetStart | hubRestart | tripRestart | hubFeedLoss | zonePgoodLoss => cases h
  | _ => rfl

/-- The loss of a zone that leaves the hub its feed leaves the generations. -/
theorem gens_zonePgoodLoss {s t : State} {z : Nat} (hfeed : feedGone (setPgood s z false) = false)
    (ht : exec (.zonePgoodLoss z) s = .next t) : t.hang.gens = s.hang.gens := by
  rw [exec, execZonePgoodLoss_eq, feedGone_afterZoneLoss, hfeed] at ht
  split at ht
  · cases ht
  · obtain ⟨-, rfl⟩ | ⟨-, rfl⟩ := (whenOk_next ..).mp ht
    · exact gens_of_erase zoneLossMask rfl (zoneLossMask_afterZoneLoss s z)
    · rfl

/-- Settles O6: of the rows whose frame lists the generations only the loss of a zone that leaves the hub its feed is left. -/
theorem generationsOnlyByReset : Obligations.GenerationsOnlyByReset := by
  intro s t i hmay ht
  cases hi : listsGens i with
  | false => exact gens_of_erase _ (changes_gens i hi) (erase_exec i s t ht)
  | true =>
    cases i with
    | resetStart | hubRestart | tripRestart | hubFeedLoss => cases hmay
    | zonePgoodLoss z => exact gens_zonePgoodLoss hmay ht
    | _ => cases hi

/-! ### A reset's start -/

theorem levelDomains_part (s : State) {dom : Nat} : levelDomains s 2 dom = dom :: (fieldsOfPart s (dom - 128)).map domField := rfl

theorem levelDomains_wafer (s : State) (dom : Nat) : levelDomains s 3 dom = List.range 229 := by
  rw [levelDomains, if_neg (by decide), if_pos rfl]

theorem levelDomains_self (s : State) {level : Nat} (h : level ≤ 1) (dom : Nat) : levelDomains s level dom = [dom] := by
  rw [levelDomains, if_neg (by omega), if_neg (by omega), if_neg (by omega)]

theorem nodup_fieldsOfPart (s : State) (p : Nat) : (fieldsOfPart s p).Nodup := by
  unfold fieldsOfPart
  split
  · exact List.nodup_range.filter _
  · exact List.nodup_nil

/-- A partition's domain and those of its fields are pairwise different. -/
theorem nodup_levelDomains_part (s : State) {p : Nat} (hp : p < 16) : (levelDomains s 2 (128 + p)).Nodup := by
  rw [levelDomains_part, List.nodup_cons]
  refine ⟨fun h => ?_, (nodup_fieldsOfPart s _).map fun f g h => by simpa [domField] using h⟩
  obtain ⟨f, -, hf⟩ := List.mem_map.mp h
  rw [domField] at hf
  omega

theorem mem_levelDomains_part (s : State) (p d : Nat) :
    d ∈ levelDomains s 2 (128 + p) ↔ d = 128 + p ∨ ∃ f ∈ fieldsOfPart s p, d = 144 + f := by
  simp [levelDomains_part, domField, eq_comm]

/-- Of domains that are listed once each, those in the list advance by one and no other advances. -/
theorem ofNat_count_of_nodup {ds : List Nat} (h : ds.Nodup) (d : Nat) :
    BitVec.ofNat 6 (ds.count d) = if d ∈ ds then 1 else 0 := by
  rw [h.count]
  split <;> rfl

theorem resetStart_gens {s : State} {r : ResetRun} (rest : List ResetRun) (h : (levelDomains s r.level r.dom).Nodup) (d : Nat) :
    genOf (startReset s r rest) d = genOf s d + if d ∈ levelDomains s r.level r.dom then 1 else 0 := by
  rw [startReset_gens, ofNat_count_of_nodup h]

/-! ### The hub restart -/

/-- R286, R305: the generations have advanced, what was in flight has ended, and hub firmware is up. -/
def hubCoreUp (s : State) : State :=
  let s : State := bumpGens s (List.range 229)
  let s : State := (s.fe.flight.filter (fun c => opFw c.opcode)).foldl abortCmd s
  let s : State := endOps s (s.fe.ops.filter (fun o => o.final.isNone))
  let s : State := { s with fields := s.fields.map (fun e => (e.1, { e.2 with
    claims := e.2.claims.map (fun c => { c with gen := genOf s (domField e.1) }) })) }
  { s with hang := { s.hang with fwUp := true, restarted := true, heldRef := false } }

/-- R386, R450: the restart, with what hub firmware does once it is up. -/
def restartedHub (s : State) : State := lateTrips (repeatStage (hubCoreUp s))

theorem hubRestart_next {s : State} (h : mayRestart s = true) : exec .hubRestart s = .next (restartedHub s) := by
  rw [exec, execHubRestart, h]
  rfl

/-- The parts that the hub restart changes beside the generations. -/
def restartMask : Mask :=
  { fe := true, parts := true, fields := true, guards := true, side := true, hang := true, arb := true, boot := true, out := true,
    arrivals := true }

/-- R286: every domain's generation advances by one. -/
theorem genOf_restartedHub (s : State) (d : Nat) : genOf (restartedHub s) d = genOf s d + if d < 229 then 1 else 0 := by
  have hrest : erase restartMask (restartedHub s) = erase restartMask (bumpGens s (List.range 229)) := by
    unfold restartedHub hubCoreUp
    simp [restartMask]
  rw [genOf_of_erase restartMask rfl hrest, genOf_bumpGens, ofNat_count_of_nodup List.nodup_range]
  simp only [List.mem_range]

theorem tiles_of_erase (κ : Mask) {s t : State} (hκ : κ.tiles = false) (h : erase κ t = erase κ s) : t.tiles = s.tiles := by
  simpa [erase, hκ] using congrArg State.tiles h

theorem groups_of_erase (κ : Mask) {s t : State} (hκ : κ.groups = false) (h : erase κ t = erase κ s) : t.groups = s.groups := by
  simpa [erase, hκ] using congrArg State.groups h

/-- Settles O37: a reset's start, the hub restart and the loss of the feed by what each leaves of the counters; CYCLE by its frame. -/
theorem generationsAdvance : Obligations.GenerationsAdvance := by
  refine ⟨fun s r hc hr => ⟨_, resetStart_next hc hr, fun hlevel d => ?_, fun p hlevel hp hdom d => ?_, fun hlevel d => ?_⟩,
    fun s h => ?_, fun s t ht d => ?_, fun s hfeed => ?_, fun d => rfl⟩
  · have hself := levelDomains_self s hlevel r.dom
    rw [resetStart_gens _ (by simp [hself]), hself]
    simp only [List.mem_singleton]
  · rw [resetStart_gens _ (by rw [hlevel, hdom]; exact nodup_levelDomains_part s hp), hlevel, hdom]
    simp only [mem_levelDomains_part]
  · rw [resetStart_gens _ (by rw [hlevel]; exact List.nodup_range), hlevel]
    simp only [levelDomains_wafer, List.mem_range]
  · have hframe := erase_exec _ s _ (hubRestart_next h)
    exact ⟨_, hubRestart_next h, genOf_restartedHub s, tiles_of_erase _ rfl hframe, groups_of_erase _ rfl hframe,
      hutch_of_erase _ rfl hframe⟩
  · exact genOf_of_erase _ rfl (erase_exec _ s t ht) d
  · obtain ⟨t, ht, -, -, -, -, -, hhang, -⟩ := hubFeedLoss_leaves s hfeed
    exact ⟨t, ht, fun d => by rw [genOf, hhang]; rfl⟩

end Sys2Proof.Machine
end

section
/-! SUPPORT. Stale messages, and the staged dump that is written or given up (R287, R289, R314, R315). -/

namespace Sys2Proof.Machine

/-! ### Stale messages -/

theorem tfind_tdel_other {α : Type} (t : Table α) {k j : Nat} (h : j ≠ k) : tfind (tdel t k) j = tfind t j := by
  induction t with
  | nil => rfl
  | cons e t ih =>
    obtain ⟨a, v⟩ := e
    rw [tdel, List.filter_cons]
    split
    case isTrue =>
      rw [tfind, tfind, ← ih]
      rfl
    case isFalse hk =>
      have hak : a = k := by simpa using hk
      rw [tfind, if_neg fun haj => h (haj.symm.trans hak)]
      exact ih

/-- R289: the messages dropped in a domain, one more counted. -/
def staleCounted (s : State) (d : Nat) (g : BitVec 6) : State :=
  let x := tget s.hang.stale (0, g, s.now) d
  { s with hang := { s.hang with stale := tset s.hang.stale d (x.1 + 1, if x.1 = 0 then g else x.2.1, x.2.2) } }

theorem staleMessageDrop_next {s : State} {d : Nat} {g : BitVec 6} (hc : clocked s = true) (hd : d < 229) (hg : g ≠ genOf s d) :
    exec (.staleMessageDrop d g) s = .next (staleCounted s d g) := by
  rw [exec, execStaleMessageDrop, if_neg (Nat.not_le.mpr hd), hc, decide_eq_true hg]
  rfl

theorem staleRecordTimer_next {s : State} {d : Nat} {x : Nat × BitVec 6 × Nat} (hc : clocked s = true)
    (h : tfind s.hang.stale d = some x) : exec (.staleRecordTimer d) s =
      .next (emit { s with hang := { s.hang with stale := tdel s.hang.stale d } } evStale [d, x.2.1.toNat, x.1]) := by
  rw [exec, execStaleRecordTimer, h, whenSome_some, hc, whenOk_true]

/-! ### The staged dump -/

theorem drawer_of_erase (κ : Mask) {s t : State} (hκ : κ.drawer = false) (h : erase κ t = erase κ s) : t.drawer = s.drawer := by
  simpa [erase, hκ] using congrArg State.drawer h

theorem dumpWriteDone_next {s : State} (hc : clocked s = true) (hdue : stagedDue s = true) (hnor : s.cab.failed = false) :
    exec (.dumpWriteDone none) s = .next (writeStaged s none) := by
  rw [exec, execDumpWriteDone, hc, hdue, hnor]
  rfl

/-- R314: what a slot takes of a staged dump, under its owner's key. -/
def sealedDump (s : State) (d : Dump) (key : List Byte) : Dump :=
  let d0 : Dump := { d with cipher := List.replicate d.plain.length 0, tag := [], plain := [] }
  let ct := Config.aesGcm (hkdf (serialBytes s) key []) d.nonce (dumpHeader (dumpSlot s) d0) d.plain
  { d0 with cipher := ct.1, tag := ct.2, order := s.drawer.count }

section
variable {s : State} {d : Dump} (hd : s.drawer.staging = some d) (hdue : stagedDue s = true)
include hd hdue

/-- R315: the dump takes its slot, and the staging buffer is free. -/
theorem writeStaged_key {key : List Byte} (hkey : dumpKey s d.tenant = some key) : (writeStaged s none).drawer.staging = none ∧
    tfind (writeStaged s none).nor.dumps (dumpSlot s) = some (sealedDump s d key) := by
  have herased : erase commitMask (eraseUnits (reportUnit s none) (slotUnits (dumpSlot s))) = erase commitMask s := by
    simp [commitMask]
  have hserial := congrArg Mfg.serial (mfg_of_erase _ _ _ rfl herased)
  have hdrawer := drawer_of_erase _ rfl herased
  rw [writeStaged, if_pos hdue, hd]
  dsimp only
  rw [hkey]
  dsimp only
  generalize eraseUnits (reportUnit s none) (slotUnits (dumpSlot s)) = u at hserial hdrawer ⊢
  refine ⟨rfl, (tfind_tset_same _ _ _).trans ?_⟩
  rw [serialBytes, hserial, hdrawer]
  rfl

/-- R314: without its owner's key the dump is given up. -/
theorem writeStaged_noKey (hkey : dumpKey s d.tenant = none) :
    writeStaged s none = emitDump { s with drawer := { s.drawer with staging := none } } 1 0 d.tenant 0 0 := by
  rw [writeStaged, if_pos hdue, hd]
  dsimp only
  rw [hkey]

end

/-- Settles O38: each row by the state that it answers. That EV_STALE is handed to the Cabinet stands in `staleRecordTimer_next`; the empty
info of the key and the header with a zero tag as additional data are log entry 125. -/
theorem staleAndDumps : Obligations.StaleAndDumps := by
  intro s hc
  refine ⟨fun d g hd hg => ⟨_, staleMessageDrop_next hc hd hg, ?_, rfl⟩, fun d x hx => ⟨_, staleRecordTimer_next hc hx, ?_⟩,
    fun d hd hdue hnor => ⟨fun key hkey => ?_, fun hkey => ?_⟩⟩
  · rw [staleCounted, tget_tset_same]
  · exact ⟨tfind_tdel_same _ d, fun k hk => tfind_tdel_other _ hk⟩
  · obtain ⟨hfree, hslot⟩ := writeStaged_key hd hdue hkey
    exact ⟨_, _, dumpWriteDone_next hc hdue hnor, hfree, hslot, rfl, rfl, rfl, rfl⟩
  · refine ⟨_, dumpWriteDone_next hc hdue hnor, ?_⟩
    rw [writeStaged_noKey hd hdue hkey]
    exact ⟨rfl, rfl⟩

end Sys2Proof.Machine
end

section
/-! SUPPORT. Hang sources: seam overrun, deadlock, barrier wait, slot parity and link resends (R235, R238, R297 to R300). -/

namespace Sys2Proof.Machine

/-! ### What the shared operations leave -/

/-- R263: a source that the warden latches itself changes fields alone. -/
theorem latchLevel_other (s : State) (f cls tile master access : Nat) (loc : Word) (detail : Dword) :
    ∃ fields, latchLevel s f cls tile master access loc detail = { s with fields := fields } := by
  unfold latchLevel addSource
  dsimp only
  split
  · split
    · exact ⟨_, rfl⟩
    · exact ⟨_, rfl⟩
  · exact ⟨_, rfl⟩

theorem autoReset_asks {s : State} {dom : Nat} (hin : domInReset s dom = false) (haw : resetAwaited s dom = false)
    (level cause : Nat) : autoReset s level dom cause = requestReset s level dom cause false none := by
  rw [autoReset, hin, haw]
  rfl

/-- R171: a loss writes the cause of the loss alone in its field. -/
theorem fieldView_resetForLoss {α : Type} {π : Field → α} (s : State) (f cause : Nat) :
    fieldView π (resetForLoss s f cause) = fieldView π (modField s f (fun x => { x with lostCause := some cause })) := by
  unfold resetForLoss
  extract_lets u v
  split
  · rw [fieldView_autoReset, fieldView_holdPartition]
  · rw [fieldView_autoReset, fieldView_holdPartition]

/-- R299: the step of the field is lost with the cause. -/
theorem lostCause_hangLoss (s : State) (f cause : Nat) : (fieldOf (hangLoss s f cause) f).lostCause = some cause := by
  rw [hangLoss, read_of_fieldView (π := (·.lostCause)) (fieldView_resetForLoss _ f cause) f, fieldOf_modField]

theorem count_hangLoss (s : State) (f cause : Nat) : (fieldOf (hangLoss s f cause) f).count = (fieldOf s f).count := by
  rw [hangLoss, read_of_fieldView (π := (·.count)) (fieldView_resetForLoss _ f cause) f, fieldOf_modField]
  exact read_of_fieldView (π := (·.count)) (fieldView_countField s f _ fun _ _ => rfl) f

theorem badSlots_retireSlot {s : State} {f k : Nat} (h : s.hutch.img.badSlots.contains (f, k) = false) (source : Nat) :
    (retireSlot s f k source).hutch.img.badSlots = s.hutch.img.badSlots ++ [(f, k)] := by
  rw [retireSlot, h]
  rfl

theorem hutch_modTileRec {s t : State} (h : t.hutch = s.hutch) (a : Nat) (g : TileRec → TileRec) :
    (modTileRec t a g).hutch = (modTileRec s a g).hutch := by
  rw [modTileRec, modImg, modTileRec, modImg, h]

theorem hutch_foldl {α : Type} {u : State → α → State} (hu : ∀ s t a, t.hutch = s.hutch → (u t a).hutch = (u s a).hutch) (l : List α)
    {s t : State} (h : t.hutch = s.hutch) : (l.foldl u t).hutch = (l.foldl u s).hutch := by
  induction l generalizing s t with
  | nil => exact h
  | cons a l ih => exact ih (hu s t a h)

/-- R235: what the Hutch notes of a link that is switched depends on the Hutch alone. -/
theorem hutch_markLink {s t : State} (h : t.hutch = s.hutch) (f p edge : Nat) :
    (markLink t f p edge).hutch = (markLink s f p edge).hutch := by
  refine hutch_foldl (fun _ _ _ hu => ?_) (linkEnds f p edge) h
  exact hutch_modTileRec hu _ _

/-! ### Seam overrun, deadlock and the wait on the barrier tree -/

section
variable {s : State} {f : Nat} (hf : f < 84) (hw : WardenReads s f)
include hf hw

theorem seamOverrun_next {m : Seam} {n : Nat} (hrun : (fieldOf s f).run = .running) (hm : seamAt s f = some m)
    (hn : (fieldOf s f).count ≤ n) (hpast : m.pos + m.margin + s.hang.grace * (fieldOf s f).clock < n) :
    exec (.seamOverrun f n) s = .next
      (hangLoss (modField (latchLevel s f 10 (fieldAddr f) 0xB 7 0 0) f (fun x => { x with count := n })) f 1) := by
  rw [exec, execSeamOverrun, if_neg (Nat.not_le.mpr hf)]
  dsimp only
  rw [hm, whenSome_some, hw.clocked, hw.up, hrun, decide_eq_true hn, decide_eq_true hpast]
  rfl

/-- R297, R299: a field with a program loses its step, one without is reset. -/
theorem deadlock_next : exec (.deadlock f) s = .next
    (if fieldLoaded s f then hangLoss (latchLevel s f 9 (fieldAddr f) 0xA 0xA 0 0) f 2
     else autoReset (latchLevel s f 9 (fieldAddr f) 0xA 0xA 0 0) 1 (domField f) 2) := by
  obtain ⟨fields, hlatch⟩ := latchLevel_other s f 9 (fieldAddr f) 0xA 0xA 0 0
  rw [exec, execDeadlock, if_neg (Nat.not_le.mpr hf), hw.clocked, hw.up, hlatch]
  rfl

theorem deadlock_unloaded (hload : fieldLoaded s f = false) (hin : domInReset s (domField f) = false)
    (haw : resetAwaited s (domField f) = false) : ∃ t, exec (.deadlock f) s = .next t ∧
      t.hang.requests = s.hang.requests ++ [{ level := 1, dom := domField f, cause := 2 }] := by
  obtain ⟨fields, hlatch⟩ := latchLevel_other s f 9 (fieldAddr f) 0xA 0xA 0 0
  have hask := autoReset_asks (s := { s with fields := fields }) hin haw 1 2
  exact ⟨_, by rw [deadlock_next hf hw, hload, if_neg (by simp), hlatch, hask], rfl⟩

theorem barrierWaitLimit_next {p : Nat} {y : Part} (hp : fieldPart s f = some (p, y)) (hrun : (fieldOf s f).run = .held)
    (hwait : (fieldOf s f).waitBarrier = true ∨ crossWaits s f = true) (hpast : waitStart (fieldOf s f) + waitLimitNs y < s.now) :
    exec (.barrierWaitLimit f) s = .next (autoReset s 2 (domPart p) 5) := by
  rw [exec, execBarrierWaitLimit, if_neg (Nat.not_le.mpr hf)]
  dsimp only
  rw [hp, whenSome_some, hw.clocked, hw.up, hrun, Bool.or_eq_true_iff.mpr hwait, decide_eq_true hpast]
  rfl

/-! ### Command slots and links -/

/-- R238: the parity error retires the slot. -/
theorem wardenSlotParity_retires {k : Nat} (hk : k < 40) (hnew : s.hutch.img.badSlots.contains (f, k) = false) :
    ∃ t, exec (.wardenSlotParity f k) s = .next t ∧ t.hutch.img.badSlots = s.hutch.img.badSlots ++ [(f, k)] := by
  have hhutch : (reissue (latchLevel s f 11 (fieldAddr f) 8 0xA 0 0) f k).hutch = s.hutch :=
    hutch_of_erase { fields := true } rfl (by simp)
  refine ⟨_, by rw [exec, execWardenSlotParity, if_neg (by omega), hw.clocked, hw.up, hnew]; rfl, ?_⟩
  rw [badSlots_retireSlot (by rw [hhutch, hnew]), hhutch]

end

/-- What the warden notes of a link whose resends pass the limit, before it acts on the link. -/
def resendsNoted (s : State) (a k : Nat) : State :=
  latchLevel (modField s (taField a) (fun x => { x with resends := tdel x.resends (4 * taPlace a + k) })) (taField a) 7 a 3 3 (w32 k) 0

theorem resendsNoted_other (s : State) (a k : Nat) : ∃ fields, resendsNoted s a k = { s with fields := fields } := by
  obtain ⟨fields, hlatch⟩ := latchLevel_other
    (modField s (taField a) (fun x => { x with resends := tdel x.resends (4 * taPlace a + k) })) (taField a) 7 a 3 3 (w32 k) 0
  exact ⟨fields, hlatch⟩

section
variable {s : State} {a k n : Nat} (ha : physicalOk a = true) (hk : k < 4) (hface : (facing (taField a) (taPlace a) k).isSome = true)
  (hw : WardenReads s (taField a)) (hdead : linkDead s (taField a) (taPlace a) k = false)
include ha hk hface hw hdead

/-- R235, R236: up to 32 resends in a second are counted; with more the link is acted on. -/
theorem linkResendThreshold_next {seen : List (Nat × Nat)}
    (hseen : seen = resendsNow s (taField a) (4 * taPlace a + k) ++ [(s.cab.opTime, n)]) :
    exec (.linkResendThreshold a k n) s = .next (if (seen.map (·.2)).sum ≤ 32
      then modField s (taField a) (fun x => { x with resends := tset x.resends (4 * taPlace a + k) seen })
      else if !linkUsed s (taField a) (taPlace a) k then failLinkSoon (resendsNoted s a k) (taField a) (taPlace a) k 3
      else if allSwitched s (taField a) (taPlace a) then routerFault (resendsNoted s a k) (taField a)
        { cls := 7, tile := a, master := 3, access := 3, loc := w32 k, detail := 0 }
      else killLink (resendsNoted s a k) (taField a) (taPlace a) k 3) := by
  obtain ⟨fields, hnoted⟩ := resendsNoted_other s a k
  rw [exec, execLinkResendThreshold]
  dsimp only
  rw [if_neg (by simp [ha, hk, hface]), hw.clocked, hw.up, hdead, hseen, ← resendsNoted, hnoted]
  rfl

/-- R235: where no program runs at its ends, a link that is not in use twice is switched at once. -/
theorem linkResendThreshold_switches {seen : List (Nat × Nat)}
    (hseen : seen = resendsNow s (taField a) (4 * taPlace a + k) ++ [(s.cab.opTime, n)]) (hmany : 32 < (seen.map (·.2)).sum)
    (hfree : linkUsed s (taField a) (taPlace a) k = false)
    (hidle : ∀ g ∈ (linkEnds (taField a) (taPlace a) k).map (·.1), fieldLoaded s g = false) :
    ∃ t, exec (.linkResendThreshold a k n) s = .next t ∧ t.hutch = (markLink s (taField a) (taPlace a) k).hutch := by
  obtain ⟨fields, hnoted⟩ := resendsNoted_other s a k
  have hsoon : failLinkSoon { s with fields := fields } (taField a) (taPlace a) k 3 =
      emitQuarantine (markLink { s with fields := fields } (taField a) (taPlace a) k) 2 0 (taField a) 3 (pa (taField a) (taPlace a)) k 0 := by
    have hnone : (linkEnds (taField a) (taPlace a) k).any (fun e => fieldLoaded { s with fields := fields } e.1) = false := by
      rw [List.any_eq_false]
      intro e he
      exact Bool.eq_false_iff.mp (hidle e.1 (List.mem_map_of_mem he))
    have hunused : linkUsed { s with fields := fields } (taField a) (taPlace a) k = false := hfree
    rw [failLinkSoon, hnone, if_neg (by simp), failLink, hunused, if_neg (by simp)]
  refine ⟨_, linkResendThreshold_next ha hk hface hw hdead hseen, ?_⟩
  rw [if_neg (Nat.not_le.mpr hmany), hfree, if_pos (by simp), hnoted, hsoon]
  exact hutch_markLink (s := s) (t := { s with fields := fields }) rfl _ _ _

end

/-- Settles O39: a lost step by the cause that its field keeps, a reset by its request, a slot and a link by what the Hutch notes. The
resends are those within 1 s of operating time (R235). -/
theorem hangSources : Obligations.HangSources := by
  intro s f hf hc hup
  have hw : WardenReads s f := ⟨hc, hup⟩
  refine ⟨fun m n hrun hm hn hpast => ⟨_, seamOverrun_next hf hw hrun hm hn hpast, lostCause_hangLoss _ f 1, ?_⟩,
    fun hload => ⟨_, deadlock_next hf hw, ?_⟩, deadlock_unloaded hf hw, fun p y => barrierWaitLimit_next hf hw,
    fun k => wardenSlotParity_retires hf hw, ?_⟩
  · rw [count_hangLoss, fieldOf_modField]
  · rw [if_pos hload]
    exact lostCause_hangLoss _ f 2
  · rintro a k n seen ha rfl hk hface hdead hseen
    refine ⟨fun hfew => ?_, linkResendThreshold_switches ha hk hface hw hdead hseen⟩
    rw [linkResendThreshold_next ha hk hface hw hdead hseen, if_pos hfew]

end Sys2Proof.Machine
end

section
/-! SUPPORT. The hub watchdog and its restart, the reference clock, host loss and quiesce (R66, R298, R304 to R306, R309, R310). -/

namespace Sys2Proof.Machine

/-! ### The watchdog fires -/

/-- R312: what the capture of a dump may change. -/
theorem captureDump_other (s : State) (t level cause : Nat) (fs : List Nat) :
    ∃ free cab drawer, (captureDump s t level cause fs).1 = { s with free := free, cab := cab, drawer := drawer } := by
  unfold captureDump
  split
  · exact ⟨_, _, _, rfl⟩
  · split
    · exact ⟨_, _, _, rfl⟩
    · exact ⟨_, _, _, rfl⟩

/-- R304, R312: HANG is set and a dump captured. -/
def hangRaised (s : State) : State := (captureDump (raiseBit s tsHang) 0 7 7 allFields).1

theorem hangRaised_eq (s : State) : ∃ st o free cab drawer, hangRaised s = { s with
    tray := { s.tray with status := st }, out := o, free := free, cab := cab, drawer := drawer } ∧ st.getLsbD tsHang = true := by
  obtain ⟨st, o, hraise, hst⟩ := raiseBit_eq s tsHang (by decide)
  obtain ⟨free, cab, drawer, hdump⟩ := captureDump_other (raiseBit s tsHang) 0 7 7 allFields
  exact ⟨st, o, free, cab, drawer, by rw [hangRaised, hdump, hraise], hst⟩

/-- R304: a fire with the reference there is counted, and hub firmware is down. -/
def dogBarked (s : State) : State :=
  firmwareDown { hangRaised s with
    hang := { (hangRaised s).hang with fires := min 255 ((hangRaised s).hang.fires + 1), windowOpen := true, restarted := false } }

/-- R306: a fire without it holds hub firmware. -/
def dogHolds (s : State) : State := firmwareDown { hangRaised s with hang := { (hangRaised s).hang with heldRef := true } }

/-- R304: what the second and the third fire ask for. -/
def fireAsks (s : State) (n : Nat) : State := if n = 2 then autoReset s 3 domWafer 7 else if n = 3 then wantCycle s 3 else s

theorem fireAsks_keeps (s : State) (n : Nat) : (fireAsks s n).tray = s.tray ∧ (fireAsks s n).hang.fwUp = s.hang.fwUp ∧
    (fireAsks s n).hang.windowOpen = s.hang.windowOpen ∧ (fireAsks s n).hang.fires = s.hang.fires := by
  unfold fireAsks autoReset requestReset wantCycle
  split_ifs
  all_goals exact ⟨rfl, rfl, rfl, rfl⟩

theorem requests_fireAsks (s : State) {n : Nat} (h : n ≠ 2) : (fireAsks s n).hang.requests = s.hang.requests := by
  unfold fireAsks wantCycle
  rw [if_neg h]
  split_ifs
  all_goals rfl

section
variable {s : State} (hfeed : s.feed = true) (hs1 : s.boot.s1 = true) (hon : s.arb.hubOff = false)
include hfeed hs1 hon

theorem hubWatchdogFire_counts (href : s.hang.refOk = true) :
    exec .hubWatchdogFire s = .next (fireAsks (dogBarked s) (s.hang.fires + 1)) := by
  obtain ⟨st, o, free, cab, drawer, heq, -⟩ := hangRaised_eq s
  have hhang : (hangRaised s).hang = s.hang := by rw [heq]
  rw [exec, execHubWatchdogFire, if_neg (by simp [hfeed, hs1, hon, href])]
  dsimp only
  rw [← hangRaised, hhang, if_neg (by simp [href]), fireAsks, dogBarked, hhang]

theorem hubWatchdogFire_holds (href : s.hang.refOk = false) (hheld : s.hang.heldRef = false) :
    exec .hubWatchdogFire s = .next (dogHolds s) := by
  obtain ⟨st, o, free, cab, drawer, heq, -⟩ := hangRaised_eq s
  have hhang : (hangRaised s).hang = s.hang := by rw [heq]
  rw [exec, execHubWatchdogFire, if_neg (by simp [hfeed, hs1, hon, hheld])]
  dsimp only
  rw [← hangRaised, hhang, if_pos (by simp [href]), dogHolds, hhang]

end

theorem dogBarked_marks (s : State) : tsBit (dogBarked s) tsHang = true ∧ (dogBarked s).hang.fwUp = false ∧
    (dogBarked s).hang.windowOpen = true ∧ (dogBarked s).hang.fires = min 255 (s.hang.fires + 1) ∧
    (dogBarked s).hang.requests = s.hang.requests := by
  obtain ⟨st, o, free, cab, drawer, heq, hst⟩ := hangRaised_eq s
  rw [dogBarked, heq]
  exact ⟨hst, rfl, rfl, rfl, rfl⟩

theorem dogHolds_marks (s : State) : tsBit (dogHolds s) tsHang = true ∧ (dogHolds s).hang.fwUp = false ∧
    (dogHolds s).hang.heldRef = true ∧ (dogHolds s).hang.fires = s.hang.fires ∧ (dogHolds s).hang.requests = s.hang.requests := by
  obtain ⟨st, o, free, cab, drawer, heq, hst⟩ := hangRaised_eq s
  rw [dogHolds, heq]
  exact ⟨hst, rfl, rfl, rfl, rfl⟩

/-- R304: the second fire asks for a WAFER reset unless one is asked for or runs. -/
theorem secondFire_asks {s : State} (hin : domInReset s domWafer = false) (haw : resetAwaited s domWafer = false) :
    (fireAsks (dogBarked s) 2).hang.requests = s.hang.requests ++ [{ level := 3, dom := domWafer, cause := 7 }] := by
  obtain ⟨st, o, free, cab, drawer, heq, -⟩ := hangRaised_eq s
  have hinBarked : domInReset (dogBarked s) domWafer = false := by
    rw [dogBarked, heq]
    exact hin
  have hawBarked : resetAwaited (dogBarked s) domWafer = false := by
    rw [dogBarked, heq]
    exact haw
  obtain ⟨-, -, -, -, hreq⟩ := dogBarked_marks s
  rw [fireAsks, if_pos rfl, autoReset_asks hinBarked hawBarked, requestReset, hreq]

/-- R304: the third asks for a CYCLE. -/
theorem thirdFire_asks {s : State} (hlow : s.tray.pwrcycLow = false) (hwant : s.hang.cycleWant = none) :
    (fireAsks (dogBarked s) 3).hang.cycleWant = some 3 := by
  obtain ⟨st, o, free, cab, drawer, heq, -⟩ := hangRaised_eq s
  have hcycle : wantCycle (dogBarked s) 3 = { dogBarked s with hang := { (dogBarked s).hang with cycleWant := some 3 } } := by
    refine wantCycle_eq ?_ ?_ 3
    · rw [dogBarked, heq]
      exact hlow
    · rw [dogBarked, heq]
      exact hwant
  rw [fireAsks, if_neg (by decide), if_pos rfl, hcycle]

/-! ### The hub restart -/

/-- Of the hang detection's state no more than what is asked for differs. -/
def AsksOnly (s t : State) : Prop := ∃ l, t.hang = { s.hang with requests := l }

theorem AsksOnly.of_hang {s t : State} (h : t.hang = s.hang) : AsksOnly s t := ⟨_, h⟩

theorem AsksOnly.trans {s t u : State} (hst : AsksOnly s t) (htu : AsksOnly t u) : AsksOnly s u := by
  obtain ⟨k, hk⟩ := hst
  obtain ⟨l, hl⟩ := htu
  exact ⟨l, by rw [hl, hk]⟩

theorem asksOnly_foldl {α : Type} {u : State → α → State} (hu : ∀ s a, AsksOnly s (u s a)) (as : List α) (s : State) :
    AsksOnly s (as.foldl u s) := by
  induction as generalizing s with
  | nil => exact .of_hang rfl
  | cons a as ih => exact (hu s a).trans (ih (u s a))

theorem asksOnly_autoReset (s : State) (level dom cause : Nat) : AsksOnly s (autoReset s level dom cause) := by
  unfold autoReset
  split
  · exact .of_hang rfl
  · exact ⟨_, rfl⟩

/-- R171: a lost step asks for a reset. -/
theorem asksOnly_lostStep (s : State) (f trigger outcome : Nat) (cross : Bool) (tiles spare hold : Nat) (detail : Dword) (cause : Nat) :
    AsksOnly s (lostStep s f trigger outcome cross tiles spare hold detail cause) := by
  unfold lostStep loseWith resetForLoss
  extract_lets u v w
  have hw : AsksOnly s w := .of_hang (hang_of_exceptHang (by simp [exceptHang, w, v, u]))
  split
  · exact hw.trans (asksOnly_autoReset w _ _ _)
  · exact hw.trans (asksOnly_autoReset w _ _ _)

/-- R386, R387: the trips that are reported late lose steps. -/
theorem asksOnly_lateTrips (s : State) : AsksOnly s (lateTrips s) := by
  unfold lateTrips
  extract_lets hit zones lost
  have hlost : AsksOnly s lost := asksOnly_foldl (fun u f => asksOnly_lostStep u f _ _ _ _ _ _ _ _) hit s
  have htold (u : State) (k : Trip × Nat × Nat) : AsksOnly u (emitTrip u k.1 k.2.1 k.2.2) :=
    .of_hang (hang_of_exceptHang (erase_emitTrip exceptHang u k.1 k.2.1 k.2.2 rfl))
  exact (hlost.trans (.of_hang rfl)).trans (asksOnly_foldl htold zones _)

/-- R305: after the restart hub firmware is up. -/
theorem hang_restartedHub (s : State) : (restartedHub s).hang.fwUp = true ∧ (restartedHub s).hang.restarted = true := by
  obtain ⟨l, hl⟩ := asksOnly_lateTrips (repeatStage (hubCoreUp s))
  have hup : (repeatStage (hubCoreUp s)).hang = (hubCoreUp s).hang := hang_of_exceptHang (by simp [exceptHang])
  rw [restartedHub, hl, hup]
  exact ⟨rfl, rfl⟩

/-! ### The heartbeat and the reference clock -/

section
variable {s : State} (hfeed : s.feed = true)
include hfeed

theorem clocked_of_refOk (href : s.hang.refOk = true) : clocked s = true := by rw [clocked, hfeed, href]; rfl

/-- R304: a toggle counts, and after the restart closes the window. -/
theorem hubHeartbeatToggle_marks (hfw : s.hang.fwUp = true) (href : s.hang.refOk = true) :
    ∃ t, exec .hubHeartbeatToggle s = .next t ∧ t.hang.hbCount = (s.hang.hbCount + 1) % 65536 ∧ t.hang.hbAt = some s.now ∧
      (s.hang.windowOpen = true → s.hang.restarted = true → t.hang.windowOpen = false) := by
  refine ⟨_, by rw [exec, execHubHeartbeatToggle, clocked_of_refOk hfeed href, hfw, href, Bool.and_self, Bool.and_self, whenOk_true], ?_⟩
  dsimp only
  split
  case isTrue => exact ⟨rfl, rfl, fun _ _ => rfl⟩
  case isFalse h => exact ⟨rfl, rfl, fun hopen hrestarted => absurd (by rw [hopen, hrestarted]; rfl) h⟩

theorem watchdogCountClear_next (hfw : s.hang.fwUp = true) (href : s.hang.refOk = true) (hclosed : s.hang.windowOpen = false) :
    exec .watchdogCountClear s = .next { s with hang := { s.hang with fires := 0 } } := by
  rw [exec, execWatchdogCountClear, clocked_of_refOk hfeed href, hfw, hclosed]
  rfl

/-- R66, R306: REFLOSS is set; hub firmware and the SMBus target stand still. -/
theorem refClockLoss_marks (href : s.hang.refOk = true) : ∃ t, exec .refClockLoss s = .next t ∧ tsBit t tsRefloss = true ∧
    t.hang.refOk = false ∧ t.hang.fwUp = false ∧ t.tray.smbDead = true := by
  refine ⟨_, by rw [exec, execRefClockLoss, hfeed, href, Bool.and_self, whenOk_true], ?_⟩
  dsimp only
  obtain ⟨st, o, hraise, hst⟩ := raiseBit_eq { firmwareDown s with
    tray := { (firmwareDown s).tray with smbDead := true }, hang := { (firmwareDown s).hang with refOk := false } } tsRefloss (by decide)
  rw [hraise]
  exact ⟨hst, rfl, rfl, rfl⟩

theorem refClockRestore_marks (href : s.hang.refOk = false) : ∃ t, exec .refClockRestore s = .next t ∧ t.hang.refOk = true ∧
    t.tray.smbDead = false ∧ t.tray.status = s.tray.status := by
  refine ⟨_, by rw [exec, execRefClockRestore, hfeed, href, Bool.not_false, Bool.and_self, whenOk_true], ?_⟩
  exact ⟨rfl, rfl, rfl⟩

end

theorem hubWatchdog : Says.HubWatchdog := by
  intro s hfeed
  refine ⟨fun hs1 hon href => ⟨_, hubWatchdogFire_counts hfeed hs1 hon href, ?_⟩,
    fun hs1 hon href hheld => ⟨_, hubWatchdogFire_holds hfeed hs1 hon href hheld, dogHolds_marks s⟩,
    fun hmay => ⟨_, hubRestart_next hmay, ?_⟩, hubHeartbeatToggle_marks hfeed, watchdogCountClear_next hfeed,
    refClockLoss_marks hfeed, refClockRestore_marks hfeed⟩
  · obtain ⟨htray, hfw, hwindow, hfires⟩ := fireAsks_keeps (dogBarked s) (s.hang.fires + 1)
    obtain ⟨hbit, hdown, hopen, hcount, hreq⟩ := dogBarked_marks s
    refine ⟨(congrArg (·.status.getLsbD tsHang) htray).trans hbit, hfw.trans hdown, hwindow.trans hopen, hfires.trans hcount,
      fun h1 => ?_, fun h1 => ?_, fun h2 => ?_⟩
    · rw [requests_fireAsks _ (by omega), hreq]
    · rw [h1]
      exact secondFire_asks
    · rw [h2]
      exact thirdFire_asks
  · obtain ⟨hfw, hrestarted⟩ := hang_restartedHub s
    refine ⟨hfw, hrestarted, fun d hd => ?_⟩
    rw [genOf_restartedHub, if_pos hd]

/-! ### Host loss and quiesce -/

theorem heartbeatCfg_next {s : State} {q e : Nat} {c : Cmd} (hrun : runCmd s q e opHeartbeatCfg = some c)
    (hres : reservedOk c [(3, 0xFFFF0001), (4, 7), (5, 0xFF)] = true) (hact : c.f 4 0 3 ≤ 1)
    (htime : c.b 3 0 = true → 100 ≤ c.f 3 16 16 ∧ c.f 3 16 16 ≤ 60000) :
    exec (.heartbeatCfg q e) s = .next (complete { s with hang := { s.hang with
      lossOn := c.b 3 0, lossTimeout := c.f 3 16 16, lossAction := c.f 4 0 3, grace := c.f 5 0 8, hbCfg := c.words.getD 3 0 } }
      c stOk [s.hang.hbCfg]) := by
  have hlegal : ¬ (c.b 3 0 = true ∧ (c.f 3 16 16 < 100 ∨ 60000 < c.f 3 16 16)) := fun ⟨hon, hbad⟩ => by
    obtain ⟨hlow, hhigh⟩ := htime hon
    omega
  rw [exec, execHeartbeatCfg, hrun, whenSome_some]
  dsimp only
  rw [if_neg (by simpa [hres, Nat.not_lt.mpr hact] using hlegal)]

/-- R310: a loss of the host is noted. -/
def lossNoted (s : State) : State :=
  emit { s with hang := { s.hang with hostLost := true } } evHostLoss [s.hang.lossTimeout, s.hang.lossAction]

section
variable {s : State} (hc : clocked s = true) (hfw : s.hang.fwUp = true)
include hc hfw

/-- R310: with action 1 a loss starts a quiesce. -/
theorem hostLoss_next (hon : s.hang.lossOn = true) (hfirst : s.hang.hostLost = false) :
    exec .hostLoss s = .next (if s.hang.lossAction = 1 then startQuiesce (lossNoted s) else lossNoted s) := by
  rw [exec, execHostLoss, hc, hfw, hon, hfirst]
  rfl

theorem hostLoss_marks (hon : s.hang.lossOn = true) (hfirst : s.hang.hostLost = false) :
    ∃ t, exec .hostLoss s = .next t ∧ t.hang.hostLost = true ∧ (s.hang.lossAction ≠ 1 → t.hang.quiesce = s.hang.quiesce) ∧
      (s.hang.lossAction = 1 → s.hang.quiesce = 0 → t.hang.quiesce = 1) := by
  refine ⟨_, hostLoss_next hc hfw hon hfirst, ?_⟩
  by_cases hact : s.hang.lossAction = 1
  · rw [if_pos hact]
    have hlost : (startQuiesce (lossNoted s)).hang.hostLost = true := by
      unfold startQuiesce
      split <;> rfl
    exact ⟨hlost, absurd hact, fun _ hq => by rw [startQuiesce_eq (s := lossNoted s) hq]⟩
  · rw [if_neg hact]
    exact ⟨rfl, fun _ => rfl, fun h => absurd h hact⟩

/-- R309: the quiesce is complete, and QUIESCED set. -/
theorem quiesceComplete_marks (hq : s.hang.quiesce = 1) (hdone : tenantsDone s = true) (hquiet : ∀ f, f < 84 → quietField s f = true) :
    ∃ t, exec .quiesceComplete s = .next t ∧ t.hang.quiesce = 2 ∧ tsBit t tsQuiesced = true := by
  have hall : allFields.all (quietField s) = true := List.all_eq_true.mpr fun f hf => hquiet f (List.mem_range.mp hf)
  refine ⟨_, by rw [exec, execQuiesceComplete, hc, hfw, hq, hdone, hall]; rfl, ?_⟩
  dsimp only
  obtain ⟨st, o, hraise, hst⟩ :=
    raiseBit_eq { commitAll s with hang := { (commitAll s).hang with quiesce := 2 } } tsQuiesced (by decide)
  rw [hraise]
  exact ⟨rfl, hst⟩

end

theorem hostLossAndQuiesce : Says.HostLossAndQuiesce :=
  ⟨fun _ _ _ _ => heartbeatCfg_next, fun _ hc hfw => ⟨hostLoss_marks hc hfw, quiesceComplete_marks hc hfw⟩⟩

/-- Settles O41: the fires by what they raise and ask for, the restart by what is left of its state after the late trips, the rest by the
state that each row answers. That a fire without the reference is not counted (log entry 126) and that the timeout is checked only with
detection on (log entry 128) are the model's choice. -/
theorem watchdogAndHostLoss : Obligations.WatchdogAndHostLoss := ⟨hubWatchdog, hostLossAndQuiesce⟩

end Sys2Proof.Machine
end

section
/-! SUPPORT. The wall clock, the host heartbeat and the log window (R310, R333, R340, R479). -/

namespace Sys2Proof.Machine

/-- The bits of a word are those of its number. -/
theorem bitAt_toNat (v : Word) (b : Nat) : bitAt v.toNat b = v.getLsbD b := rfl

/-! ### The wall clock -/

/-- R340: with a low word pending, a write of the high word commits the correlation; beside it only records arrive. -/
theorem regs_writeWallHigh {s : State} {low : Word} (h : s.regs.wallLow = some low) (v : Word) : (writeWallHigh s 0 v).regs =
    { s.regs with wallLow := none, lastCorr := some (low.toNat + v.toNat * 2 ^ 32, s.now) } := by
  rw [writeWallHigh, if_neg (by simp), h]
  dsimp only
  split_ifs
  · rfl
  · rfl

theorem wallClockWrites : Says.WallClockWrites := by
  intro s v low hs
  refine ⟨?_, fun hnone => ?_, fun hlow => ⟨writeWallHigh s 0 v, ?_, ?_, ?_⟩⟩
  · rw [exec, execWallclockLoWrite, served_eq (by decide) hs, writeWallLow, if_pos rfl]
  · rw [exec, execWallclockHiWrite, served_eq (by decide) hs, writeWallHigh, if_neg (by simp), hnone]
  · rw [exec, execWallclockHiWrite, served_eq (by decide) hs]
  · rw [regs_writeWallHigh hlow]
  · rw [regs_writeWallHigh hlow]

/-! ### The host heartbeat and the log window -/

theorem logAndHeartbeatWrites : Says.LogAndHeartbeatWrites := by
  intro s t v ht hs
  refine ⟨fun hon => ?_, fun hclear => ?_, fun hadv hready => ⟨writeLogAdv s t v.toNat, served_eq ht hs _ _, ?_⟩⟩
  · rw [exec, execHostHbWrite, served_eq (by decide) hs, writeHostHb, if_pos ⟨rfl, hon⟩]
  · rw [exec, execLogLostClear, served_eq ht hs, writeLogStat, bitAt_toNat, if_pos hclear]
  · rw [writeLogAdv, bitAt_toNat, if_pos hadv, advanceCursor, if_neg (by simp [hready]), cursorOf_modCursor]
    exact ⟨rfl, rfl, rfl⟩

/-- R333: the record that fills a window is visible to the tenant and stands at or above the cursor. -/
theorem visibleFrom_some {s : State} {t n : Nat} {r : Rec} (h : visibleFrom s t n = some r) :
    n ≤ r.seqNo ∧ (t ≠ 0 → r.tenant = t ∧ evTenantVisible r.typ = true) := by
  have hvisible : visibleTo t r = true := (List.mem_filter.mp (List.mem_of_find?_eq_some h)).2
  have hat : decide (n ≤ r.seqNo) = true := List.find?_some (p := fun r : Rec => decide (n ≤ r.seqNo)) h
  refine ⟨of_decide_eq_true hat, fun ht => ?_⟩
  simpa [visibleTo, ht] using hvisible

theorem logWindowFills : Says.LogWindowFills := by
  intro s t r hs hopen hready hmore hr
  have hwaits : (apServed s && (cursorOf s t).opened && !(cursorOf s t).ready &&
      (!(cursorOf s t).atEnd || (cursorOf s t).follow)) = true := by
    simpa [hs, hopen, hready] using hmore
  refine ⟨_, by rw [exec, execLogWindowReady, if_pos hwaits, hr, whenSome_some], ?_⟩
  rw [cursorOf_modCursor]
  exact ⟨rfl, rfl, rfl, visibleFrom_some hr⟩

/-- Settles O10: each write by what it stores; the window by the record that it finds. -/
theorem wallClockHeartbeatAndLogRows : Obligations.WallClockHeartbeatAndLogRows :=
  ⟨wallClockWrites, logAndHeartbeatWrites, logWindowFills⟩

end Sys2Proof.Machine
end

section
/-! SUPPORT. ZRM_CFG, counter reads and ignored writes of the aperture (R101, R471 to R475). -/

namespace Sys2Proof.Machine

/-! ### ZRM_CFG -/

/-- R101, R475: what a write of tenant 0 leaves in ZRM_CFG; `busy` says that a slot is enabled or draining. -/
def cfgWritten (s : State) (v : Word) (busy : Bool) : State := { s with regs := { s.regs with
  legacy := if busy then s.regs.legacy else v.getLsbD 0, statusIrq := v.getLsbD 1 } }

theorem writeCfg_tenant0 (s : State) (v : Word) :
    writeCfg s 0 v.toNat = cfgWritten s v (s.fe.slots.any (fun e => e.2.enable || e.2.draining)) := by
  rw [writeCfg, writeStatusIrq, if_pos rfl, writeLegacy, bitAt_toNat, bitAt_toNat]
  cases h : s.fe.slots.any (fun e => e.2.enable || e.2.draining) with
  | true => rw [if_neg (by simp), cfgWritten]; rfl
  | false => rw [if_pos (by simp), cfgWritten]; rfl

/-- Settles O8: the two rows and the register write have one meaning, the write of both bits. That LEGACY_FMT_WRITE and STATUS_IRQ_WRITE
write the whole word is log entry 28, that REGISTER_WRITE has the effect of the row of its offset log entry 27: the model's choice. -/
theorem cfgWrites : Obligations.CfgWrites := by
  intro s v busy hs hbusy u hu
  have hwrite : writeCfg s 0 v.toNat = u := by rw [writeCfg_tenant0, ← hbusy, hu, cfgWritten]
  refine ⟨?_, ?_, ?_⟩
  · rw [exec, execLegacyFmtWrite, served_eq (by decide) hs, hwrite]
  · rw [exec, execStatusIrqWrite, served_eq (by decide) hs, hwrite]
  · rw [exec, execRegisterWrite, served_eq (by decide) hs, writeAperture, if_neg (by decide), if_pos rfl, hwrite]

/-! ### Counter reads -/

/-- R473: a high word latched into the shadow of a tenant. -/
def shadowed (s : State) (t : Nat) (w : Word) : State := { s with regs := { s.regs with shadow := tset s.regs.shadow t w } }

theorem shadow_shadowed (s : State) (t : Nat) (w : Word) : tget (shadowed s t w).regs.shadow 0 t = w :=
  tget_tset_same _ _ _ _

/-- R473: a read of a word of the timestamp's high half shows the tenant's shadow. -/
theorem regRead_stampHigh {s : State} (hs : apServed s = true) (t : Nat) : regRead s t 0x0104 = tget s.regs.shadow 0 t := by
  simp [regRead, hs, w32]

/-- R473: so does one of the operating time's high half, for tenant 0. -/
theorem regRead_opTimeHigh {s : State} (hs : apServed s = true) : regRead s 0 0x0118 = tget s.regs.shadow 0 0 := by
  simp [regRead, hs, w32]

theorem apServed_shadowed (s : State) (t : Nat) (w : Word) : apServed (shadowed s t w) = apServed s := rfl

theorem counterLowRead_stamp {s : State} {t : Nat} (ht : t < 16) (hs : apServed s = true) :
    exec (.counterLowRead t 0x0100) s = .next (shadowed s t (w32 (s.now / 2 ^ 32))) := by
  rw [exec, execCounterLowRead, served_eq ht hs, if_pos rfl, shadowed]

theorem counterLowRead_opTime {s : State} (hs : apServed s = true) :
    exec (.counterLowRead 0 0x0114) s = .next (shadowed s 0 (w32 (s.cab.opTime / 2 ^ 32 + s.cab.cycles * 2 ^ 8))) := by
  rw [exec, execCounterLowRead, served_eq (by decide) hs, if_neg (by decide), if_pos ⟨rfl, rfl⟩, shadowed]

/-- Settles O9: a low read latches into the shadow, and a high read shows it. -/
theorem counterReads : Obligations.CounterReads := by
  intro s t ht hs
  refine ⟨⟨_, counterLowRead_stamp ht hs, rfl, ?_, fun t' hne => ?_⟩, ⟨_, counterLowRead_opTime hs, ?_⟩,
    regRead_stampHigh hs t, regRead_opTimeHigh hs⟩
  · rw [regRead_stampHigh (by rwa [apServed_shadowed]), shadow_shadowed]
  · rw [regRead_stampHigh (by rwa [apServed_shadowed]), regRead_stampHigh hs]
    exact tget_tset_other _ _ _ _ _ hne
  · rw [regRead_opTimeHigh (by rwa [apServed_shadowed]), shadow_shadowed]

/-! ### Writes that are ignored -/

/-- R471: only tenant 0 writes a queue slot. -/
theorem writeSlot_otherTenant (s : State) {t : Nat} (ht : t ≠ 0) (n word v : Nat) :
    (if word = 0 then writeSlot0 s t n v else writeSlotN s t n word v) = s := by
  split
  · rw [writeSlot0, if_pos ht]
  · rw [writeSlotN, if_pos (.inl ht)]

/-- R472: an offset of no register that a write can reach; the queue slots are looked at apart. -/
def NoWritable (off : Nat) : Prop :=
  off ≠ 0x0004 ∧ off ≠ 0x0108 ∧ off ≠ 0x010C ∧ off ≠ 0x0110 ∧ off ≠ 0x0300 ∧ off ≠ 0x030C ∧ ¬ (0x1000 ≤ off ∧ off < 0x1080)

theorem writeAperture_misaligned (s : State) (t : Nat) {off size : Nat} (v : Word) (h : size ≠ 4 ∨ off % 4 ≠ 0) :
    writeAperture s t off size v = s := by
  rw [writeAperture, if_pos h]

/-- R471, R472: beside the slots such an offset takes no write, and there it takes none of another tenant than 0. -/
theorem writeAperture_noWritable (s : State) {t off : Nat} (size : Nat) (v : Word) (h : NoWritable off)
    (hslot : t ≠ 0 ∨ ¬ (0x2000 ≤ off ∧ off < 0x4000)) : writeAperture s t off size v = s := by
  obtain ⟨hcfg, hlow, hhigh, hbeat, hstat, hadv, hdoor⟩ := h
  rw [writeAperture, if_neg hcfg, if_neg hlow, if_neg hhigh, if_neg hbeat, if_neg hstat, if_neg hadv, if_neg hdoor]
  obtain ht | hout := hslot
  · rw [writeSlot_otherTenant s ht, ite_self, ite_self]
  · rw [if_neg hout, ite_self]

/-- Settles O12: an access that the aperture does not take, or an offset that no write reaches. -/
theorem ignoredWrites : Obligations.IgnoredWrites := by
  intro s t off size v ht hoff
  have hkeep : writeAperture s t off size v = s := by
    by_cases halign : size ≠ 4 ∨ off % 4 ≠ 0
    · exact writeAperture_misaligned s t v halign
    · exact writeAperture_noWritable s size v (by unfold NoWritable; omega) (by omega)
  rw [exec, execRegisterWrite, hkeep, served, if_neg (by omega), ite_self]

/-- Settles O57: the frame that every command has. -/
theorem frameOfHubRows : Obligations.FrameOfHubRows := fun i s t _ h => erase_exec i s t h

/-- Settles O5: after reset there is no cap, no ceiling and no record. -/
theorem resetMeetsInvariants : Obligations.ResetMeetsInvariants := ⟨.of_none rfl rfl, queueOk_empty _ rfl⟩

end Sys2Proof.Machine
end

section
/-! SUPPORT. What POWER_CAP and CAP_LIMIT set (R47, R359, R363, R365). -/

namespace Sys2Proof.Machine

/-- The tray interface, where the frame lists neither it nor its two words of their own. -/
theorem tray_of_erase (κ : Mask) {s t : State} (hκ : κ.tray = false) (hst : κ.status = false) (hceil : κ.capCeil = false)
    (h : erase κ t = erase κ s) : t.tray = s.tray := by
  have he := congrArg State.tray h
  simp only [erase, eraseTray, hκ, hst, hceil, Bool.false_eq_true, if_false] at he
  exact he

section
variable {s : State} {q e : Nat} {c : Cmd}

/-- R359, R365: a rail limit that POWER_CAP may set: none, or one that the rail's board and its window of the last second allow. -/
def railLimitOk (s : State) (c : Cmd) : Prop :=
  c.f 4 16 16 = 0xFFFF ∨ (c.f 4 0 16 < 252 ∧ ((c.f 4 16 16 : Nat) : Rat) ≤ boardMax s (c.f 4 0 16) ∧
    (c.f 4 16 16 = 0 ∨ windowFloor s (c.f 4 0 16) ≤ ((c.f 4 16 16 : Nat) : Rat)))

/-- Table 3.7: the operands that POWER_CAP refuses as bad are none of these. -/
theorem powerCap_operandsOk (hres : reservedOk c [(3, 0xFFFF), (4, 0xFFFFFFFF)] = true) (hrail : railLimitOk s c)
    (hcap : c.f 3 0 16 = 0 ∨ (600 ≤ c.f 3 0 16 ∧ c.f 3 0 16 ≤ 3600)) :
    (!reservedOk c [(3, 0xFFFF), (4, 0xFFFFFFFF)] ||
      !(decide (c.f 3 0 16 = 0) || (decide (600 ≤ c.f 3 0 16) && decide (c.f 3 0 16 ≤ 3600))) ||
      (decide (c.f 4 16 16 ≠ 0xFFFF) &&
        (decide (252 ≤ c.f 4 0 16) || decide (boardMax s (c.f 4 0 16) < ((c.f 4 16 16 : Nat) : Rat))))) = false := by
  have hcap' : (decide (c.f 3 0 16 = 0) || (decide (600 ≤ c.f 3 0 16) && decide (c.f 3 0 16 ≤ 3600))) = true := by
    simpa using hcap
  obtain hnone | ⟨hlt, hboard, -⟩ := hrail
  · simp [hres, hcap', hnone]
  · simp [hres, hcap', hlt, hboard]

/-- R363, R365: with the cap at or above the floor no rail limit that may be set is out of reach. -/
theorem railLimit_reachable (hrail : railLimitOk s c) :
    ¬ (decide (c.f 4 16 16 ≠ 0xFFFF) = true ∧ c.f 4 16 16 ≠ 0 ∧ ((c.f 4 16 16 : Nat) : Rat) < windowFloor s (c.f 4 0 16)) := by
  rintro ⟨hgiven, hzero, hlow⟩
  obtain hnone | ⟨-, -, hz | hwin⟩ := hrail
  · simp [hnone] at hgiven
  · exact hzero hz
  · exact absurd hwin (not_le.mpr hlow)

/-- R359: POWER_CAP with operands that may be set puts the cap in the arbiter; all else that it does leaves both caps. -/
theorem execPowerCap_sets (hrun : runCmd s q e opPowerCap = some c)
    (hres : reservedOk c [(3, 0xFFFF), (4, 0xFFFFFFFF)] = true) (hrail : railLimitOk s c)
    (hcap : c.f 3 0 16 = 0 ∨ (600 ≤ c.f 3 0 16 ∧ c.f 3 0 16 ≤ 3600))
    (hfloor : c.f 3 0 16 = 0 ∨ floorWatts s ≤ ((c.f 3 0 16 * 10 : Nat) : Rat)) :
    ∀ r, execPowerCap q e s = r → ∃ t, r = .next t ∧
      erase afterCapMask t = erase afterCapMask { s with arb := { s.arb with cap := c.f 3 0 16 } } := by
  intro r hr
  rw [execPowerCap, hrun, whenSome_some] at hr
  extract_lets cap rail lim given s1 old _ u u1 u2 u3 waits at hr
  have hreach : ¬ ((cap ≠ 0 ∧ ((cap * 10 : Nat) : Rat) < floorWatts s) ∨
      (given = true ∧ lim ≠ 0 ∧ ((lim : Nat) : Rat) < windowFloor s rail)) := by
    rintro (⟨hne, hlt⟩ | hlow)
    · exact hfloor.elim hne (fun h => absurd h (not_le.mpr hlt))
    · exact railLimit_reachable hrail hlow
  rw [if_neg (Bool.eq_false_iff.mp (powerCap_operandsOk hres hrail hcap)), if_neg hreach] at hr
  have hplan : erase afterCapMask u3 = erase afterCapMask u := by simp [afterCapMask, u3, u2, u1]
  exact ⟨_, hr.symm, (erase_applyAt afterCapMask u3 c waits stOk _ rfl rfl).trans hplan⟩

/-- R363: a cap below the floor is recorded as unreachable, and answered with the cap in force. -/
theorem execPowerCap_unreachable (hrun : runCmd s q e opPowerCap = some c)
    (hres : reservedOk c [(3, 0xFFFF), (4, 0xFFFFFFFF)] = true) (hrail : railLimitOk s c)
    (hcap : c.f 3 0 16 = 0 ∨ (600 ≤ c.f 3 0 16 ∧ c.f 3 0 16 ≤ 3600)) (hne : c.f 3 0 16 ≠ 0)
    (hlow : ((c.f 3 0 16 * 10 : Nat) : Rat) < floorWatts s) :
    ∀ r, execPowerCap q e s = r → ∃ ws, r = .next (complete (emitWords s evCapUnreachable none ws) c stUnreachable
      [w32 (capInForce s)]) := by
  intro r hr
  rw [execPowerCap, hrun, whenSome_some] at hr
  extract_lets cap rail lim given s1 old _ u u1 u2 u3 waits at hr
  rw [if_neg (Bool.eq_false_iff.mp (powerCap_operandsOk hres hrail hcap)), if_pos (.inl ⟨hne, hlow⟩)] at hr
  exact ⟨_, hr.symm⟩

/-- Table 2.5, R359: a CAP_LIMIT word that the tray may set takes its place; the record of the change leaves the tray and the arbiter. -/
theorem execSmbCapLimit_sets (hfeed : s.feed = true) (hlive : s.tray.smbDead = false) (d : BitVec 16)
    (hd : d.toNat = 0 ∨ (60 ≤ d.toNat ∧ d.toNat ≤ 360)) : ∃ t, execSmbCapLimit true d s = .next t ∧
      t.tray = { s.tray with capCeil := d.toNat } ∧ t.arb = s.arb := by
  refine ⟨_, (smbWrite_eq hfeed hlive true _).trans (by rw [if_pos rfl, if_pos hd]), ?_⟩
  split
  · exact ⟨rfl, rfl⟩
  · exact ⟨rfl, rfl⟩

end

/-- Settles O24: POWER_CAP by R359 and Table 3.7; the answer below the floor is R363, the conditions on a rail limit R365; CAP_LIMIT
by Table 2.5 (R47). -/
theorem capsAreSet : Obligations.CapsAreSet := by
  intro s q e c d
  refine ⟨fun hrun hres hrail hcap => ⟨fun hfloor => ?_, fun hne hlow => ?_⟩, fun hfeed hlive => ⟨?_, fun hne hout => ?_, ?_⟩⟩
  · obtain ⟨t, ht, he⟩ := execPowerCap_sets hrun hres hrail hcap hfloor _ rfl
    exact ⟨t, ht, (cap_of_erase afterCapMask rfl he).trans rfl, (tray_of_erase afterCapMask rfl rfl rfl he).trans rfl⟩
  · obtain ⟨ws, ht⟩ := execPowerCap_unreachable hrun hres hrail hcap hne hlow _ rfl
    exact ⟨_, _, ht, rfl, arb_of_erase { fe := true, out := true, arrivals := true } rfl rfl (by simp)⟩
  · exact execSmbCapLimit_sets hfeed hlive d
  · refine (smbWrite_eq hfeed hlive true _).trans ?_
    rw [if_pos rfl, if_neg]
    rintro (hz | ⟨hlo, hhi⟩)
    · exact hne hz
    · omega
  · exact smbWrite_eq hfeed hlive false _

end Sys2Proof.Machine
end

section
/-! SUPPORT. Estimates, replans and the ends of frequency changes and lockouts (R351, R354, R357, R360, R367). -/

namespace Sys2Proof.Machine

/-- R351, R354: what an estimate leaves for the arbiter. -/
theorem execEstimatePeriod_renews {s : State} {f : Nat} (hf : f < 84) (hs : clocked s = true)
    (hup : (fieldOf s f).warden = .up) (hzone : (fieldOf s f).zoneDown = false) (act : Activity) :
    ∀ r, execEstimatePeriod f act s = r →
      ∃ t, r = .next t ∧ t.arb.estimate = waferWatts t ∧ t.arb.cap = s.arb.cap := by
  intro r hr
  rw [execEstimatePeriod, if_neg (by omega)] at hr
  extract_lets x raw cal watts est wins full settled _ s1 excess s2 at hr
  rw [if_neg (by simp [x, hs, hup, hzone])] at hr
  exact ⟨_, hr.symm, rfl, cap_of_erase { fields := true } (t := s2) rfl (by simp [s2, s1])⟩

/-- Settles O25: the estimate of the wafer is that of the fields as the row leaves them; a replan writes partitions, fields and the
arbiter's plan alone; the other two rows clear what their field has in its power state. -/
theorem powerEvents : Obligations.PowerEvents := by
  intro s f hf hs
  refine ⟨fun act hup hzone => ?_, fun hhub => ?_, fun c hc habort hdue => ?_, fun hlock => ?_⟩
  · exact execEstimatePeriod_renews hf hs hup hzone act _ rfl
  · have he : erase { parts := true, fields := true, arb := true, arrivals := true } (replan s) =
        erase { parts := true, fields := true, arb := true, arrivals := true } s := by simp
    exact ⟨_, by rw [exec, execArbiterReplan, hs, hhub]; rfl, cap_of_erase _ rfl he, tray_of_erase _ rfl rfl rfl he,
      hang_of_erase _ rfl rfl he⟩
  · rw [exec, execFreqChangeEnd]
    dsimp only
    rw [hc]
    have hend : ((decide (c.from_ < c.dest) && decide (c.stage = 1) && decide (c.switchedAt + 100000 ≤ s.now)) ||
        (decide (c.stage = 2) && decide (c.wroteAt + 100000 ≤ s.now))) = true := by
      simp only [Bool.or_eq_true, Bool.and_eq_true, decide_eq_true_eq]
      tauto
    simp [hf, hs, habort, hend]
  · simp [exec, execDroopLockoutEnd, hf, hs, hlock]

end Sys2Proof.Machine
end

section
/-! SUPPORT. The Cabinet: records that arrive and commit, its periodic work, and the log and dump commands (R260, R316, R321, R323, R327,
R329, R334, R337, R339, R342, R489). -/

namespace Sys2Proof.Machine

/-! ### Arrival and commit -/

theorem bodyLen_le (typ : Nat) (b : Body) : bodyLen typ b ≤ 1024 := by
  cases b with
  | words w => rw [bodyLen]; omega
  | fields f => rw [bodyLen]; omega

/-- R326, R329: the commit queue takes any record while it holds at most 12 KiB. -/
theorem recBytes_fits {s : State} (r : Rec) (h : queueBytes s ≤ 12288) : queueBytes s + recBytes r ≤ queueCap := by
  have := bodyLen_le r.typ r.body
  rw [recBytes, queueCap]
  omega

/-- R327: a record under the next sequence number, last in the commit queue. -/
def queued (s : State) (r : Rec) : State := { s with cab := { s.cab with
  queue := s.cab.queue ++ [{ r with seqNo := s.cab.nextSeq }], nextSeq := s.cab.nextSeq + 1 } }

theorem emitBody_queued {s : State} (h : queueBytes s ≤ 12288) (typ tenant : Nat) (part : Option Nat) (b : Body) :
    emitBody s typ tenant part b = queued s { typ := typ, tenant := tenant, part := part, body := b } := by
  have hnow : (evDeferrable typ && decide (12288 < queueBytes s)) = false := by
    rw [decide_eq_false (by omega), Bool.and_false]
  simp [emitBody, hnow, arrive_fits s _ (recBytes_fits _ h), queued]

/-- R327, R339: the record at the front as it is committed. -/
def stamped (s : State) (r : Rec) : Rec :=
  { r with opTime := s.cab.opTime, cycles := s.cab.cycles, tenant := recTenant s r, fallback := s.cab.failed }

/-- R325: in a sector with room a record is written behind the others. -/
theorem commitFront_room {s : State} {r : Rec} {rest : List Rec} (hq : s.cab.queue = r :: rest) (hok : s.cab.failed = false)
    (hnone : s.cab.dropped = 0) (hroom : s.nor.offset + recBytes r ≤ sectorBytes s.nor) : commitFront s = { s with
      cab := { s.cab with queue := rest }
      nor := { s.nor with ring := s.nor.ring ++ [{ stamped s r with sector := s.nor.sector }], offset := s.nor.offset + recBytes r } } := by
  have hroom' : s.nor.offset + recBytes (stamped s r) ≤ sectorBytes s.nor := hroom
  rw [commitFront, hq]
  dsimp only
  rw [hok, if_neg Bool.false_ne_true, ringAppend]
  dsimp only
  rw [if_pos (by simpa only [stamped, hok] using hroom'), noteDropped, if_neg (by simp [hnone])]
  simp [stamped, hok, recBytes]

/-- R326: the record that a word body from another source becomes. -/
def arriving (r : RecIn) : Rec := { typ := r.typ, tenant := r.tenant, part := r.part, body := .words r.words }

theorem recordArrival_queues {s : State} (hc : clocked s = true) {r : RecIn} (hdef : evDefined r.typ = true) (hlow : 4 ≤ r.words.length)
    (hhigh : r.words.length ≤ 1024) (ht : r.tenant < 16) (hshort : queueBytes s ≤ 12288) :
    exec (.recordArrival r) s = .next (queued s (arriving r)) := by
  rw [exec, execRecordArrival, if_neg (by simp [hdef, hlow, hhigh, ht]), hc, whenOk_true, emitBody_queued hshort, arriving]

theorem recordCommit_front {s : State} (hc : clocked s = true) {r : Rec} {rest : List Rec} (hq : s.cab.queue = r :: rest) :
    exec (.recordCommit true) s = .next (commitFront s) := by
  rw [exec, execRecordCommit, hc, hq, List.isEmpty_cons, Bool.true_or, if_pos rfl]
  rfl

theorem recordsArriveAndCommit : Says.RecordsArriveAndCommit := by
  intro s hc
  refine ⟨fun r hdef hlow hhigh ht hshort => ?_, fun r rest hq hok hnone hroom => ?_⟩
  · exact ⟨_, { arriving r with seqNo := s.cab.nextSeq }, recordArrival_queues hc hdef hlow hhigh ht hshort, rfl, rfl, rfl, rfl, rfl, rfl⟩
  · have hrow := recordCommit_front hc hq
    rw [commitFront_room hq hok hnone hroom] at hrow
    exact ⟨_, { stamped s r with sector := s.nor.sector }, hrow, rfl, rfl, rfl, rfl, rfl, rfl, rfl, rfl⟩

/-! ### Periodic work -/

/-- What the erase of units of the device may change. -/
def eraseMask : Mask := { cab := true, hutch := true, out := true, status := true, arrivals := true }

theorem nor_eraseUnits (s : State) (us : List Nat) : (eraseUnits s us).nor = s.nor :=
  nor_of_erase eraseMask rfl (by simp [eraseMask])

section

variable {s : State} (hc : clocked s = true)
include hc

theorem operatingTimeTick_counts : ∃ t, exec .operatingTimeTick s = .next t ∧ t.cab.opTime = (s.cab.opTime + 1) % 2 ^ 40 ∧
    t.cab.queue = s.cab.queue ∧ t.now = s.now ∧
    ((s.cab.opTime + 1) % 2 ^ 40 % 57600 = 0 → t.cab.meters = [] ∧ t.cab.meterDue.isSome = true) := by
  rw [exec, execOperatingTimeTick, hc]
  refine ⟨_, rfl, rfl, rfl, rfl, fun hend => ⟨if_pos hend, ?_⟩⟩
  dsimp only
  rw [if_pos hend, Option.isSome_some]

theorem meterIntervalEnd_reports (hdue : s.cab.meterDue.isSome = true) : ∃ t, exec .meterIntervalEnd s = .next t ∧
    t.cab.meterDue = none ∧ t.cab.meters = s.cab.meters := by
  obtain ⟨e, he⟩ := Option.isSome_iff_exists.mp hdue
  have hrow : exec .meterIntervalEnd s =
      .next (emitWords { s with cab := { s.cab with meterDue := none } } evMeter none (meterBody e.1 e.2)) := by
    rw [exec, execMeterIntervalEnd, he, whenSome_some, hc, whenOk_true]
  exact ⟨_, hrow, rfl, rfl⟩

theorem journalEntryWrite_next (hok : s.cab.failed = false) (hfw : s.hang.fwUp = true) (hdirty : s.hutch.dirty = true) :
    exec (.journalEntryWrite none) s = .next { s with
      hutch := { s.hutch with dirty := false, journalNo := s.hutch.journalNo + 1 }
      nor := { s.nor with journal := s.nor.journal ++ [(s.hutch.journalNo + 1, s.hutch.img)] } } := by
  rw [exec, execJournalEntryWrite, hc, hfw, hdirty, Bool.and_self, Bool.and_self, whenOk_true]
  simp [hok, reportUnit]

theorem journalFold_folds (hok : s.cab.failed = false) {e : Nat × HutchImage} (hlast : s.nor.journal.getLast? = some e)
    (hfull : foldEntries ≤ s.nor.journal.length) :
    ∃ t, exec (.journalFold none) s = .next t ∧ t.nor = { s.nor with base := e.2, journal := [] } := by
  refine ⟨_, ?_, nor_eraseUnits { s with nor := { s.nor with base := e.2, journal := [] } } foldUnits⟩
  rw [exec, execJournalFold, hlast]
  dsimp only
  rw [hc, hok, decide_eq_true hfull, Bool.not_false, Bool.and_self, Bool.and_self, whenOk_true, reportUnit]

theorem deferredRecordsResume_queues {r : Rec} (hdef : s.cab.deferred = [r]) (hroom : queueBytes s < 6144) :
    ∃ t, exec .deferredRecordsResume s = .next t ∧ t.cab.deferred = [] ∧
      t.cab.queue = s.cab.queue ++ [{ r with seqNo := s.cab.nextSeq }] := by
  have hfits : queueBytes { s with cab := { s.cab with deferred := [] } } + recBytes r ≤ queueCap :=
    recBytes_fits (s := s) r (by omega)
  refine ⟨arrive { s with cab := { s.cab with deferred := [] } } r, ?_, rfl, ?_⟩
  · rw [exec, execDeferredRecordsResume, hc, hdef, decide_eq_true hroom]
    rfl
  · rw [arrive_fits _ _ hfits]

end

theorem cabinetPeriodic : Says.CabinetPeriodic := by
  intro s hc hok
  refine ⟨?_, operatingTimeTick_counts hc, meterIntervalEnd_reports hc, journalEntryWrite_next hc hok,
    fun e hlast hfull => journalFold_folds hc hok hlast hfull, fun r hdef hroom => deferredRecordsResume_queues hc hdef hroom⟩
  rw [exec, execSnapshotTimer, hc, whenOk_true, writeSnapshot, hok, if_neg Bool.false_ne_true]

/-- Settles O31: each row by the state that it answers. That the fold starts from 48 entries on is log entry 38, the model's choice. -/
theorem cabinetRows : Obligations.CabinetRows := ⟨recordsArriveAndCommit, cabinetPeriodic⟩

/-! ### LOG_OPEN, LOG_CLEAR and DUMP_FETCH -/

theorem nor_complete (s : State) (c : Cmd) (st : Nat) (res : List Word) : (complete s c st res).nor = s.nor :=
  nor_of_erase { fe := true, out := true } rfl (by simp)

section

variable {s : State} {q e : Nat} {c : Cmd}

/-- R334: the record at which LOG_OPEN places the cursor. -/
def logHit (s : State) (c : Cmd) : Option Rec :=
  if c.f 3 0 2 = 0 then (visibleRecs s c.tenant).head? else if c.f 3 0 2 = 1 then (visibleRecs s c.tenant).getLast?
  else (visibleRecs s c.tenant).find? (fun r => decide (c.w 4 + c.w 5 * 2 ^ 32 ≤ r.seqNo))

theorem logOpen_next (hok : s.cab.failed = false) {r old : Rec} {vis : List Rec} (hrun : runCmd s q e opLogOpen = some c)
    (hres : reservedOk c [(3, 0x103), (4, 0xFFFFFFFF), (5, 0xFFFFFFFF)] = true) (hstart : c.f 3 0 2 ≠ 3)
    (hvis : visibleRecs s c.tenant = old :: vis) (hhit : logHit s c = some r) :
    exec (.logOpen q e) s = .next (complete
      (modCursor s c.tenant (fun _ => { opened := true, atEnd := false, follow := c.b 3 8, seqNo := r.seqNo })) c stOk
      (w64 r.seqNo ++ [w32 old.seqNo, w32 ((committed s).filter (fun x => decide (r.seqNo ≤ x.seqNo))).length])) := by
  rw [logHit] at hhit
  rw [exec, execLogOpen, hrun, whenSome_some]
  dsimp only
  rw [if_neg (by simp [hres, hstart]), hhit, hvis]
  simp [modCursor, hok]

theorem logClear_clears (hok : s.cab.failed = false) (hrun : runCmd s q e opLogClear = some c)
    (hres : reservedOk c [(3, 0xFFFFFFFF), (4, 0xFFFFFFFF)] = true) (hidle : s.cab.reclaim = false) {x : Rec}
    (hlast : (committed s).getLast? = some x) :
    ∃ t, exec (.logClear q e) s = .next t ∧ t.nor.ring = s.nor.ring.map (fun r =>
      if r.seqNo ≤ min (c.w 3 + c.w 4 * 2 ^ 32) x.seqNo then { r with cleared := true } else r) := by
  rw [exec, execLogClear, hrun, whenSome_some, if_neg (by simp [hres]), if_neg (by simp [hidle]), hlast]
  refine ⟨_, rfl, ?_⟩
  rw [nor_complete]
  simp [emitWords, emitBody, clearThrough, cursorsPast, hok]

theorem dumpFetch_next {d : Dump} (hok : s.cab.failed = false) (hrun : runCmd s q e opDumpFetch = some c) (hdesc : outDescOk c = true)
    (hres : reservedOk c [(3, 3), (4, 0xFFFFFFFF), (11, 0xFFFFFFFF), (12, 0xFFFFFFFF), (13, 0xFFFFFFFF)] = true)
    (hfind : tfind s.nor.dumps (c.f 3 0 2) = some d) (hmay : d.tenant = c.tenant ∨ (c.tenant = 0 ∧ c.priv = true)) {size sent : Nat}
    (hsize : size = 4 * (dumpStream (c.f 3 0 2) d).length) (hoff : c.w 4 ≤ size) (hsent : sent = min (size - c.w 4) (outLen c)) :
    exec (.dumpFetch q e) s = .next (completeBulk
      (if size ≤ c.w 4 + sent then
        { s with nor := { s.nor with dumps := tset s.nor.dumps (c.f 3 0 2) { d with readEnd := true } } } else s)
      c stOk [w32 sent, w32 size, w32 d.tenant] (wordsOfBytes ((bytesOf (dumpStream (c.f 3 0 2) d)).drop (c.w 4)))) := by
  have hgood : ¬ ((d.tenant ≠ c.tenant ∧ !(c.tenant = 0 ∧ c.priv)) ∨ size < c.w 4 ∨ s.cab.failed = true) := by
    rintro (⟨hother, hno⟩ | hpast | hfail)
    · simp_all
    · omega
    · simp [hok] at hfail
  rw [exec, execDumpFetch, hrun, whenSome_some]
  dsimp only
  rw [if_neg (by simp [hres, hdesc]), hfind]
  dsimp only
  rw [← hsize, if_neg hgood, ← hsent]

end

theorem nor_completeBulk (s : State) (c : Cmd) (st : Nat) (res bulk : List Word) : (completeBulk s c st res bulk).nor = s.nor :=
  nor_of_erase { fe := true, out := true } rfl (by simp)

/-- Settles O33: LOG_OPEN by the record that it hits, LOG_CLEAR by the marks it leaves on the ring, DUMP_FETCH by what is left to send. -/
theorem logCommands : Obligations.LogCommands := by
  intro s q e c hok
  refine ⟨fun r old vis hrun hres hstart hvis hhit => ?_, fun hrun hres hidle x hlast => logClear_clears hok hrun hres hidle hlast,
    fun d hrun hdesc hres hfind hmay size sent hsize hoff hsent => ?_⟩
  · exact ⟨_, _, logOpen_next hok hrun hres hstart hvis hhit, by rw [cursorOf_complete, cursorOf_modCursor], rfl⟩
  · refine ⟨_, _, dumpFetch_next hok hrun hdesc hres hfind hmay hsize hoff hsent, rfl, ?_⟩
    rw [nor_completeBulk]
    split
    · exact tfind_tset_same _ _ _
    · exact hfind

end Sys2Proof.Machine
end

section
/-! SUPPORT. The commit queue over a step (R327, R329). -/

namespace Sys2Proof.Machine

/-! ### Outcomes that keep the commit queue -/

/-- Where the outcome is a next state, its commit queue is as it must be. -/
def QueueOkAfter : Result → Prop
  | .next t => QueueOk t
  | .fault _ => True
  | .refused _ => True

@[simp] theorem queueOkAfter_next (t : State) : QueueOkAfter (.next t) ↔ QueueOk t := Iff.rfl
@[simp] theorem queueOkAfter_fault (r : Fault) : QueueOkAfter (.fault r) := trivial
@[simp] theorem queueOkAfter_idle (s : State) (why : String) : QueueOkAfter (idle s why) ↔ QueueOk s := Iff.rfl

@[simp ↓] theorem queueOkAfter_ite (c : Prop) [Decidable c] (a b : Result) (ha : QueueOkAfter a) (hb : QueueOkAfter b) :
    QueueOkAfter (if c then a else b) := by
  split <;> assumption

@[simp ↓] theorem queueOkAfter_whenOk (s : State) (c : Bool) (why : String) (t : State) (hs : QueueOk s) (ht : QueueOk t) :
    QueueOkAfter (whenOk s c why t) := by
  cases c
  · exact hs
  · exact ht

@[simp ↓] theorem queueOkAfter_whenSome {α : Type} (s : State) (o : Option α) (why : String) (k : α → Result) (hs : QueueOk s)
    (hk : ∀ a, QueueOkAfter (k a)) : QueueOkAfter (whenSome s o why k) := by
  cases o with
  | none => exact hs
  | some a => exact hk a

@[simp ↓] theorem queueOkAfter_served (row : String) (t : Nat) (s u : State) (hs : QueueOk s) (hu : QueueOk u) :
    QueueOkAfter (served row t s u) := queueOkAfter_ite _ _ _ trivial (queueOk_ite _ _ _ hu hs)

@[simp ↓] theorem queueOkAfter_smbWrite (s t : State) (pecOk : Bool) (hs : QueueOk s) (ht : QueueOk t) :
    QueueOkAfter (smbWrite s pecOk t) := by
  unfold smbWrite
  simp [hs, ht]

@[simp ↓] theorem queueOkAfter_consoleRun (s t : State) (role : Nat) (rom : Bool) (hs : QueueOk s) (ht : QueueOk t) :
    QueueOkAfter (consoleRun s role rom t) :=
  queueOkAfter_ite _ _ _ hs (queueOk_ite _ _ _ ht (queueOk_consoleRefuse s hs))

@[simp] theorem queueOk_execCommandFetch (q : Nat) (words : List Word) (s : State) (hs : QueueOk s) :
    QueueOkAfter (execCommandFetch q words s) := by
  unfold execCommandFetch
  refine queueOkAfter_ite _ _ _ trivial (queueOkAfter_ite _ _ _ hs (queueOkAfter_ite _ _ _ (by simp +contextual (maxDischargeDepth := 200) [hs]) ?_))
  extract_lets dom c newTurn s1 _ s2
  have h2 : QueueOk s2 := by simp +contextual (maxDischargeDepth := 200) [s2, s1, hs]
  clear_value s2
  split
  · simp +contextual (maxDischargeDepth := 200) [h2]
  · have h4 := queueOk_check4 s2 c h2
    split
    next u hu => rw [hu] at h4; simp +contextual (maxDischargeDepth := 200) [h4]
    next u hu => rw [hu] at h4; simp +contextual (maxDischargeDepth := 200) [h4]

@[simp] theorem queueOk_execMapGridLoad (q e : Nat) (dir : List DirEntry) (s : State) (hs : QueueOk s) :
    QueueOkAfter (execMapGridLoad q e dir s) := by
  unfold execMapGridLoad
  refine queueOkAfter_whenSome _ _ _ _ hs fun c => queueOkAfter_ite _ _ _ hs ?_
  extract_lets okWords
  split
  · simp +contextual (maxDischargeDepth := 200) [hs]
  next x =>
    extract_lets fs borrow ms s1 s2 missing total borrowed s3 s4
    have h2 : QueueOk s2 := by simp +contextual (maxDischargeDepth := 200) [s2, s1, hs]
    have h4 : QueueOk s4 := by simp +contextual (maxDischargeDepth := 200) [s4, s3, h2]
    clear_value s4 s2
    simp +contextual (maxDischargeDepth := 200) [hs, h2, h4]

@[simp] theorem queueOk_execUnmapUnload (q e : Nat) (s : State) (hs : QueueOk s) :
    QueueOkAfter (execUnmapUnload q e s) := by
  unfold execUnmapUnload
  refine queueOkAfter_whenSome _ _ _ _ hs fun c => ?_
  cases partOf s c.part <;> simp +contextual (maxDischargeDepth := 200) [hs]

@[simp] theorem queueOk_execUnmapDissolve (q e : Nat) (s : State) (hs : QueueOk s) :
    QueueOkAfter (execUnmapDissolve q e s) := by
  unfold execUnmapDissolve
  refine queueOkAfter_whenSome _ _ _ _ hs fun c => ?_
  cases partOf s c.part <;> simp +contextual (maxDischargeDepth := 200) [hs]

@[simp] theorem queueOk_execExpel (q e : Nat) (s : State) (hs : QueueOk s) :
    QueueOkAfter (execExpel q e s) := by
  unfold execExpel
  refine queueOkAfter_whenSome _ _ _ _ hs fun c => ?_
  cases partOf s c.part with
  | none => simp +contextual (maxDischargeDepth := 200) [hs]
  | some y =>
    refine queueOkAfter_ite _ _ _ (by simp +contextual (maxDischargeDepth := 200) [hs])
      (queueOkAfter_ite _ _ _ (by simp +contextual (maxDischargeDepth := 200) [hs]) ?_)
    dsimp only
    split <;> simp +contextual (maxDischargeDepth := 200) [hs]

@[simp] theorem queueOk_execQuarantine (q e : Nat) (s : State) (hs : QueueOk s) :
    QueueOkAfter (execQuarantine q e s) := by
  simp +contextual (maxDischargeDepth := 200) [execQuarantine, hs]

@[simp] theorem queueOk_execRelease (q e : Nat) (s : State) (hs : QueueOk s) :
    QueueOkAfter (execRelease q e s) := by
  simp +contextual (maxDischargeDepth := 200) [execRelease, hs]

@[simp] theorem queueOk_execLogClear (q e : Nat) (s : State) (hs : QueueOk s) :
    QueueOkAfter (execLogClear q e s) := by
  simp +contextual (maxDischargeDepth := 200) [execLogClear, hs]

@[simp] theorem queueOk_execPowerCap (q e : Nat) (s : State) (hs : QueueOk s) :
    QueueOkAfter (execPowerCap q e s) := by
  simp +contextual (maxDischargeDepth := 200) [execPowerCap, hs]

@[simp] theorem queueOk_execThermalRead (q e : Nat) (readings : List (Option Int)) (s : State) (hs : QueueOk s) :
    QueueOkAfter (execThermalRead q e readings s) := by
  simp +contextual (maxDischargeDepth := 200) [execThermalRead, hs]

@[simp] theorem queueOk_execCounterFreeze (q e : Nat) (s : State) (hs : QueueOk s) :
    QueueOkAfter (execCounterFreeze q e s) := by
  unfold execCounterFreeze
  refine queueOkAfter_whenSome _ _ _ _ hs fun c => ?_
  cases partOf s c.part <;> simp +contextual (maxDischargeDepth := 200) [hs]

@[simp] theorem queueOk_execFreezeTrigger (p : Nat) (cuts : List FreezeCut) (s : State) (hs : QueueOk s) :
    QueueOkAfter (execFreezeTrigger p cuts s) := by
  simp +contextual (maxDischargeDepth := 200) [execFreezeTrigger, hs]

@[simp] theorem queueOk_execTimeAlignTreeStable (p : Nat) (peers : List PeerInfo) (s : State) (hs : QueueOk s) :
    QueueOkAfter (execTimeAlignTreeStable p peers s) := by
  simp +contextual (maxDischargeDepth := 200) [execTimeAlignTreeStable, hs]

@[simp] theorem queueOk_execTenantScrub (q e : Nat) (s : State) (hs : QueueOk s) :
    QueueOkAfter (execTenantScrub q e s) := by
  simp +contextual (maxDischargeDepth := 200) [execTenantScrub, hs]

@[simp] theorem queueOk_execScrubComplete (handle : Nat) (stuck : List (Nat × Nat)) (durationMs : Nat) (s : State) (hs : QueueOk s) :
    QueueOkAfter (execScrubComplete handle stuck durationMs s) := by
  unfold execScrubComplete
  refine queueOkAfter_whenSome _ _ _ _ hs fun o => ?_
  extract_lets t fs s1 s2 golden owned slots s3 _ s4 s5 s6 key front seqNo r s7
  have h2 : QueueOk s2 := by
    refine queueOk_foldl _ (fun u r hu => ?_) _ _ (by simp +contextual (maxDischargeDepth := 200) [s1, hs])
    split
    · simp +contextual (maxDischargeDepth := 200) [hu]
    · split
      next v hv => exact queueOk_retireRow u v _ _ _ _ hu hv
      next => simp +contextual (maxDischargeDepth := 200) [hu]
  have h4 : QueueOk s4 := by simp +contextual (maxDischargeDepth := 200) [s4, s3, h2]
  have h7 : QueueOk s7 := by simp +contextual (maxDischargeDepth := 200) [s7, s6, s5, h4]
  exact queueOkAfter_ite _ _ _ trivial (queueOkAfter_whenOk _ _ _ _ hs (by simp +contextual (maxDischargeDepth := 200) [h7]))

@[simp] theorem queueOk_execKeyLoad (q e : Nat) (blob : List Byte) (s : State) (hs : QueueOk s) :
    QueueOkAfter (execKeyLoad q e blob s) := by
  unfold execKeyLoad
  refine queueOkAfter_whenSome _ _ _ _ hs fun c => ?_
  extract_lets slot erase bad had _ s1
  have hbad : QueueOkAfter (.next bad) := queueOk_complete s c _ _ hs
  have h1 : QueueOk s1 := hs
  refine queueOkAfter_ite _ _ _ hbad (queueOkAfter_ite _ _ _ (by simp +contextual (maxDischargeDepth := 200) [h1]) (queueOkAfter_ite _ _ _ hbad ?_))
  split
  · exact hbad
  · simp +contextual (maxDischargeDepth := 200) [hs]

@[simp] theorem queueOk_execAlarmAck (q e : Nat) (s : State) (hs : QueueOk s) :
    QueueOkAfter (execAlarmAck q e s) := by
  simp +contextual (maxDischargeDepth := 200) [execAlarmAck, hs]

@[simp] theorem queueOk_execWallclockHiWrite (t : Nat) (value : Word) (s : State) (hs : QueueOk s) :
    QueueOkAfter (execWallclockHiWrite t value s) := by
  simp +contextual (maxDischargeDepth := 200) [execWallclockHiWrite, hs]

@[simp] theorem queueOk_execRegisterWrite (t : Nat) (offset size : Nat) (value : Word) (s : State) (hs : QueueOk s) :
    QueueOkAfter (execRegisterWrite t offset size value s) := by
  simp +contextual (maxDischargeDepth := 200) [execRegisterWrite, hs]

@[simp] theorem queueOk_execSmbCapLimit (pecOk : Bool) (data : BitVec 16) (s : State) (hs : QueueOk s) :
    QueueOkAfter (execSmbCapLimit pecOk data s) := by
  simp +contextual (maxDischargeDepth := 200) [execSmbCapLimit, hs]

@[simp] theorem queueOk_execPinReadbackSample (pin : PinId) (high : Bool) (s : State) (hs : QueueOk s) :
    QueueOkAfter (execPinReadbackSample pin high s) := by
  simp +contextual (maxDischargeDepth := 200) [execPinReadbackSample, hs]

@[simp] theorem queueOk_execPinRetry (pin : PinId) (high : Bool) (s : State) (hs : QueueOk s) :
    QueueOkAfter (execPinRetry pin high s) := by
  simp +contextual (maxDischargeDepth := 200) [execPinRetry, hs]

@[simp] theorem queueOk_execAttnStuck (s : State) (hs : QueueOk s) :
    QueueOkAfter (execAttnStuck s) := by
  simp +contextual (maxDischargeDepth := 200) [execAttnStuck, hs]

@[simp] theorem queueOk_execLidChange (isOpen : Bool) (s : State) (hs : QueueOk s) :
    QueueOkAfter (execLidChange isOpen s) := by
  simp +contextual (maxDischargeDepth := 200) [execLidChange, hs]

@[simp] theorem queueOk_execSupplyGlitch (s : State) (hs : QueueOk s) :
    QueueOkAfter (execSupplyGlitch s) := by
  simp +contextual (maxDischargeDepth := 200) [execSupplyGlitch, hs]

@[simp] theorem queueOk_execClockGlitch (s : State) (hs : QueueOk s) :
    QueueOkAfter (execClockGlitch s) := by
  simp +contextual (maxDischargeDepth := 200) [execClockGlitch, hs]

@[simp] theorem queueOk_execPwrcycTimeout (s : State) (hs : QueueOk s) :
    QueueOkAfter (execPwrcycTimeout s) := by
  simp +contextual (maxDischargeDepth := 200) [execPwrcycTimeout, hs]

@[simp] theorem queueOk_execCycleRequest (s : State) (hs : QueueOk s) :
    QueueOkAfter (execCycleRequest s) := by
  unfold execCycleRequest
  split <;> simp +contextual (maxDischargeDepth := 200) [hs]

@[simp] theorem queueOk_execPowerOn (found : PowerOnFound) (s : State) (hs : QueueOk s) :
    QueueOkAfter (execPowerOn found s) := by
  unfold execPowerOn
  refine queueOkAfter_whenOk _ _ _ _ hs ?_
  extract_lets norOk s1 _ _ _ _ s2 s3 zones s4 s5 _ s6 r s7 s8 s9 s10 s11 s12
  have h1 : QueueOk s1 := by simp +contextual (maxDischargeDepth := 200) [s1, hs]
  have h3 : QueueOk s3 := by simp +contextual (maxDischargeDepth := 200) [s3, s2, h1]
  have h6 : QueueOk s6 := by simp +contextual (maxDischargeDepth := 200) [s6, s5, s4, h3]
  clear_value s6
  have h8 : QueueOk s8 := by simp +contextual (maxDischargeDepth := 200) [s8, s7, h6]
  clear_value s8
  have h12 : QueueOk s12 := by simp +contextual (maxDischargeDepth := 200) [s12, s11, s10, s9, h8]
  simp +contextual (maxDischargeDepth := 200) [h12]

@[simp] theorem queueOk_execZonePgoodLoss (z : Nat) (s : State) (hs : QueueOk s) :
    QueueOkAfter (execZonePgoodLoss z s) := by
  simp +contextual (maxDischargeDepth := 200) [execZonePgoodLoss, hs]

@[simp] theorem queueOk_execZonePgoodReturn (z : Nat) (s : State) (hs : QueueOk s) :
    QueueOkAfter (execZonePgoodReturn z s) := by
  simp +contextual (maxDischargeDepth := 200) [execZonePgoodReturn, hs]

@[simp] theorem queueOk_execZoneTrip (z : Nat) (s : State) (hs : QueueOk s) :
    QueueOkAfter (execZoneTrip z s) := by
  simp +contextual (maxDischargeDepth := 200) [execZoneTrip, hs]

@[simp] theorem queueOk_execTripRestart (source : TripSource) (broken : Nat) (s : State) (hs : QueueOk s) :
    QueueOkAfter (execTripRestart source broken s) := by
  unfold execTripRestart
  refine queueOkAfter_whenSome _ _ _ _ hs fun k => ?_
  cases source <;> simp +contextual (maxDischargeDepth := 200) [hs]

@[simp] theorem queueOk_execSvcSessionEnd (why : SvcEnd) (s : State) (hs : QueueOk s) :
    QueueOkAfter (execSvcSessionEnd why s) := by
  simp +contextual (maxDischargeDepth := 200) [execSvcSessionEnd, hs]

@[simp] theorem queueOk_execConsoleAuth (response : Option (Nat × Nat × Nat)) (s : State) (hs : QueueOk s) :
    QueueOkAfter (execConsoleAuth response s) := by
  unfold execConsoleAuth
  match response with
  | none => simp +contextual (maxDischargeDepth := 200) [hs]
  | some (r, sg, role) => cases s.svc.challenge <;> simp +contextual (maxDischargeDepth := 200) [hs]

@[simp] theorem queueOk_execConsoleAlarmAck (mask : Byte) (s : State) (hs : QueueOk s) :
    QueueOkAfter (execConsoleAlarmAck mask s) := by
  simp +contextual (maxDischargeDepth := 200) [execConsoleAlarmAck, hs]

@[simp] theorem queueOk_execConsoleAdminkey (blob : List Byte) (s : State) (hs : QueueOk s) :
    QueueOkAfter (execConsoleAdminkey blob s) := by
  unfold execConsoleAdminkey
  split <;> simp +contextual (maxDischargeDepth := 200) [hs]

@[simp] theorem queueOk_execPmbusSlot (seg : Nat) (alertLow : Bool) (reply : PmbusReply) (s : State) (hs : QueueOk s) :
    QueueOkAfter (execPmbusSlot seg alertLow reply s) := by
  unfold execPmbusSlot
  refine queueOkAfter_ite _ _ _ trivial (queueOkAfter_ite _ _ _ hs ?_)
  split
  · simp +contextual (maxDischargeDepth := 200) [hs]
  · split
    next t ht => exact queueOk_slotDone s t _ _ _ hs ht
    next => trivial

@[simp] theorem queueOk_execNorFail (cause : Nat) (addr : Nat) (s : State) (hs : QueueOk s) :
    QueueOkAfter (execNorFail cause addr s) := by
  simp +contextual (maxDischargeDepth := 200) [execNorFail, hs]

@[simp] theorem queueOk_execNorRetry (fails : Nat) (s : State) (hs : QueueOk s) :
    QueueOkAfter (execNorRetry fails s) := by
  simp +contextual (maxDischargeDepth := 200) [execNorRetry, hs]

@[simp] theorem queueOk_execRecordArrival (r : RecIn) (s : State) (hs : QueueOk s) :
    QueueOkAfter (execRecordArrival r s) := by
  simp +contextual (maxDischargeDepth := 200) [execRecordArrival, hs]

@[simp] theorem queueOk_execRecordCommit (verified : Bool) (s : State) (hs : QueueOk s) :
    QueueOkAfter (execRecordCommit verified s) := by
  simp +contextual (maxDischargeDepth := 200) [execRecordCommit, hs]

@[simp] theorem queueOk_execSectorReclaim (s : State) (hs : QueueOk s) :
    QueueOkAfter (execSectorReclaim s) := by
  simp +contextual (maxDischargeDepth := 200) [execSectorReclaim, hs]

@[simp] theorem queueOk_execMeterIntervalEnd (s : State) (hs : QueueOk s) :
    QueueOkAfter (execMeterIntervalEnd s) := by
  simp +contextual (maxDischargeDepth := 200) [execMeterIntervalEnd, hs]

@[simp] theorem queueOk_execJournalFold (bad : Option Nat) (s : State) (hs : QueueOk s) :
    QueueOkAfter (execJournalFold bad s) := by
  unfold execJournalFold
  split <;> simp +contextual (maxDischargeDepth := 200) [hs]

@[simp] theorem queueOk_execJournalEntryWrite (bad : Option Nat) (s : State) (hs : QueueOk s) :
    QueueOkAfter (execJournalEntryWrite bad s) := by
  simp +contextual (maxDischargeDepth := 200) [execJournalEntryWrite, hs]

@[simp] theorem queueOk_execDeferredRecordsResume (s : State) (hs : QueueOk s) :
    QueueOkAfter (execDeferredRecordsResume s) := by
  simp +contextual (maxDischargeDepth := 200) [execDeferredRecordsResume, hs]

@[simp] theorem queueOk_execEchoReceive (lane : Nat) (seqNo : Nat) (payload : Nat) (s : State) (hs : QueueOk s) :
    QueueOkAfter (execEchoReceive lane seqNo payload s) := by
  unfold execEchoReceive
  refine queueOkAfter_ite _ _ _ trivial (queueOkAfter_ite _ _ _ hs ?_)
  split <;> simp +contextual (maxDischargeDepth := 200) [hs]

@[simp] theorem queueOk_execLaneSyncLoss (lane : Nat) (s : State) (hs : QueueOk s) :
    QueueOkAfter (execLaneSyncLoss lane s) := by
  simp +contextual (maxDischargeDepth := 200) [execLaneSyncLoss, hs]

@[simp] theorem queueOk_execLaneSyncRegain (lane : Nat) (s : State) (hs : QueueOk s) :
    QueueOkAfter (execLaneSyncRegain lane s) := by
  simp +contextual (maxDischargeDepth := 200) [execLaneSyncRegain, hs]

@[simp] theorem queueOk_execParentLoss (p : Nat) (s : State) (hs : QueueOk s) :
    QueueOkAfter (execParentLoss p s) := by
  unfold execParentLoss
  refine queueOkAfter_whenSome _ _ _ _ hs fun y => queueOkAfter_whenSome _ _ _ _ hs fun t => queueOkAfter_whenSome _ _ _ _ hs fun l =>
    queueOkAfter_ite _ _ _ hs ?_
  split <;> simp +contextual (maxDischargeDepth := 200) [hs]

@[simp] theorem queueOk_execBarrierRelease (p : Nat) (edge : Nat) (s : State) (hs : QueueOk s) :
    QueueOkAfter (execBarrierRelease p edge s) := by
  unfold execBarrierRelease
  refine queueOkAfter_whenSome _ _ _ _ hs fun b => queueOkAfter_whenSome _ _ _ _ hs fun t => queueOkAfter_whenOk _ _ _ _ hs ?_
  dsimp only
  split <;> simp +contextual (maxDischargeDepth := 200) [hs]

@[simp] theorem queueOk_execSramOwnWrite (tile row addr : Nat) (data : List Word) (full readBefore : Bool) (old : BitVec 512)
    (s : State) (hs : QueueOk s) :
    QueueOkAfter (execSramOwnWrite tile row addr data full readBefore old s) := by
  unfold execSramOwnWrite
  refine queueOkAfter_ite _ _ _ trivial (queueOkAfter_whenSome _ _ _ _ hs fun m => ?_)
  dsimp only
  split <;> simp +contextual (maxDischargeDepth := 200) [hs]

@[simp] theorem queueOk_execMeshWriteReceive (tile row : Nat) (readBefore : Bool) (s : State) (hs : QueueOk s) :
    QueueOkAfter (execMeshWriteReceive tile row readBefore s) := by
  simp +contextual (maxDischargeDepth := 200) [execMeshWriteReceive, hs]

@[simp] theorem queueOk_execFieldSeamArrival (f cycles : Nat) (taps : List EngineTap) (s : State) (hs : QueueOk s) :
    QueueOkAfter (execFieldSeamArrival f cycles taps s) := by
  unfold execFieldSeamArrival
  refine queueOkAfter_ite _ _ _ trivial (queueOkAfter_whenOk _ _ _ _ hs ?_)
  split <;> simp +contextual (maxDischargeDepth := 200) [hs]

@[simp] theorem queueOk_execReplayGroupStart (f : Nat) (s : State) (hs : QueueOk s) :
    QueueOkAfter (execReplayGroupStart f s) := by
  simp +contextual (maxDischargeDepth := 200) [execReplayGroupStart, hs]

@[simp] theorem queueOk_execReplayVerdict (g cycles : Nat) (s : State) (hs : QueueOk s) :
    QueueOkAfter (execReplayVerdict g cycles s) := by
  unfold execReplayVerdict
  refine queueOkAfter_whenSome _ _ _ _ hs fun h => ?_
  dsimp only
  split <;> simp +contextual (maxDischargeDepth := 200) [hs]

@[simp] theorem queueOk_execImageCopyDone (f target sent received cycles : Nat) (s : State) (hs : QueueOk s) :
    QueueOkAfter (execImageCopyDone f target sent received cycles s) := by
  unfold execImageCopyDone
  refine queueOkAfter_ite _ _ _ trivial (queueOkAfter_ite _ _ _ hs ?_)
  dsimp only
  split
  · simp +contextual (maxDischargeDepth := 200) [hs]
  · cases hcopy : seamCopyDone s f target (decide (sent = received)) with
    | none => simp +contextual (maxDischargeDepth := 200) [hs]
    | some t =>
      have ht := queueOk_seamCopyDone s t f target _ hs hcopy
      split <;> simp [hs, ht]

@[simp] theorem queueOk_execSpareReplayVerdict (g cycles : Nat) (s : State) (hs : QueueOk s) :
    QueueOkAfter (execSpareReplayVerdict g cycles s) := by
  unfold execSpareReplayVerdict
  refine queueOkAfter_whenSome _ _ _ _ hs fun h => ?_
  dsimp only
  split
  · simp +contextual (maxDischargeDepth := 200) [hs]
  · split <;> simp +contextual (maxDischargeDepth := 200) [hs]

@[simp] theorem queueOk_execReplayAbandoned (g : Nat) (s : State) (hs : QueueOk s) :
    QueueOkAfter (execReplayAbandoned g s) := by
  simp +contextual (maxDischargeDepth := 200) [execReplayAbandoned, hs]

@[simp] theorem queueOk_execFieldRelease (f heldCycles : Nat) (s : State) (hs : QueueOk s) :
    QueueOkAfter (execFieldRelease f heldCycles s) := by
  unfold execFieldRelease
  refine queueOkAfter_ite _ _ _ trivial (queueOkAfter_whenOk _ _ _ _ hs ?_)
  refine queueOk_ite _ _ _ (by simp +contextual (maxDischargeDepth := 200) [hs])
    (queueOk_ite _ _ _ (by simp +contextual (maxDischargeDepth := 200) [hs]) ?_)
  split <;> simp +contextual (maxDischargeDepth := 200) [hs]

@[simp] theorem queueOk_execSpotCheckVerdict (f tile cycles : Nat) (s : State) (hs : QueueOk s) :
    QueueOkAfter (execSpotCheckVerdict f tile cycles s) := by
  unfold execSpotCheckVerdict
  refine queueOkAfter_ite _ _ _ trivial (queueOkAfter_whenSome _ _ _ _ hs fun c => ?_)
  dsimp only
  split <;> simp +contextual (maxDischargeDepth := 200) [hs]

@[simp] theorem queueOk_execErrorSourceLatch (f : Nat) (src : ErrSource) (rootCount cycle : Nat) (s : State) (hs : QueueOk s) :
    QueueOkAfter (execErrorSourceLatch f src rootCount cycle s) := by
  unfold execErrorSourceLatch
  cases src with
  | guardRoot =>
    refine queueOkAfter_ite _ _ _ trivial (queueOkAfter_ite _ _ _ hs
      (queueOkAfter_ite _ _ _ (by simp +contextual (maxDischargeDepth := 200) [hs]) ?_))
    split <;> simp +contextual (maxDischargeDepth := 200) [hs]
  | router d => simp +contextual (maxDischargeDepth := 200) [hs]
  | level d => simp +contextual (maxDischargeDepth := 200) [hs]

@[simp] theorem queueOk_execSourceAcknowledge (f : Nat) (s : State) (hs : QueueOk s) :
    QueueOkAfter (execSourceAcknowledge f s) := by
  unfold execSourceAcknowledge
  refine queueOkAfter_ite _ _ _ trivial (queueOkAfter_whenSome _ _ _ _ hs fun d => ?_)
  extract_lets s1 s2 y
  have h1 : QueueOk s1 := by simp +contextual (maxDischargeDepth := 200) [s1, hs]
  have h2 : QueueOk s2 := by simp +contextual (maxDischargeDepth := 200) [s2, h1]
  clear_value s2
  refine queueOkAfter_ite _ _ _ h2 ?_
  split <;> simp +contextual (maxDischargeDepth := 200) [h2]

@[simp] theorem queueOk_execEccCorrectedNotice (tile row bit : Nat) (s : State) (hs : QueueOk s) :
    QueueOkAfter (execEccCorrectedNotice tile row bit s) := by
  simp +contextual (maxDischargeDepth := 200) [execEccCorrectedNotice, hs]

@[simp] theorem queueOk_execEccUncorrectable (tile row byteAddr : Nat) (instr : Bool) (s : State) (hs : QueueOk s) :
    QueueOkAfter (execEccUncorrectable tile row byteAddr instr s) := by
  unfold execEccUncorrectable
  refine queueOkAfter_ite _ _ _ trivial (queueOkAfter_whenSome _ _ _ _ hs fun m => ?_)
  cases m <;> simp +contextual (maxDischargeDepth := 200) [hs]

@[simp] theorem queueOk_execScrubUncorrectable (tile row : Nat) (s : State) (hs : QueueOk s) :
    QueueOkAfter (execScrubUncorrectable tile row s) := by
  simp +contextual (maxDischargeDepth := 200) [execScrubUncorrectable, hs]

@[simp] theorem queueOk_execScrubPassDone (t ctx : Nat) (parts : List Nat) (s : State) (hs : QueueOk s) :
    QueueOkAfter (execScrubPassDone t ctx parts s) := by
  simp +contextual (maxDischargeDepth := 200) [execScrubPassDone, hs]

@[simp] theorem queueOk_execEpisodeClose (f : Nat) (s : State) (hs : QueueOk s) :
    QueueOkAfter (execEpisodeClose f s) := by
  simp +contextual (maxDischargeDepth := 200) [execEpisodeClose, hs]

@[simp] theorem queueOk_execRateSummary (f : Nat) (s : State) (hs : QueueOk s) :
    QueueOkAfter (execRateSummary f s) := by
  simp +contextual (maxDischargeDepth := 200) [execRateSummary, hs]

@[simp] theorem queueOk_execStormMergeCommit (s : State) (hs : QueueOk s) :
    QueueOkAfter (execStormMergeCommit s) := by
  simp +contextual (maxDischargeDepth := 200) [execStormMergeCommit, hs]

@[simp] theorem queueOk_execSignatureSigned (s : State) (hs : QueueOk s) :
    QueueOkAfter (execSignatureSigned s) := by
  unfold execSignatureSigned
  split <;> simp +contextual (maxDischargeDepth := 200) [hs]

@[simp] theorem queueOk_execDroopDetect (f lowestMv cycle : Nat) (s : State) (hs : QueueOk s) :
    QueueOkAfter (execDroopDetect f lowestMv cycle s) := by
  simp +contextual (maxDischargeDepth := 200) [execDroopDetect, hs]

@[simp] theorem queueOk_execLinkResendThreshold (tile edge resends : Nat) (s : State) (hs : QueueOk s) :
    QueueOkAfter (execLinkResendThreshold tile edge resends s) := by
  simp +contextual (maxDischargeDepth := 200) [execLinkResendThreshold, hs]

@[simp] theorem queueOk_execWardenSlotParity (f slot : Nat) (s : State) (hs : QueueOk s) :
    QueueOkAfter (execWardenSlotParity f slot s) := by
  simp +contextual (maxDischargeDepth := 200) [execWardenSlotParity, hs]

@[simp] theorem queueOk_execWardenHeartbeatMiss (f : Nat) (s : State) (hs : QueueOk s) :
    QueueOkAfter (execWardenHeartbeatMiss f s) := by
  simp +contextual (maxDischargeDepth := 200) [execWardenHeartbeatMiss, hs]

@[simp] theorem queueOk_execWardenRestartTimeout (f : Nat) (s : State) (hs : QueueOk s) :
    QueueOkAfter (execWardenRestartTimeout f s) := by
  simp +contextual (maxDischargeDepth := 200) [execWardenRestartTimeout, hs]

@[simp] theorem queueOk_execHubWatchdogFire (s : State) (hs : QueueOk s) :
    QueueOkAfter (execHubWatchdogFire s) := by
  simp +contextual (maxDischargeDepth := 200) [execHubWatchdogFire, hs]

@[simp] theorem queueOk_execHubRestart (s : State) (hs : QueueOk s) :
    QueueOkAfter (execHubRestart s) := by
  simp +contextual (maxDischargeDepth := 200) [execHubRestart, hs]

@[simp] theorem queueOk_execHostLoss (s : State) (hs : QueueOk s) :
    QueueOkAfter (execHostLoss s) := by
  simp +contextual (maxDischargeDepth := 200) [execHostLoss, hs]

@[simp] theorem queueOk_execQuiesceComplete (s : State) (hs : QueueOk s) :
    QueueOkAfter (execQuiesceComplete s) := by
  simp +contextual (maxDischargeDepth := 200) [execQuiesceComplete, hs]

@[simp] theorem queueOk_execResetStart (s : State) (hs : QueueOk s) :
    QueueOkAfter (execResetStart s) := by
  simp +contextual (maxDischargeDepth := 200) [execResetStart, hs]

@[simp] theorem queueOk_execResetComplete (domain : Nat) (micros : Nat) (s : State) (hs : QueueOk s) :
    QueueOkAfter (execResetComplete domain micros s) := by
  unfold execResetComplete
  refine queueOkAfter_whenSome _ _ _ _ hs fun r => queueOkAfter_whenOk _ _ _ _ hs ?_
  extract_lets _ s1 s2 ps s3 s4 gen word seqNo _ s5 s6 s7
  have h4 : QueueOk s4 := by simp +contextual (maxDischargeDepth := 200) [s4, s3, s2, s1, hs]
  clear_value s4
  have h7 : QueueOk s7 := by simp +contextual (maxDischargeDepth := 200) [s7, s6, s5, h4]
  clear_value s7
  split <;> simp +contextual (maxDischargeDepth := 200) [h7]

@[simp] theorem queueOk_execStaleRecordTimer (domain : Nat) (s : State) (hs : QueueOk s) :
    QueueOkAfter (execStaleRecordTimer domain s) := by
  simp +contextual (maxDischargeDepth := 200) [execStaleRecordTimer, hs]

@[simp] theorem queueOk_execDumpWriteDone (bad : Option Nat) (s : State) (hs : QueueOk s) :
    QueueOkAfter (execDumpWriteDone bad s) := by
  simp +contextual (maxDischargeDepth := 200) [execDumpWriteDone, hs]

@[simp] theorem queueOk_execArbiterReplan (s : State) (hs : QueueOk s) :
    QueueOkAfter (execArbiterReplan s) := by
  simp +contextual (maxDischargeDepth := 200) [execArbiterReplan, hs]

@[simp] theorem queueOk_execThermalModelUpdate (f : Nat) (s : State) (hs : QueueOk s) :
    QueueOkAfter (execThermalModelUpdate f s) := by
  simp +contextual (maxDischargeDepth := 200) [execThermalModelUpdate, hs]

@[simp] theorem queueOk_execDiodeReadDone (f diode : Nat) (reading : Option Int) (others : List (Nat × Option Int)) (s : State) (hs : QueueOk s) :
    QueueOkAfter (execDiodeReadDone f diode reading others s) := by
  simp +contextual (maxDischargeDepth := 200) [execDiodeReadDone, hs]

@[simp] theorem queueOk_execFieldShutdown (f : Nat) (s : State) (hs : QueueOk s) :
    QueueOkAfter (execFieldShutdown f s) := by
  simp +contextual (maxDischargeDepth := 200) [execFieldShutdown, hs]

@[simp] theorem queueOk_execShutdownProceed (f : Nat) (s : State) (hs : QueueOk s) :
    QueueOkAfter (execShutdownProceed f s) := by
  simp +contextual (maxDischargeDepth := 200) [execShutdownProceed, hs]

@[simp] theorem queueOk_execThermalRestart (f : Nat) (s : State) (hs : QueueOk s) :
    QueueOkAfter (execThermalRestart f s) := by
  simp +contextual (maxDischargeDepth := 200) [execThermalRestart, hs]

@[simp] theorem queueOk_execBenchSegmentEnd (f slot : Nat) (seg : SegmentEnd) (s : State) (hs : QueueOk s) :
    QueueOkAfter (execBenchSegmentEnd f slot seg s) := by
  unfold execBenchSegmentEnd
  refine queueOkAfter_ite _ _ _ trivial (queueOkAfter_whenSome _ _ _ _ hs fun b => queueOkAfter_ite _ _ _ hs ?_)
  refine queueOkAfter_ite _ _ _ (by simp +contextual (maxDischargeDepth := 200) [hs]) ?_
  extract_lets s1 d
  have h1 : QueueOk s1 := by simp +contextual (maxDischargeDepth := 200) [s1, hs]
  clear_value s1 d
  simp +contextual (maxDischargeDepth := 200) [h1]

@[simp] theorem queueOk_execBenchSlotStart (f slot : Nat) (s : State) (hs : QueueOk s) :
    QueueOkAfter (execBenchSlotStart f slot s) := by
  unfold execBenchSlotStart
  refine queueOkAfter_ite _ _ _ trivial (queueOkAfter_ite _ _ _ hs ?_)
  dsimp only
  split <;> simp +contextual (maxDischargeDepth := 200) [hs]

@[simp] theorem queueOk_execBenchOverdue (tile : Nat) (s : State) (hs : QueueOk s) :
    QueueOkAfter (execBenchOverdue tile s) := by
  simp +contextual (maxDischargeDepth := 200) [execBenchOverdue, hs]

@[simp] theorem queueOk_execComparisonClose (t ctx : Nat) (s : State) (hs : QueueOk s) :
    QueueOkAfter (execComparisonClose t ctx s) := by
  simp +contextual (maxDischargeDepth := 200) [execComparisonClose, hs]

@[simp] theorem queueOk_execReverifyDone (t group : Nat) (fresh : List (Nat × Nat)) (s : State) (hs : QueueOk s) :
    QueueOkAfter (execReverifyDone t group fresh s) := by
  unfold execReverifyDone
  extract_lets ks remote fs
  split
  · extract_lets res heard s1 s2 _ s3 s4 w s5
    have h2 : QueueOk s2 := by simp +contextual (maxDischargeDepth := 200) [s2, s1, hs]
    have h4 : QueueOk s4 := queueOk_foldl _ (fun u e hu => by split <;> simp +contextual (maxDischargeDepth := 200) [hu]) _ _ h2
    refine queueOkAfter_ite _ _ _ hs (queueOkAfter_ite _ _ _ trivial (queueOkAfter_ite _ _ _ ?_ (queueOkAfter_ite _ _ _ h4 ?_)))
    · simp +contextual (maxDischargeDepth := 200) [s3, h2]
    · simp +contextual (maxDischargeDepth := 200) [s5, h4]
  · exact hs

@[simp] theorem queueOk_execStageComplete (found : StageFound) (s : State) (hs : QueueOk s) :
    QueueOkAfter (execStageComplete found s) := by
  simp +contextual (maxDischargeDepth := 200) [execStageComplete, hs]

@[simp] theorem queueOk_execStageTimeout (s : State) (hs : QueueOk s) :
    QueueOkAfter (execStageTimeout s) := by
  simp +contextual (maxDischargeDepth := 200) [execStageTimeout, hs]

@[simp] theorem queueOk_execWaveStart (s : State) (hs : QueueOk s) :
    QueueOkAfter (execWaveStart s) := by
  simp +contextual (maxDischargeDepth := 200) [execWaveStart, hs]

@[simp] theorem queueOk_execWardenStartFail (f : Nat) (s : State) (hs : QueueOk s) :
    QueueOkAfter (execWardenStartFail f s) := by
  simp +contextual (maxDischargeDepth := 200) [execWardenStartFail, hs]

@[simp] theorem queueOk_execHubHeartbeatToggle (s : State) (hs : QueueOk s) :
    QueueOkAfter (execHubHeartbeatToggle s) := by
  simp +contextual (maxDischargeDepth := 200) [execHubHeartbeatToggle, hs]

@[simp] theorem queueOk_execHubFeedLoss (s : State) (hs : QueueOk s) :
    QueueOkAfter (execHubFeedLoss s) := by
  simp +contextual (maxDischargeDepth := 200) [execHubFeedLoss, hs]


/-! ### Every command, and a step -/

theorem queueOk_of_erase (κ : Mask) {s t : State} (hκ : κ.arrivals = false) (h : erase κ t = erase κ s) (hs : QueueOk s) :
    QueueOk t := by
  have hqueue : t.cab.queue = s.cab.queue := by simpa [erase, eraseCab, hκ] using congrArg (fun u : State => u.cab.queue) h
  have hnext : t.cab.nextSeq = s.cab.nextSeq := by simpa [erase, eraseCab, hκ] using congrArg (fun u : State => u.cab.nextSeq) h
  exact queueOk_of_eq s t hs hqueue (Nat.le_of_eq hnext.symm)

/-- A row into whose frame no record arrives. -/
theorem queueOkAfter_of_keepsRest (κ : Mask) {s : State} (hκ : κ.arrivals = false) (hs : QueueOk s) {r : Result}
    (h : KeepsRest κ s r) : QueueOkAfter r := by
  cases r with
  | next t => exact queueOk_of_erase κ hκ h hs
  | fault => trivial
  | refused => trivial

/-- A row whose frame has no arrivals leaves the queue; the others have their own lemma above. -/
theorem queueOkAfter_exec (i : Instr) (s : State) (hs : QueueOk s) : QueueOkAfter (exec i s) := by
  cases ha : (changes i).arrivals with
  | false => exact queueOkAfter_of_keepsRest (changes i) ha hs (keepsRest_exec i s)
  | true => cases i <;> cases ha <;> simp [exec, hs]

/-- Settles O4: time passes on an empty queue, which touches no record; else the front command is carried out. -/
theorem stepKeepsCommitQueue : Obligations.StepKeepsCommitQueue := by
  intro s t hs ht
  cases hpending : s.pending with
  | nil =>
    rw [step_nil s hpending] at ht
    cases ht
    exact queueOk_passTime s hs
  | cons c rest =>
    rw [step_cons s c rest hpending] at ht
    have h := queueOkAfter_exec c { s with pending := rest } hs
    rwa [ht] at h

end Sys2Proof.Machine
end

section
/-! SUPPORT. The thermal model: what a step of it, a diode read and a throttling replan leave (R372 to R382, R389). -/

namespace Sys2Proof.Machine

/-! ### The thermal state of a field and of the hub -/

@[simp] theorem thermOf_setTherm (s : State) (f : Nat) (x : Thermal) : thermOf (setTherm s f x) f = x := by
  unfold thermOf setTherm
  split
  · rfl
  · rw [fieldOf_modField]

theorem thermOf_congr {s t : State} (hf : fieldView (·.therm) t = fieldView (·.therm) s) (ha : t.arb = s.arb) (f : Nat) :
    thermOf t f = thermOf s f := by
  rw [thermOf, thermOf, ha, read_of_fieldView hf f]

theorem thermOf_wardenSends (s : State) (f typ : Nat) (part : Option Nat) (ws : List Word) (g : Nat) :
    thermOf (wardenSends s f typ part ws) g = thermOf s g := by
  refine thermOf_congr ?_ (arb_of_erase { fields := true, arrivals := true } rfl rfl (by simp)) g
  unfold wardenSends
  simp

theorem thermOf_setThermWarn (s : State) (f : Nat) : thermOf (setThermWarn s) f = thermOf s f := by
  have he : erase { out := true, status := true } (setThermWarn s) = erase { out := true, status := true } s := by simp
  exact thermOf_congr (fieldView_of_erase _ rfl he) (arb_of_erase _ rfl rfl he) f

/-! ### The nodes and the band -/

/-- R372, R379: the three nodes and the band. -/
def heat (x : Thermal) : Int × Int × Int × Nat := (x.node0, x.node1, x.node2, x.band)

theorem heat_emitThermBand (s : State) (f old new : Nat) (rate : Bool) :
    heat (thermOf (emitThermBand s f old new rate) f) = heat (thermOf s f) := by
  unfold emitThermBand
  dsimp only
  split
  · rw [thermOf_setTherm]; rfl
  · rw [thermOf_wardenSends, thermOf_setTherm]; rfl

/-- R379: the band is set, and the nodes stay. -/
theorem heat_setBand (s : State) (f new : Nat) (reads : Bool) :
    heat (thermOf (setBand s f new reads) f) = heat { thermOf s f with band := new } := by
  unfold setBand
  dsimp only
  split
  · rw [thermOf_setTherm]
  · split
    next hsame => rw [hsame]
    next => rw [thermOf_setThermWarn, heat_emitThermBand, thermOf_setTherm]; rfl

theorem heat_noteRise (s : State) (f : Nat) : heat (thermOf (noteRise s f) f) = heat (thermOf s f) := by
  unfold noteRise
  dsimp only
  split
  · rfl
  · split_ifs
    · rw [thermOf_setTherm]; rfl
    · rfl
    · rw [heat_emitThermBand, thermOf_setTherm]; rfl
    · rfl

theorem heat_noteCool (s : State) (f : Nat) : heat (thermOf (noteCool s f) f) = heat (thermOf s f) := by
  unfold noteCool
  dsimp only
  split
  · rfl
  · split <;> split
    · rw [thermOf_setTherm]; rfl
    · rfl
    · rfl
    · rw [thermOf_setTherm]; rfl

/-- R384: without a shutdown that has been carried out nothing counts towards a return. -/
theorem noteCool_notShut {s : State} {f : Nat} (h : (thermOf s f).shutDone = false) : noteCool s f = s := by
  rw [noteCool, h]
  rfl

/-- R372, R379: one step of the model, and the band it gives. -/
theorem thermalModelUpdate_heat {s : State} {f : Nat} (hf : f ≤ hubField) (hup : thermUp s f = true) :
    ∃ t, exec (.thermalModelUpdate f) s = .next t ∧ heat (thermOf t f) = heat { modelStep s f (thermOf s f) with
      band := bandWith (modelStep s f (thermOf s f)) (bandNext (thermOf s f).band (modelStep s f (thermOf s f)).node0) } := by
  rw [exec, execThermalModelUpdate, if_neg (by omega), hup, whenOk_true]
  refine ⟨_, rfl, ?_⟩
  dsimp only
  rw [heat_noteCool]
  split
  · rw [heat_setBand, thermOf_setTherm]; rfl
  · rw [heat_noteRise, heat_setBand, thermOf_setTherm]; rfl

/-! ### Diodes -/

theorem goodDiodes_none {x : Thermal} (h : x.excluded = []) : goodDiodes x = List.range 4 := by
  simp [goodDiodes, h]

/-- R375: with every diode in service the rotation reads the next one. -/
theorem diodeRotation_next {s : State} {f : Nat} (hf : f ≤ hubField) (hup : thermUp s f = true) (hshut : (thermOf s f).shut = none)
    (hexcl : (thermOf s f).excluded = []) : ∃ t, exec (.diodeRotation f) s = .next t ∧
      (thermOf t f).next = ((thermOf s f).next % 4 + 1) % 4 ∧ (thermOf s f).next % 4 ∈ (thermOf t f).pending := by
  have hlt : (thermOf s f).next % 4 < 4 := Nat.mod_lt _ (by decide)
  rw [exec, execDiodeRotation, if_neg (by omega), hup, whenOk_true]
  refine ⟨_, rfl, ?_⟩
  rw [thermOf_setTherm]
  have hd : (((List.range 4).map (fun i => ((thermOf s f).next + i) % 4)).find? (fun d => (goodDiodes (thermOf s f)).contains d)) =
      some ((thermOf s f).next % 4) := by
    exact List.find?_cons_of_pos (by rw [goodDiodes_none hexcl]; simpa using hlt)
  dsimp only
  rw [hshut, hd]
  by_cases hp : (thermOf s f).next % 4 ∈ (thermOf s f).pending <;> simp [hp]

theorem calibrateTref_keeps (s : State) (x : Thermal) (r : Option Int) :
    (calibrateTref s x r).hold = x.hold ∧ (calibrateTref s x r).shutDone = x.shutDone := by
  unfold calibrateTref
  split
  · split <;> exact ⟨rfl, rfl⟩
  · exact ⟨rfl, rfl⟩

/-- R376: a good read of a field without a sensor hold is kept and moves T_ref, and no more. -/
theorem diodeReadDone_good {s : State} {f d : Nat} (hf : f ≤ hubField) (hup : thermUp s f = true) {r : Option Int} (hd : d < 4)
    (hpend : (thermOf s f).pending.contains d = true) (hgood : readGood (thermOf s f) r = true) (hhold : (thermOf s f).hold = false)
    (hshut : (thermOf s f).shutDone = false) : exec (.diodeReadDone f d r []) s =
      .next (setTherm s f (calibrateTref s (storeReading (thermOf s f) d r) r)) := by
  obtain ⟨hhold', hshut'⟩ := calibrateTref_keeps s (storeReading (thermOf s f) d r) r
  have hread : readDiode s f d r [] = setTherm s f (calibrateTref s (storeReading (thermOf s f) d r) r) := by
    rw [readDiode]
    dsimp only
    rw [if_pos hgood, if_neg (by rw [hhold']; simp [storeReading, hhold])]
  rw [exec, execDiodeReadDone, if_neg (by omega)]
  dsimp only
  rw [hgood, hup, hpend, Bool.not_true, Bool.false_and, if_neg Bool.false_ne_true, Bool.and_self, whenOk_true, hread,
    noteCool_notShut (by rw [thermOf_setTherm, hshut']; exact hshut)]

/-- R389: without a fresh read THERMAL_READ answers from what the model holds. -/
theorem thermalRead_last {s : State} {f q e : Nat} {c : Cmd} (hrun : runCmd s q e opThermalRead = some c) (hleg : s.regs.legacy = false)
    (hfresh : c.b 3 8 = false) (hn : c.f 3 0 7 = 0x7F ∨ c.f 3 0 7 < 84) (hf : f = if c.f 3 0 7 = 0x7F then hubField else c.f 3 0 7)
    (hres : reservedOk c [(3, 0x17F), (11, 0xFFFFFFFF), (12, 0xFFFFFFFF), (13, 0xFFFFFFFF)] = true) :
    exec (.thermalRead q e []) s = .next (complete s c stOk (thermalResults s f)) := by
  have hbad : (!reservedOk c [(3, 0x17F), (11, 0xFFFFFFFF), (12, 0xFFFFFFFF), (13, 0xFFFFFFFF)] ||
      (decide (84 ≤ c.f 3 0 7) && decide (c.f 3 0 7 ≠ 0x7F)) || (s.regs.legacy && !outDescOk c)) = false := by
    simp [hres, hleg]
    omega
  rw [exec, execThermalRead, hrun, whenSome_some]
  dsimp only
  rw [hbad, if_neg Bool.false_ne_true, hfresh, Bool.false_and, if_neg Bool.false_ne_true, ← hf, completeRes, hleg]
  rfl

/-! ### Throttling -/

/-- R380, R382: the one partition that has a program is set by its rule. -/
theorem thermalThrottleReplan_sets {s : State} {p : Nat} {x : Part} (hc : clocked s = true) (hhub : s.arb.hubOff = false)
    (hparts : s.parts = [(p, x)]) (hprog : x.prog.isSome = true) :
    ∃ t, exec .thermalThrottleReplan s = .next t ∧ partOf t p = some (replanThermal s x) := by
  have hloaded : loadedParts s = [(p, x)] := by simp [loadedParts, hparts, hprog]
  have hpart : partOf s p = some x := by simp [partOf, hparts, tfind]
  rw [exec, execThermalThrottleReplan, hc, hhub, hloaded]
  refine ⟨_, rfl, ?_⟩
  have he := parts_of_erase (s := modPart s p (replanThermal s)) { fields := true, arb := true } rfl
    (erase_foldl _ startChange (by simp) ((loadedParts (modPart s p (replanThermal s))).flatMap (fun e => partFields e.2)) _)
  exact (partOf_of_parts he p).trans (partOf_modPart hpart (replanThermal s))

/-- Settles O52: a step of the model by what the operations after it leave of the nodes and the band; a diode's turn and its reading by
their own rows; the replan by its one partition. -/
theorem thermalModel : Obligations.ThermalModel := by
  intro s f hf
  refine ⟨fun hup => ⟨?_, fun hshut hexcl => diodeRotation_next hf hup hshut hexcl, fun d r hd hpend hgood hhold hshut =>
    diodeReadDone_good hf hup hd hpend hgood hhold hshut⟩, fun q e c hrun hleg hfresh hn hf' hres =>
    thermalRead_last hrun hleg hfresh hn hf' hres, fun p x hc hhub hparts hprog => thermalThrottleReplan_sets hc hhub hparts hprog⟩
  obtain ⟨t, ht, hheat⟩ := thermalModelUpdate_heat hf hup
  simp only [heat, Prod.mk.injEq] at hheat
  exact ⟨t, ht, hheat⟩

end Sys2Proof.Machine
end

section
/-! SUPPORT. Thermal shutdowns of fields (R383, R384) and hardware trips (R385 to R387). -/

namespace Sys2Proof.Machine

/-! ### Shutdowns of fields -/

theorem thermOf_field (s : State) {f : Nat} (hf : f < 84) : thermOf s f = (fieldOf s f).therm := by
  rw [thermOf, if_neg (by unfold hubField; omega)]

theorem setTherm_field (s : State) {f : Nat} (hf : f < 84) (x : Thermal) : setTherm s f x = modField s f (fun y => { y with therm := x }) := by
  rw [setTherm, if_neg (by unfold hubField; omega)]

theorem nextSeq_of_erase (κ : Mask) {s t : State} (hκ : κ.arrivals = false) (h : erase κ t = erase κ s) :
    t.cab.nextSeq = s.cab.nextSeq := by
  simpa [erase, eraseCab, hκ] using congrArg (fun u : State => u.cab.nextSeq) h

theorem fieldOf_emitWords (s : State) (typ : Nat) (part : Option Nat) (ws : List Word) (f : Nat) :
    fieldOf (emitWords s typ part ws) f = fieldOf s f := fieldOf_of_fields rfl f

theorem fieldOf_emitTrip (s : State) (k : Trip) (seconds broken f : Nat) : fieldOf (emitTrip s k seconds broken) f = fieldOf s f :=
  fieldOf_of_fields (fields_of_erase { arrivals := true } rfl (by simp)) f

theorem fieldOf_releaseTrip (s : State) (src : TripSource) (f : Nat) : fieldOf (releaseTrip s src) f = fieldOf s f :=
  fieldOf_of_fields rfl f

theorem fieldOf_queueVcore (s : State) (g mv f : Nat) : fieldOf (queueVcore s g mv) f = fieldOf s f := fieldOf_of_fields rfl f

/-- R383: how a field runs, and whether its shutdown has been carried out. -/
def stopView (x : Field) : Run × Bool := (x.run, x.therm.shutDone)

/-- R384: the count towards a return leaves both. -/
theorem stopView_noteCool (s : State) {f : Nat} (hf : f < 84) : fieldView stopView (noteCool s f) = fieldView stopView s := by
  have hset (x : Thermal) (hx : x.shutDone = (thermOf s f).shutDone) : fieldView stopView (setTherm s f x) = fieldView stopView s := by
    rw [setTherm_field s hf]
    exact fieldView_modField f _ (by rw [stopView, stopView, hx, thermOf_field s hf])
  unfold noteCool
  dsimp only
  split
  · rfl
  · split <;> split
    · exact hset _ rfl
    · rfl
    · rfl
    · exact hset _ rfl

section
variable {s : State} {f : Nat} (hf : f < 84) (hc : clocked s = true) (hfw : s.hang.fwUp = true)
include hf hc hfw

/-- R383: the decision holds the record that is to be committed first. -/
theorem fieldShutdown_decides (hup : (fieldOf s f).warden = .up) (hshut : (fieldOf s f).therm.shut = none)
    (hreset : fieldInReset s f = false) (hhot : 1680 ≤ (fieldOf s f).therm.node0) (hroom : queueBytes s + 40 ≤ queueCap) :
    ∃ t, exec (.fieldShutdown f) s = .next t ∧ (fieldOf t f).therm.shut = some s.cab.nextSeq ∧
      (fieldOf t f).therm.shutDone = false := by
  have hthermUp : thermUp s f = true := by
    rw [thermUp, hc, if_neg (by unfold hubField; omega)]
    simp [hf, hup]
  have hnext : nextSeqNo (if fieldLoaded s f then holdPartition s f else s) = s.cab.nextSeq :=
    nextSeq_of_erase { parts := true, guards := true } rfl (by simp)
  rw [exec, execFieldShutdown, if_neg (by omega), thermOf_field s hf]
  dsimp only
  rw [hthermUp, hfw, hshut, hreset, decide_eq_true hhot, decide_eq_true hroom, hnext, setTherm_field _ hf]
  refine ⟨_, rfl, ?_⟩
  rw [fieldOf_emitWords, fieldOf_modField]
  exact ⟨rfl, rfl⟩

/-- R383: with the record committed the field's compute stops, and it stays so through the loss of its step. -/
theorem shutdownProceed_stops {n : Nat} (hshut : (fieldOf s f).therm.shut = some n) (hdone : (fieldOf s f).therm.shutDone = false)
    (hrec : recordCommitted s n = true) : ∃ t, exec (.shutdownProceed f) s = .next t ∧ (fieldOf t f).run = .gated ∧
      (fieldOf t f).therm.shutDone = true := by
  rw [exec, execShutdownProceed, if_neg (by omega), thermOf_field s hf, hshut, whenSome_some, hc, hfw, hdone, hrec]
  refine ⟨_, rfl, ?_⟩
  rw [← Prod.mk.injEq]
  extract_lets gated cooled
  have hgated : stopView (fieldOf gated f) = (.gated, true) := by rw [fieldOf_modField]; rfl
  have hcooled : fieldView stopView cooled = fieldView stopView gated :=
    (stopView_noteCool (queueVcore gated f 620) hf).trans (fieldView_of_fields rfl)
  have hlost : fieldView stopView (if fieldLoaded cooled f then lostStep cooled f 0 3 false 0 0xFFFFFF 0 0 4 else cooled) =
      fieldView stopView cooled := by
    rw [fieldView_ite, fieldView_lostStep cooled f 0 3 false 0 0xFFFFFF 0 0 4 (fun _ _ _ => rfl), ite_self]
  exact (read_of_fieldView (hlost.trans hcooled) f).trans hgated

/-- R384: the field returns, and no other is touched. -/
theorem thermalRestart_returns (hshut : (fieldOf s f).therm.shut.isSome = true) (hdone : (fieldOf s f).therm.shutDone = true)
    (hcool : coolNow (thermOf s f) = true) (hlong : coolEnough s f = true) (hreset : fieldInReset s f = false) :
    ∃ t, exec (.thermalRestart f) s = .next t ∧ (fieldOf t f).therm.shut = none ∧
      (fieldOf t f).run = (if (fieldOf s f).zoneDown || (fieldOf s f).tripped then .gated else .idle) ∧
      ∀ g, g ≠ f → fieldOf t g = fieldOf s g := by
  rw [exec, execThermalRestart, if_neg (by omega)]
  dsimp only
  rw [hcool, hlong, hreset, thermOf_field s hf, hc, hfw, hshut, hdone]
  refine ⟨_, rfl, ?_, ?_, fun g hg => ?_⟩
  · rw [fieldOf_emitWords, fieldOf_queueVcore, fieldOf_modField]
  · rw [fieldOf_emitWords, fieldOf_queueVcore, fieldOf_modField]
  · rw [fieldOf_emitWords, fieldOf_queueVcore, fieldOf_modField_other s f g _ hg]

end

theorem fieldShutdowns : Says.FieldShutdowns := by
  intro s f hf hc hfw
  exact ⟨fieldShutdown_decides hf hc hfw, fun _ => shutdownProceed_stops hf hc hfw, thermalRestart_returns hf hc hfw⟩

/-! ### Trips -/

theorem feed_of_clocked {s : State} (h : clocked s = true) : s.feed = true := by
  simp only [clocked, Bool.and_eq_true] at h
  exact h.1

/-- R386: the trip is latched with its source, and THERMTRIP set; no field is touched. -/
theorem latchTrip_eq (s : State) (src : TripSource) (parts : Nat) : ∃ st o, latchTrip s src parts =
    { s with
      arb := { s.arb with trips := s.arb.trips ++ [{ source := src, opTime := s.cab.opTime, parts := parts }] }
      tray := { s.tray with status := st }, out := o } ∧ st.getLsbD tsThermtrip = true :=
  raiseBit_eq { s with arb := { s.arb with trips := s.arb.trips ++ [{ source := src, opTime := s.cab.opTime, parts := parts }] } }
    tsThermtrip (by decide)

/-- R386: a field of a tripped zone. -/
def tripView (x : Field) : Run × Bool := (x.run, x.tripped)

theorem tripView_zoneStopped (s : State) {fs : List Nat} {f : Nat} (hf : f ∈ fs) :
    tripView (fieldOf (modFields (stopHard s fs) fs (fun x => { x with tripped := true })) f) = (.gated, true) := by
  have hrun : (fieldOf (stopHard s fs) f).run = .gated := fieldOf_modFields_mem (fun x => x.run = .gated) s (fun _ => rfl) hf
  have hkeep := read_of_fieldView (fieldView_modFields (π := Field.run) (stopHard s fs) fs (fun x => { x with tripped := true })
    (fun _ => rfl)) f
  have htrip := fieldOf_modFields_mem (fun x => x.tripped = true) (stopHard s fs) (h := fun x => { x with tripped := true })
    (fun _ => rfl) hf
  rw [tripView, hkeep, hrun, htrip]

/-- R386: the steps that a trip loses touch neither the trips, nor STATUS, nor how the fields stand. -/
theorem lostSteps_keep (s : State) (hit : List Nat) :
    (hit.foldl (fun s f => lostStep s f 0 3 false 0 0xFFFFFF 0 0 4) s).arb = s.arb ∧
    (hit.foldl (fun s f => lostStep s f 0 3 false 0 0xFFFFFF 0 0 4) s).tray = s.tray ∧
    fieldView tripView (hit.foldl (fun s f => lostStep s f 0 3 false 0 0xFFFFFF 0 0 4) s) = fieldView tripView s := by
  have he : erase { parts := true, fields := true, guards := true, hang := true, arrivals := true }
      (hit.foldl (fun s f => lostStep s f 0 3 false 0 0xFFFFFF 0 0 4) s) =
      erase { parts := true, fields := true, guards := true, hang := true, arrivals := true } s := by simp
  exact ⟨arb_of_erase _ rfl rfl he, tray_of_erase _ rfl rfl rfl he,
    fieldView_foldl _ (fun s f => fieldView_lostStep s f 0 3 false 0 0xFFFFFF 0 0 4 (fun _ _ _ => rfl)) hit s⟩

theorem tripped_of_trips {s t : State} (h : t.arb.trips = s.arb.trips) (src : TripSource) : tripped t src = tripped s src := by
  rw [tripped, tripped, h]

theorem zoneTrip_stops {s : State} (hc : clocked s = true) {z : Nat} (hz : z < 8) (hnew : tripped s (.zone z) = false) :
    ∃ t, exec (.zoneTrip z) s = .next t ∧ tripped t (.zone z) = true ∧ tsBit t tsThermtrip = true ∧
      ∀ f ∈ zoneFields z, (fieldOf t f).run = .gated ∧ (fieldOf t f).tripped = true := by
  rw [exec, execZoneTrip, if_neg (by omega), feed_of_clocked hc, hnew]
  refine ⟨_, rfl, ?_⟩
  extract_lets fs stopped left hit
  obtain ⟨st, o, hlatch, hst⟩ := latchTrip_eq stopped (.zone z) (partMask stopped fs)
  have hleft : left = leaveWave (latchTrip stopped (.zone z) (partMask stopped fs)) fs := rfl
  rw [hlatch] at hleft
  have harb : tripped left (.zone z) = true := by rw [hleft]; simp [tripped, leaveWave]
  have htray : tsBit left tsThermtrip = true := by rw [hleft]; exact hst
  have hfields : fieldView tripView left = fieldView tripView stopped := by rw [hleft]; rfl
  have hstop : ∀ f ∈ zoneFields z, tripView (fieldOf left f) = (.gated, true) := fun f hf =>
    (read_of_fieldView hfields f).trans (tripView_zoneStopped s hf)
  obtain ⟨hkarb, hktray, hkfields⟩ := lostSteps_keep left hit
  simp only [← Prod.mk.injEq]
  split
  · refine ⟨?_, ?_, fun f hf => (read_of_fieldView hkfields f).trans (hstop f hf)⟩
    · rw [tripped, hkarb]; exact harb
    · rw [tsBit, hktray]; exact htray
  · exact ⟨harb, htray, hstop⟩

/-! ### The hub's trip -/

theorem tfind_map {α : Type} (t : Table α) (h : α → α) (k : Nat) : tfind (t.map (fun e => (e.1, h e.2))) k = (tfind t k).map h := by
  induction t with
  | nil => rfl
  | cons e t ih =>
    rw [List.map_cons, tfind, tfind]
    split
    · rfl
    · exact ih

/-- The same change in every field that the table holds leaves what it does not name. -/
theorem fieldView_mapFields {α : Type} {π : Field → α} (s : State) (h : Field → Field) (hπ : ∀ x, π (h x) = π x) :
    fieldView π { s with fields := s.fields.map (fun e => (e.1, h e.2)) } = fieldView π s := by
  funext f
  rw [fieldView, fieldOf, tget, tfind_map, fieldView, fieldOf, tget]
  cases tfind s.fields f with
  | none => rfl
  | some x => exact hπ x

/-- R386: what a field loses with the hub: the rest of what it waits for and reports. -/
def hubForgets (x : Field) : Field := { x with latchWait := [], latchOut := none, releaseDue := [], waitTests := [], claims := [] }

theorem hubTrip_stops {s : State} (hc : clocked s = true) (hnew : tripped s .hub = false) :
    ∃ t, exec .hubTrip s = .next t ∧ tripped t .hub = true ∧ tsBit t tsThermtrip = true ∧ t.arb.hubOff = true ∧
      t.hang.fwUp = false ∧ t.arb.cap = 0 ∧ t.tray.capCeil = 0 ∧ ∀ f, f < 84 → (fieldOf t f).run = .gated := by
  rw [exec, execHubTrip, feed_of_clocked hc, hnew]
  refine ⟨_, rfl, ?_⟩
  extract_lets latched ps ended forgot
  obtain ⟨st, o, hlatch, hst⟩ := latchTrip_eq (stopHard s allFields) .hub (partMask s allFields)
  have hfields : latched.fields = (stopHard s allFields).fields := by rw [show latched = _ from hlatch]
  have he : erase { parts := true } ended = erase { parts := true } latched := by simp [ended]
  have harb : forgot.arb = latched.arb := arb_of_erase (t := ended) _ rfl rfl he
  have htray : forgot.tray = latched.tray := tray_of_erase (t := ended) _ rfl rfl rfl he
  have hrun : fieldView Field.run forgot = fieldView Field.run latched :=
    (fieldView_mapFields ended hubForgets (fun _ => rfl)).trans (fieldView_of_erase _ rfl he)
  have htrip : tripped forgot .hub = true := by
    rw [tripped, harb, show latched = _ from hlatch]
    simp
  have hbit : tsBit forgot tsThermtrip = true := by
    rw [tsBit, htray, show latched = _ from hlatch]
    exact hst
  have hstop (f : Nat) (hf : f < 84) : (fieldOf forgot f).run = .gated := by
    have hstopped : (fieldOf (stopHard s allFields) f).run = .gated :=
      fieldOf_modFields_mem (fun x => x.run = .gated) s (fun _ => rfl) (List.mem_range.mpr hf)
    exact (read_of_fieldView (hrun.trans (fieldView_of_fields hfields)) f).trans hstopped
  clear_value forgot
  exact ⟨htrip, hbit, rfl, rfl, rfl, rfl, hstop⟩

/-! ### Restarts -/

theorem tripped_releaseTrip (s : State) (src : TripSource) : tripped (releaseTrip s src) src = false := by
  simp [tripped, releaseTrip]

theorem tripped_emitTrip (s : State) (k : Trip) (seconds broken : Nat) (src : TripSource) :
    tripped (emitTrip s k seconds broken) src = tripped s src :=
  tripped_of_trips (congrArg Arbiter.trips (arb_of_erase { arrivals := true } rfl rfl (by simp))) src

/-- R387: a zone that restarts is no longer tripped. -/
theorem tripped_restartZone (s : State) {z f : Nat} (hf : f ∈ zoneFields z) : (fieldOf (restartZone s z) f).tripped = false := by
  unfold restartZone
  refine fieldOf_foldl_mem (P := fun x => x.tripped = false) (fun s f g hne => ?_) (fun s => ?_) hf s
  · exact fieldOf_modField_other s f g _ hne
  · rw [fieldOf_modField]

theorem tripRestart_zone {s : State} (hc : clocked s = true) {z : Nat} (broken : Nat) {k : Trip}
    (hk : s.arb.trips.find? (fun k => k.source == .zone z && decide (60 ≤ tripSeconds s k)) = some k) :
    ∃ t, exec (.tripRestart (.zone z) broken) s = .next t ∧ tripped t (.zone z) = false ∧
      ∀ f ∈ zoneFields z, (fieldOf t f).tripped = false := by
  rw [exec, execTripRestart, hk, whenSome_some]
  dsimp only
  rw [feed_of_clocked hc, whenOk_true]
  refine ⟨_, rfl, ?_⟩
  have hoff := tripped_releaseTrip (restartZone s z) (.zone z)
  have hzone : ∀ f ∈ zoneFields z, (fieldOf (releaseTrip (restartZone s z) (.zone z)) f).tripped = false := fun f hf => by
    rw [fieldOf_releaseTrip, tripped_restartZone s hf]
  generalize releaseTrip (restartZone s z) (.zone z) = u at hoff hzone ⊢
  split
  · exact ⟨(tripped_emitTrip u k _ _ _).trans hoff, fun f hf => by rw [fieldOf_emitTrip, hzone f hf]⟩
  · exact ⟨(tripped_of_trips rfl _).trans hoff, hzone⟩

/-- R387: the hub's domains with power again. -/
def hubOn (s : State) : State := { s with
  arb := { s.arb with hubOff := false }
  arm := { s.arm with unsealed := true, digestKey := drawKey s }
  hang := { s.hang with fwUp := s.hang.refOk, fires := 0, windowOpen := false, restarted := false } }

/-- R387: the generations after the hub's restart. -/
def hubBumped (s : State) : State := bumpGens (advFree (drainLinks (hubOn s))) (List.range 229)

/-- R387: S1 is reported again. -/
def hubReported (s : State) : State :=
  advFree (emitStage (hubBumped s) 1 false 0xFF 0 (Config.freeNat (hubBumped s).free % 2 ^ 32) allFields [] (contentS1 (hubBumped s)))

theorem restartHub_eq (s : State) : restartHub s = requestReset (hubReported s) 3 domWafer 0x0B false none := rfl

/-- What the hub's restart changes once its domains have power. -/
def hubRestartMask : Mask := { free := true, fields := true, gens := true, arrivals := true }

theorem erase_hubReported (s : State) : erase hubRestartMask (hubReported s) = erase hubRestartMask (hubOn s) := by
  simp [hubReported, hubBumped, hubRestartMask]

theorem requests_of_erase (κ : Mask) {s t : State} (hκ : κ.hang = false) (h : erase κ t = erase κ s) :
    t.hang.requests = s.hang.requests := by
  simpa [erase, eraseHang, hκ] using congrArg (fun u : State => u.hang.requests) h

/-- R286, R387: each of the 229 generations advances once. -/
theorem genOf_hubReported (s : State) {d : Nat} (hd : d < 229) : genOf (hubReported s) d = genOf s d + 1 := by
  have hcount : (List.range 229).count d = 1 := List.count_eq_one_of_mem List.nodup_range (List.mem_range.mpr hd)
  have hdrain : genOf (advFree (drainLinks (hubOn s))) d = genOf (hubOn s) d :=
    genOf_of_erase { free := true, fields := true, arrivals := true } rfl (by simp) d
  have hreport : genOf (hubReported s) d = genOf (hubBumped s) d :=
    genOf_of_erase { free := true, arrivals := true } rfl (by simp [hubReported]) d
  rw [hreport, hubBumped, genOf_bumpGens, hcount, hdrain, genOf_of_gens (s := s) (t := hubOn s) rfl]
  rfl

/-- What asking for a reset leaves, and what it adds. -/
theorem requestReset_spec (s : State) (level dom cause : Nat) : (requestReset s level dom cause false none).arb = s.arb ∧
    (requestReset s level dom cause false none).hang.requests = s.hang.requests ++ [{ level := level, dom := dom, cause := cause }] ∧
    ∀ d, genOf (requestReset s level dom cause false none) d = genOf s d :=
  ⟨rfl, rfl, fun d => genOf_of_gens rfl d⟩

/-- R387: the hub is on again, every generation has advanced, and a WAFER reset with cause 0x0B is asked for. -/
theorem restartHub_spec (s : State) : (restartHub s).arb = { s.arb with hubOff := false } ∧
    (restartHub s).hang.requests = s.hang.requests ++ [{ level := 3, dom := domWafer, cause := 0x0B }] ∧
    ∀ d, d < 229 → genOf (restartHub s) d = genOf s d + 1 := by
  obtain ⟨harb, hreq, hgen⟩ := requestReset_spec (hubReported s) 3 domWafer 0x0B
  rw [restartHub_eq, harb, hreq, arb_of_erase hubRestartMask rfl rfl (erase_hubReported s),
    requests_of_erase hubRestartMask rfl (erase_hubReported s)]
  exact ⟨rfl, rfl, fun d hd => by rw [hgen, genOf_hubReported s hd]⟩

/-- R387: the trip is over, and its record follows later. -/
def tripOver (s : State) (src : TripSource) (due : Trip × Nat × Nat) : State :=
  { releaseTrip s src with arb := { (releaseTrip s src).arb with tripDue := (releaseTrip s src).arb.tripDue ++ [due] } }

theorem tripOver_spec (s : State) (src : TripSource) (due : Trip × Nat × Nat) : tripped (tripOver s src due) src = false ∧
    (tripOver s src due).arb.hubOff = s.arb.hubOff ∧ (tripOver s src due).hang.requests = s.hang.requests ∧
    ∀ d, genOf (tripOver s src due) d = genOf s d :=
  ⟨(tripped_of_trips (s := releaseTrip s src) rfl src).trans (tripped_releaseTrip s src), rfl, rfl, fun d => genOf_of_gens rfl d⟩

theorem tripRestart_hub {s : State} (hc : clocked s = true) (broken : Nat) {k : Trip}
    (hk : s.arb.trips.find? (fun k => k.source == .hub && decide (60 ≤ tripSeconds s k)) = some k) :
    ∃ t, exec (.tripRestart .hub broken) s = .next t ∧ tripped t .hub = false ∧ t.arb.hubOff = false ∧
      t.hang.requests = s.hang.requests ++ [{ level := 3, dom := domWafer, cause := 0x0B }] ∧
      ∀ d, d < 229 → genOf t d = genOf s d + 1 := by
  have hrow : exec (.tripRestart .hub broken) s = .next (tripOver (restartHub s) .hub (k, tripSeconds s k, broken)) := by
    rw [exec, execTripRestart, hk, whenSome_some, feed_of_clocked hc]
    rfl
  obtain ⟨harb, hreq, hgen⟩ := restartHub_spec s
  obtain ⟨hoff, hhub, hkeep, hsame⟩ := tripOver_spec (restartHub s) .hub (k, tripSeconds s k, broken)
  exact ⟨_, hrow, hoff, by rw [hhub, harb], by rw [hkeep, hreq], fun d hd => by rw [hsame, hgen d hd]⟩

theorem hardwareTrips : Says.HardwareTrips := fun _ hc =>
  ⟨fun _ hz hnew => zoneTrip_stops hc hz hnew, fun hnew => hubTrip_stops hc hnew, fun _ broken _ hk => tripRestart_zone hc broken hk,
    fun broken _ hk => tripRestart_hub hc broken hk⟩

/-- Settles O53: shutdowns by what each of their rows leaves of the field, trips by the latched trip and the stopped fields. That a hub trip
clears the arbiter's cap and the tray's CAP_LIMIT is log entry 138, the model's choice. -/
theorem thermalTrips : Obligations.ThermalTrips := ⟨fieldShutdowns, hardwareTrips⟩

end Sys2Proof.Machine
end

section
/-! SUPPORT. The start barrier (R408 to R411). -/

namespace Sys2Proof.Machine

/-! ### Frames, and the same change once in each field -/

theorem partOf_sendFrames (s : State) (ls : List Nat) (typ seqNo : Nat) (payload : State → Nat) (p : Nat) :
    partOf (ls.foldl (fun s l => sendFrame s l typ seqNo (payload s)) s) p = partOf s p :=
  partOf_of_parts (parts_of_erase { out := true } rfl (by simp)) p

/-- Where each field is named once, each is changed once. -/
theorem fieldOf_modFields_nodup (s : State) {fs : List Nat} (hfs : fs.Nodup) {f : Nat} (hf : f ∈ fs) (h : Field → Field) :
    fieldOf (modFields s fs h) f = h (fieldOf s f) := by
  induction fs generalizing s with
  | nil => cases hf
  | cons a fs ih =>
    obtain ⟨ha, hfs⟩ := List.nodup_cons.mp hfs
    rw [modFields, List.foldl_cons, ← modFields]
    by_cases hmem : f ∈ fs
    · rw [ih (modField s a h) hfs hmem, fieldOf_modField_other s a f h (fun hfa => ha (hfa ▸ hmem))]
    · obtain rfl | hmem' := List.mem_cons.mp hf
      · rw [fieldOf_modFields_other _ _ hmem, fieldOf_modField]
      · exact absurd hmem' hmem

/-! ### ARM -/

/-- R408: a wafer that is ready keeps the ARMs that it has, and of its barrier sets only the release time or that its ARM is sent. -/
theorem partOf_barrierReady {s : State} {p : Nat} {y : Part} (hy : partOf s p = some y) :
    ∃ y', partOf (barrierReady s p) p = some y' ∧ y'.arms = y.arms ∧
      ∀ b, y.barrier = some b → ∃ rel sent, y'.barrier = some { b with rel := rel, sent := sent } := by
  unfold barrierReady
  rw [hy]
  dsimp only
  cases hb : y.barrier with
  | none => exact ⟨y, hy, rfl, fun b h => by cases h⟩
  | some b =>
    dsimp only
    generalize (if b.count = 1 then ({} : Tree) else y.tree.getD {}) = tr
    split
    · exact ⟨y, hy, rfl, fun b' h => by cases h; exact ⟨b.rel, b.sent, hb⟩⟩
    · split
      · refine ⟨{ y with barrier := some { b with rel := some ((s.now : Int) + 10000) } }, ?_, rfl, fun b' h => ?_⟩
        · rw [partOf_sendFrames _ _ _ _ (fun s => low40 (s.now + 10000)), partOf_setPart]
        · cases h
          exact ⟨_, b.sent, rfl⟩
      · exact ⟨_, partOf_setPart s p _, rfl, fun b' h => by cases h; exact ⟨_, _, rfl⟩⟩

/-- R410: a barrier of one wafer waits for no tree and sets its own release time. -/
theorem partOf_barrierReady_alone {s : State} {p : Nat} {y : Part} {b : Barrier} (hy : partOf s p = some y) (hb : y.barrier = some b)
    (hone : b.count = 1) (hrel : b.rel = none) (hsent : b.sent = false) :
    partOf (barrierReady s p) p = some { y with barrier := some { b with rel := some ((s.now : Int) + 10000) } } := by
  simp [barrierReady, hy, hb, hone, hrel, hsent, childPorts]

/-- R408, R411: the barrier that BARRIER_ARM asks for. -/
def askedBarrier (s : State) (q e : Nat) (c : Cmd) : Barrier :=
  { id := c.f 3 0 16, count := c.f 4 0 9, timeout := if c.w 5 = 0 then 50000 else c.w 5, armedAt := s.now, q := q, e := e }

/-- The partition that holds it. -/
def armedPart (s : State) (q e : Nat) (c : Cmd) (y : Part) : Part :=
  { y with barrier := some (askedBarrier s q e c), waitLimit := some (if c.w 5 = 0 then 50000 else c.w 5) }

theorem barrierArm_next {s : State} {q e n : Nat} {c : Cmd} {y : Part} (hy : partOf s c.part = some y)
    (hrun : runCmd s q e opBarrierArm = some c) (hres : reservedOk c [(3, 0xFFFF), (4, 0x1FF), (5, 0xFFFFFFFF)] = true)
    (hn : n = c.f 4 0 9) (hlow : 1 ≤ n) (hhigh : n ≤ 256) (htree : n = 1 ∨ ∃ tr, y.tree = some tr ∧ tr.size = n)
    (hfree : y.barrier = none) : exec (.barrierArm q e) s =
      .next (barrierReady (setPart (background s c) c.part (armedPart s q e c y)) c.part) := by
  have hsize : (decide (n ≠ 1) && (y.tree.isNone || decide (n ≠ (y.tree.map (·.size)).getD 1))) = false := by
    obtain rfl | ⟨tr, htr, rfl⟩ := htree
    · rfl
    · simp [htr]
  rw [exec, execBarrierArm, hrun, whenSome_some, hy]
  dsimp only
  rw [← hn, hres, hsize, decide_eq_false (show ¬ n = 0 by omega), decide_eq_false (show ¬ 256 < n by omega), hfree,
    armedPart, askedBarrier, ← hn]
  rfl

/-- R408, R410, R411: BARRIER_ARM. -/
theorem barrierArm_arms (s : State) (q e n : Nat) (c : Cmd) (y : Part) (hy : partOf s c.part = some y)
    (hrun : runCmd s q e opBarrierArm = some c) (hres : reservedOk c [(3, 0xFFFF), (4, 0x1FF), (5, 0xFFFFFFFF)] = true)
    (hn : n = c.f 4 0 9) (hlow : 1 ≤ n) (hhigh : n ≤ 256) (htree : n = 1 ∨ ∃ tr, y.tree = some tr ∧ tr.size = n)
    (hfree : y.barrier = none) :
    ∃ t y' b, exec (.barrierArm q e) s = .next t ∧ partOf t c.part = some y' ∧ y'.barrier = some b ∧ b.id = c.f 3 0 16 ∧ b.count = n ∧
      b.timeout = (if c.w 5 = 0 then 50000 else c.w 5) ∧ b.q = q ∧ b.e = e ∧ (n = 1 → b.rel = some ((s.now : Int) + 10000)) := by
  have hset : partOf (setPart (background s c) c.part (armedPart s q e c y)) c.part = some (armedPart s q e c y) := partOf_setPart _ _ _
  have hrow := barrierArm_next hy hrun hres hn hlow hhigh htree hfree
  by_cases hone : n = 1
  · have hpart := partOf_barrierReady_alone hset rfl (hn.symm.trans hone) rfl rfl
    exact ⟨_, _, _, hrow, hpart, rfl, rfl, hn.symm, rfl, rfl, rfl, fun _ => rfl⟩
  · obtain ⟨y', hpart, -, hbar⟩ := partOf_barrierReady hset
    obtain ⟨rel, sent, hb⟩ := hbar _ rfl
    exact ⟨_, y', _, hrow, hpart, hb, rfl, hn.symm, rfl, rfl, rfl, fun h => absurd h hone⟩

section
variable {s : State} {p : Nat} {y : Part} (hc : clocked s = true)
include hc

/-- R408: the ARM of a child is kept. -/
theorem armReceive_keeps {l k : Nat} {tr : Tree} {r : PeerInfo} (hl : l < 64) (hk : k < 65536) (hparts : s.parts = [(p, y)])
    (htree : y.tree = some tr) (hfind : tr.peers.find? (fun r => r.port == l && r.child) = some r) :
    ∃ t y', exec (.armReceive l k) s = .next t ∧ partOf t p = some y' ∧ (r.serial, k) ∈ y'.arms := by
  have hy : partOf s p = some y := by simp [partOf, hparts, tfind]
  have hheard := partOf_modPart hy (fun y => { y with arms := if y.arms.contains (r.serial, k) then y.arms else y.arms ++ [(r.serial, k)] })
  obtain ⟨y', hpart, harms, -⟩ := partOf_barrierReady hheard
  refine ⟨_, y', ?_, hpart, ?_⟩
  · rw [exec, execArmReceive, if_neg (by omega), hc, whenOk_true, hparts]
    simp [htree, hfind]
  · rw [harms]
    by_cases h : (r.serial, k) ∈ y.arms <;> simp [h]

/-- R406, R408, R409: the parent's RELEASE gives the local release time. -/
theorem releaseReceive_sets {l time m : Nat} {tr : Tree} {b : Barrier} (hl : l < 64) (ht : time < 2 ^ 40) (hparts : s.parts = [(p, y)])
    (htree : y.tree = some tr) (hparent : tr.parent = some m) (hlane : (peerLanes tr m).contains l = true) (hb : y.barrier = some b)
    (hsent : b.sent = true) (hrel : b.rel = none) :
    ∃ t y' b', exec (.releaseReceive l time) s = .next t ∧ partOf t p = some y' ∧ y'.barrier = some b' ∧ b'.id = b.id ∧
      b'.rel = some ((toLocal s tr (releaseAligned s tr time)).ceil) := by
  have hy : partOf s p = some y := by simp [partOf, hparts, tfind]
  have hset := partOf_modPart hy (fun y => { y with barrier := some { b with
    rel := some ((toLocal s tr (releaseAligned s tr time)).ceil),
    lateNs := ((s.now : Int) - (toLocal s tr (releaseAligned s tr time)).ceil).toNat } })
  refine ⟨_, _, _, ?_, (partOf_sendFrames _ (childPorts tr) 4 0 (fun _ => time) p).trans hset, rfl, rfl, rfl⟩
  rw [exec, execReleaseReceive, if_neg (by omega), hc, whenOk_true, hparts]
  simp only [List.filterMap_cons, List.filterMap_nil, htree, hb, hparent, Option.bind_some, hlane, hsent, hrel, Option.isNone_none,
    Bool.and_self, if_true, List.foldl_cons, List.foldl_nil]

/-! ### The release and the timeout -/

/-- R409: what the release does in a field. -/
def releasedField (edge : Nat) (x : Field) : Field :=
  { x with waitBarrier := false, run := if x.atStart then .running else x.run, atStart := false,
           releaseTs := if x.atStart then edge else x.releaseTs }

/-- R408, R409: the state in which the release is recorded. -/
def releasedBarrier (s : State) (p edge : Nat) (b : Barrier) : State :=
  emitAlign (modFields (modPart s p (fun y => { y with barrier := none, arms := y.arms.filter (fun a => a.2 != b.id) }))
    (fieldsOfPart (modPart s p (fun y => { y with barrier := none, arms := y.arms.filter (fun a => a.2 != b.id) })) p)
    (releasedField edge)) (some p) 1 b.id (decide (0 < b.lateNs)) (edge : Int) 0 b.lateNs

omit hc in
theorem releasedBarrier_spec (hy : partOf s p = some y) (edge : Nat) (b : Barrier) :
    partOf (releasedBarrier s p edge b) p = some { y with barrier := none, arms := y.arms.filter (fun a => a.2 != b.id) } ∧
    (∀ f ∈ partFields y, fieldOf (releasedBarrier s p edge b) f = releasedField edge (fieldOf s f)) ∧
    ∀ q e, findCmd (releasedBarrier s p edge b) q e = findCmd s q e := by
  unfold releasedBarrier
  generalize hz : ({ y with barrier := none, arms := y.arms.filter (fun a => a.2 != b.id) } : Part) = z
  have hset : partOf (modPart s p (fun y => { y with barrier := none, arms := y.arms.filter (fun a => a.2 != b.id) })) p = some z := by
    rw [partOf_modPart hy, hz]
  have hfs : fieldsOfPart (modPart s p (fun y => { y with barrier := none, arms := y.arms.filter (fun a => a.2 != b.id) })) p =
      partFields y := by
    rw [fieldsOfPart, hset, ← hz]; rfl
  rw [hfs]
  have hnodup : (partFields y).Nodup := List.nodup_range.filter _
  have hmod : erase { parts := true } (modPart s p (fun y => { y with barrier := none, arms := y.arms.filter (fun a => a.2 != b.id) })) =
      erase { parts := true } s := by simp
  generalize modPart s p (fun y => { y with barrier := none, arms := y.arms.filter (fun a => a.2 != b.id) }) = u at hset hmod
  refine ⟨?_, fun f hf => ?_, fun q e => ?_⟩
  · exact (partOf_of_parts (parts_of_erase { fields := true, arrivals := true } rfl (by simp)) p).trans hset
  · rw [fieldOf_of_fields (fields_of_erase (s := modFields u (partFields y) (releasedField edge)) { arrivals := true } rfl (by simp)) f,
      fieldOf_modFields_nodup u hnodup hf, fieldOf_of_fields (fields_of_erase _ rfl hmod) f]
  · refine findCmd_of_flight (congrArg FrontEnd.flight ?_) q e
    exact (fe_of_erase { fields := true, arrivals := true } rfl (by simp)).trans (fe_of_erase _ rfl hmod)

/-- R408, R409: at the release the fields that waited at their start run, and the command completes with the edge. -/
theorem barrierRelease_runs {edge : Nat} {b : Barrier} {r : Int} (hy : partOf s p = some y) (hb : y.barrier = some b)
    (hrel : b.rel = some r) (hdue : r ≤ (edge : Int)) :
    ∃ t y', exec (.barrierRelease p edge) s = .next t ∧ partOf t p = some y' ∧ y'.barrier = none ∧
      (∀ f ∈ partFields y, (fieldOf t f).waitBarrier = false ∧
        ((fieldOf s f).atStart = true → (fieldOf t f).run = .running ∧ (fieldOf t f).releaseTs = edge) ∧
        ((fieldOf s f).atStart = false → (fieldOf t f).run = (fieldOf s f).run)) ∧
      (∀ c, findCmd s b.q b.e = some c → ∃ u, t = complete u c stOk (w64 edge)) := by
  have hrow : exec (.barrierRelease p edge) s = .next (match findCmd (releasedBarrier s p edge b) b.q b.e with
      | some c => complete (releasedBarrier s p edge b) c stOk (w64 edge)
      | none => releasedBarrier s p edge b) := by
    rw [exec, execBarrierRelease, hy, Option.bind_some, hb, whenSome_some, hrel, whenSome_some, hc, decide_eq_true hdue]
    rfl
  obtain ⟨hpart, hfields, hfind⟩ := releasedBarrier_spec hy edge b
  have hstands (f : Nat) (hf : f ∈ partFields y) : ∀ x, x = releasedField edge (fieldOf s f) → x.waitBarrier = false ∧
      ((fieldOf s f).atStart = true → x.run = .running ∧ x.releaseTs = edge) ∧
      ((fieldOf s f).atStart = false → x.run = (fieldOf s f).run) := by
    rintro x rfl
    exact ⟨rfl, fun h => by simp [releasedField, h], fun h => by simp [releasedField, h]⟩
  rw [hfind] at hrow
  cases hcmd : findCmd s b.q b.e with
  | none =>
    rw [hcmd] at hrow
    exact ⟨_, _, hrow, hpart, rfl, fun f hf => hstands f hf _ (hfields f hf), fun c h => by cases h⟩
  | some c =>
    rw [hcmd] at hrow
    refine ⟨_, _, hrow, (partOf_complete _ _ _ _ p).trans hpart, rfl, fun f hf => hstands f hf _ ?_, fun c' h => ?_⟩
    · exact (fieldOf_of_fields (fields_complete _ _ _ _) f).trans (hfields f hf)
    · cases h
      exact ⟨_, rfl⟩

/-- R411: at the timeout the partition is to be reset. -/
theorem barrierTimeout_resets {b : Barrier} (hy : partOf s p = some y) (hb : y.barrier = some b)
    (hdue : b.armedAt + b.timeout * 1000 ≤ s.now) : exec (.barrierTimeout p) s = .next (autoReset s 2 (domPart p) 5) := by
  rw [exec, execBarrierTimeout, hy, Option.bind_some, hb, whenSome_some, hc, decide_eq_true hdue]
  rfl

end

/-- Settles O45: each row by what it leaves of the partition's barrier. That a timeout of 0 is 50 ms, that a barrier of one wafer releases
10 us on, and that an ARM frame is kept before its barrier is armed is log entry 121, the model's choice. -/
theorem startBarrier : Obligations.StartBarrier :=
  ⟨barrierArm_arms,
    fun _ _ _ _ _ _ _ hl hk hc hparts htree hfind => armReceive_keeps hc hl hk hparts htree hfind,
    fun _ _ _ _ _ _ _ _ hl ht hc hparts htree hparent hlane hb hsent hrel =>
      releaseReceive_sets hc hl ht hparts htree hparent hlane hb hsent hrel,
    fun _ _ _ _ _ _ hc hy hb hrel hdue => barrierRelease_runs hc hy hb hrel hdue,
    fun _ _ _ _ hc hy hb hdue => barrierTimeout_resets hc hy hb hdue⟩

end Sys2Proof.Machine
end

section
/-! SUPPORT. COUNTER_FREEZE in a state whose partition table is out of order (R425). -/

namespace Sys2Proof.Machine

/-- Fields 0 and 1, without a program. -/
def bareFields : Part := { tenant := 3, colLo := 0, colHi := 1, rowLo := 0, rowHi := 0 }

/-- A running COUNTER_FREEZE of partition 2, with FREEZE and a trigger of 0. -/
def freezeNow : Cmd :=
  { q := 0, e := 5, words := ([w32 opCounterFreeze, 0, w32 2, w32 1] ++ List.replicate 12 0).take 16, phase := .running, seqNo := 9 }

/-- Partition 3 stands before partition 2, on the same fields, and alone has a program. -/
def misordered : State := { State.reset with
  hang := { fwUp := true }
  fields := [(0, { stage := 7, warden := .up }), (1, { stage := 7, warden := .up })]
  parts := [(3, { bareFields with prog := some { id := 7 } }), (2, bareFields)]
  fe := { slots := [(0, { enable := true, sqLog2 := 4, cqLog2 := 5 })], flight := [freezeNow] } }

/-- The program of the first partition in the table counts for both fields, neither of which is frozen. -/
theorem misordered_meets_hypotheses : partOf misordered freezeNow.part = some bareFields ∧
    runCmd misordered 0 5 opCounterFreeze = some freezeNow ∧
    reservedOk freezeNow [(3, 1), (4, 0xFFFFFFFF), (5, 0xFFFFFFFF)] = true ∧ bareFields.freeze = none ∧
    freezeNow.w 4 + freezeNow.w 5 * 2 ^ 32 = 0 ∧ (∀ f ∈ partFields bareFields, fieldLoaded misordered f = true) ∧
    freezeNow.b 3 0 = true ∧ partFrozen misordered freezeNow.part = false := by
  decide +kernel

/-- `setPart` puts the changed partition in front of both: its fields count as without a program and freeze at once, and the freeze ends. -/
theorem misordered_freezes_at_once :
    (match exec (.counterFreeze 0 5) misordered with
      | .next t => (partOf t freezeNow.part).bind (·.freeze)
      | _ => none) = none := by
  decide +kernel

/-- Refutes O43, in its clause on a pending COUNTER_FREEZE: the statement does not ask that the partition table have rising keys and disjoint
rectangles. In `misordered` the fields run the program of partition 3 until the freeze is stored, and none from then on, so that they
act at once. No run comes to such a table, as `tset` keeps the keys rising. -/
theorem not_counterAndFreezeCommands : ¬ Obligations.CounterAndFreezeCommands := by
  unfold Obligations.CounterAndFreezeCommands
  rintro ⟨-, hfreeze, -⟩
  obtain ⟨hpart, hrun, hres, hidle, htrig, hload, hb, hthawed⟩ := misordered_meets_hypotheses
  obtain ⟨-, hpending⟩ := hfreeze misordered 0 5 freezeNow bareFields hpart hrun hres hidle 0 htrig.symm (fun h => absurd rfl h) hload
  obtain ⟨t, y', z, hrow, hy', hz, -⟩ := hpending (fun _ => hthawed) (fun h => by rw [hb] at h; cases h)
  have hnone := misordered_freezes_at_once
  rw [hrow] at hnone
  dsimp only at hnone
  rw [hy', Option.bind_some, hz] at hnone
  cases hnone

end Sys2Proof.Machine
end

section
/-! SUPPORT. TENANT_SCRUB, KEY_LOAD and ALARM_ACK (R454 to R462). -/

namespace Sys2Proof.Machine

/-! ### The operations in progress -/

/-- What tells the operations apart, and the handle that the next one gets. -/
def opIds (s : State) : Nat × List (Nat × Nat × Nat × Nat) :=
  (s.fe.nextHandle, s.fe.ops.map (fun o => (o.handle, o.opcode, o.q, o.e)))

theorem opIds_of_fe {s t : State} (h : t.fe = s.fe) : opIds t = opIds s := by rw [opIds, h, opIds]

theorem opIds_of_erase (κ : Mask) {s t : State} (hκ : κ.fe = false) (h : erase κ t = erase κ s) : opIds t = opIds s :=
  opIds_of_fe (fe_of_erase κ hκ h)

theorem opIds_finishOp (s : State) (h st : Nat) (res : List Word) : opIds (finishOp s h st res) = opIds s := by
  unfold opIds finishOp
  rw [List.map_map]
  congr 2
  funext o
  rw [Function.comp]
  split <;> rfl

theorem opIds_complete (s : State) (c : Cmd) (st : Nat) (res : List Word) : opIds (complete s c st res) = opIds s := by
  unfold opIds complete
  rw [nextHandle_completeWith, ops_completeWith]

theorem opIds_foldl {β : Type} {u : State → β → State} (h : ∀ s b, opIds (u s b) = opIds s) (l : List β) (s : State) :
    opIds (l.foldl u s) = opIds s := by
  induction l generalizing s with
  | nil => rfl
  | cons b l ih => rw [List.foldl_cons, ih, h]

theorem opIds_releaseTested (s : State) (f p : Nat) : opIds (releaseTested s f p) = opIds s := by
  unfold releaseTested
  refine (opIds_foldl (fun u e => ?_) _ _).trans rfl
  have hrel : opIds (if (tileRec u (pa f p)).quar then releaseTile u f p else u) = opIds u :=
    opIds_of_erase { hutch := true, fields := true, sched := true, arrivals := true } rfl (by simp)
  dsimp only
  split
  · exact (opIds_complete _ _ _ _).trans hrel
  · exact hrel

/-- The end of a test beside the end of its operations. -/
def testEndMask : Mask := { hutch := true, parts := true, fields := true, guards := true, sched := true, sig := true, arrivals := true }

theorem opIds_finishAborted (s : State) (f slot action : Nat) (again : Bool) : opIds (finishAborted s f slot action again) = opIds s := by
  unfold finishAborted
  split
  · rfl
  · dsimp only
    rw [opIds_of_erase testEndMask rfl (erase_settleLevel testEndMask _ _ _ rfl rfl), opIds_releaseTested]
    split
    · exact opIds_of_erase testEndMask rfl (by simp [testEndMask])
    · exact (opIds_foldl (fun u h => opIds_finishOp u h _ _) _ _).trans (opIds_of_erase testEndMask rfl (by simp [testEndMask]))

theorem opIds_reportTest (s : State) (f slot action : Nat) : opIds (reportTest s f slot action) = opIds s := by
  unfold reportTest
  split
  · rfl
  · dsimp only
    rw [opIds_of_erase testEndMask rfl (erase_settleLevel testEndMask _ _ _ rfl rfl), opIds_releaseTested]
    exact (opIds_foldl (fun u h => opIds_finishOp u h _ _) _ _).trans (opIds_of_erase testEndMask rfl (by simp [testEndMask]))

theorem opIds_abortTest (s : State) (f slot : Nat) (keep : Bool) : opIds (abortTest s f slot keep) = opIds s := by
  have hend (u : State) (hu : opIds u = opIds s) (done : Bool) (action : Nat) :
      opIds (if done then reportTest u f slot action else finishAborted u f slot action (!keep)) = opIds s := by
    split
    · exact (opIds_reportTest _ _ _ _).trans hu
    · exact (opIds_finishAborted _ _ _ _ _).trans hu
  unfold abortTest
  split
  · rfl
  · refine hend _ ?_ _ _
    split
    · split
      · rfl
      · split
        · exact opIds_of_erase { hutch := true, arrivals := true } rfl (by simp)
        · exact opIds_of_erase { hutch := true, fields := true, side := true } rfl (by simp)
    · rfl

theorem opIds_freeContexts (s : State) (gone : Context → Bool) : opIds (freeContexts s gone) = opIds s := by
  unfold freeContexts
  refine (opIds_foldl (fun u qe => ?_) _ _).trans rfl
  split
  · exact opIds_complete _ _ _ _
  · rfl

theorem opIds_scrubWork (s : State) (t : Nat) (fs : List Nat) : opIds (scrubWork s t fs) = opIds s :=
  (opIds_freeContexts _ _).trans (opIds_foldl (fun u f => opIds_foldl (fun v k => opIds_abortTest v f k false) _ u) _ s)

theorem contexts_freeContexts (s : State) (gone : Context → Bool) :
    (freeContexts s gone).side.contexts = s.side.contexts.filter (fun k => !gone k) := by
  have hside (u : State) (l : List (Nat × Nat)) : (l.foldl (fun s qe => match findCmd s qe.1 qe.2 with
      | some c => complete s c stBadParam []
      | none => s) u).side = u.side := by
    induction l generalizing u with
    | nil => rfl
    | cons qe l ih =>
      rw [List.foldl_cons, ih]
      split
      · exact side_complete _ _ _ _
      · rfl
  exact congrArg (·.contexts) (hside _ _)

theorem opIds_accept (s : State) (c : Cmd) (args : List Nat) :
    opIds (accept s c args) = (s.fe.nextHandle + 1, (opIds s).2 ++ [(s.fe.nextHandle, c.opcode, c.q, c.e)]) := by
  unfold opIds
  rw [nextHandle_accept, accept, ops_completeWith]
  dsimp only
  split <;> simp [modSlot, setSlot]

/-! ### TENANT_SCRUB -/

/-- R457: what the operation of a scrub keeps: the tenant, how its fields were named, the time, the contexts freed, the fields. -/
def scrubArgs (s : State) (t mask : Nat) : List Nat :=
  [t, bit01 (decide (mask = 0)), s.now,
    (s.side.contexts.filter (fun k => k.tenant == t && (scrubFields s t mask).contains k.field)).length] ++ scrubFields s t mask

section
variable {s : State} {q e : Nat} {c : Cmd} (hrun : runCmd s q e opTenantScrub = some c)
  (hres : reservedOk c [(3, 0xF), (4, 0xFFFF)] = true) (hnot : noNotification s c = false)
  (hcover : c.f 4 0 16 ≠ 0 ∨ scrubFields s (c.f 3 0 4) (c.f 4 0 16) ≠ [])
  (hparts : ∀ p, p < 16 → bitAt (c.f 4 0 16) p = true → ∃ y, partOf s p = some y ∧ y.tenant = c.f 3 0 4 ∧ y.prog = none)
include hrun hres hnot hcover hparts

theorem tenantScrub_accepts : exec (.tenantScrub q e) s =
    .next (scrubWork (accept s c (scrubArgs s (c.f 3 0 4) (c.f 4 0 16))) (c.f 3 0 4) (scrubFields s (c.f 3 0 4) (c.f 4 0 16))) := by
  have hnamed (p : Nat) (hp : p ∈ (List.range 16).filter (bitAt (c.f 4 0 16))) :
      (partOf s p).map (·.tenant) = some (c.f 3 0 4) ∧ (partOf s p).bind (·.prog) = none := by
    obtain ⟨hlt, hbit⟩ := List.mem_filter.mp hp
    obtain ⟨y, hy, hten, hprog⟩ := hparts p (List.mem_range.mp hlt) hbit
    rw [hy, Option.map_some, Option.bind_some, hten]
    exact ⟨rfl, hprog⟩
  have hown : ((List.range 16).filter (bitAt (c.f 4 0 16))).any (fun p => (partOf s p).map (·.tenant) != some (c.f 3 0 4)) = false :=
    List.any_eq_false.mpr fun p hp => by rw [(hnamed p hp).1]; simp
  have hidle : ((List.range 16).filter (bitAt (c.f 4 0 16))).any (fun p => ((partOf s p).bind (·.prog)).isSome) = false :=
    List.any_eq_false.mpr fun p hp => by rw [(hnamed p hp).2]; simp
  have hsome : (decide (c.f 4 0 16 = 0) && (scrubFields s (c.f 3 0 4) (c.f 4 0 16)).isEmpty) = false := by
    rcases hcover with h | h <;> simp [h]
  rw [exec, execTenantScrub, hrun, whenSome_some]
  dsimp only
  rw [hres, hown, hidle, hnot, hsome]
  rfl

theorem tenantScrub_row : ∃ t o, exec (.tenantScrub q e) s = .next t ∧ o ∈ t.fe.ops ∧ o.handle = s.fe.nextHandle ∧ o.opcode = opTenantScrub ∧
    o.q = c.q ∧ o.e = c.e ∧ t.fe.nextHandle = s.fe.nextHandle + 1 ∧
    (∀ k ∈ t.side.contexts, ¬(k.tenant = c.f 3 0 4 ∧ k.field ∈ scrubFields s (c.f 3 0 4) (c.f 4 0 16))) := by
  have hrow := tenantScrub_accepts hrun hres hnot hcover hparts
  generalize scrubArgs s (c.f 3 0 4) (c.f 4 0 16) = args at hrow
  generalize scrubFields s (c.f 3 0 4) (c.f 4 0 16) = fs at hrow ⊢
  have hids := (opIds_scrubWork (accept s c args) (c.f 3 0 4) fs).trans (opIds_accept s c args)
  obtain ⟨hhandle, hops⟩ := Prod.mk.inj hids
  have hmem : (s.fe.nextHandle, c.opcode, c.q, c.e) ∈
      (scrubWork (accept s c args) (c.f 3 0 4) fs).fe.ops.map (fun o => (o.handle, o.opcode, o.q, o.e)) := by
    rw [hops]
    exact List.mem_append_right _ (List.mem_singleton.mpr rfl)
  obtain ⟨o, ho, hid⟩ := List.mem_map.mp hmem
  simp only [Prod.mk.injEq] at hid
  obtain ⟨hh, hop, hq, he⟩ := hid
  obtain ⟨-, -, hopc⟩ := runCmd_some s q e opTenantScrub c hrun
  refine ⟨_, o, hrow, ho, hh, hop.trans hopc, hq, he, hhandle, fun k hk ⟨ht, hf⟩ => ?_⟩
  rw [scrubWork, contexts_freeContexts] at hk
  have hkept := (List.mem_filter.mp hk).2
  simp [ht, hf] at hkept

end

/-! ### SCRUB_COMPLETE -/

/-- What a scrub clears: the marks of the fields, and the golden digests and dumps in the NOR. -/
def scrubbed (s : State) : Table Nat × List Golden × Table Dump := (s.cab.marks, s.nor.golden, s.nor.dumps)

theorem scrubbed_raiseStatus (s : State) (mask : BitVec 16) : scrubbed (raiseStatus s mask) = scrubbed s := by
  unfold raiseStatus
  dsimp only
  split <;> rfl

theorem scrubbed_retireUnit (s : State) (u source : Nat) : scrubbed (retireUnit s u source) = scrubbed s := by
  have hfail (v : State) (cause addr : Nat) : scrubbed (declareNorFailed v cause addr) = scrubbed v := by
    unfold declareNorFailed
    split
    · rfl
    · exact (scrubbed_raiseStatus _ _).trans rfl
  have hemit (v : State) (reason field src tile idx left : Nat) :
      scrubbed (emitQuarantine v 3 reason field src tile idx left) = scrubbed v := rfl
  unfold retireUnit
  split
  · rfl
  · extract_lets a b d
    have hb : scrubbed b = scrubbed s := by
      simp only [b]
      split
      · rfl
      · split <;> rfl
    have hd : scrubbed d = scrubbed s := (hemit b _ _ _ _ _ _).trans hb
    clear_value d
    split
    · exact (hfail d 3 _).trans hd
    · exact hd

theorem scrubbed_eraseUnits (s : State) (us : List Nat) : scrubbed (eraseUnits s us) = scrubbed s := by
  unfold eraseUnits
  induction us generalizing s with
  | nil => rfl
  | cons u us ih =>
    rw [List.foldl_cons, ih]
    dsimp only
    split
    · exact (scrubbed_retireUnit _ u 3).trans rfl
    · rfl

theorem scrubbed_clearAhead (s : State) (k : Nat) : scrubbed (clearAhead s k) = scrubbed s := by
  unfold clearAhead eraseRingSector
  split
  · exact (scrubbed_eraseUnits _ _).trans rfl
  · rfl

theorem scrubbed_moveSector (s : State) : scrubbed (moveSector s) = scrubbed s := by
  unfold moveSector
  rw [scrubbed_clearAhead, scrubbed_clearAhead]
  exact scrubbed_clearAhead s _

theorem scrubbed_ringAppend (s : State) (r : Rec) : scrubbed (ringAppend s r) = scrubbed s := by
  have h : scrubbed (ringAppend s r) = scrubbed (if s.nor.offset + recBytes r ≤ sectorBytes s.nor then s else moveSector s) := rfl
  rw [h]
  split
  · rfl
  · exact scrubbed_moveSector s

theorem scrubbed_noteDropped (s : State) : scrubbed (noteDropped s) = scrubbed s := by
  unfold noteDropped
  split <;> rfl

/-- R327, R339: a commit leaves them alone. -/
theorem scrubbed_commitFront (s : State) : scrubbed (commitFront s) = scrubbed s := by
  unfold commitFront
  split
  · rfl
  · refine (scrubbed_noteDropped _).trans ?_
    split
    · rfl
    · exact (scrubbed_ringAppend _ _).trans rfl

theorem scrubbed_commitAll (s : State) : scrubbed (commitAll s) = scrubbed s := by
  unfold commitAll
  induction List.range (s.cab.queue.length + 1) generalizing s with
  | nil => rfl
  | cons a l ih => rw [List.foldl_cons, ih, scrubbed_commitFront]

theorem scrubbed_writeSnapshot (s : State) : scrubbed (writeSnapshot s) = scrubbed s := by
  unfold writeSnapshot
  split <;> rfl

theorem tfind_foldl_tdel {α : Type} {fs : List Nat} {f : Nat} (hf : f ∈ fs) (m : Table α) : tfind (fs.foldl tdel m) f = none := by
  have hnone (l : List Nat) (m : Table α) (h : tfind m f = none) : tfind (l.foldl tdel m) f = none := by
    induction l generalizing m with
    | nil => exact h
    | cons a l ih =>
      refine ih _ ?_
      by_cases hfa : f = a
      · rw [hfa, tfind_tdel_same]
      · rw [tfind_tdel_other m hfa, h]
  induction fs generalizing m with
  | nil => cases hf
  | cons a fs ih =>
    rw [List.foldl_cons]
    rcases List.mem_cons.mp hf with rfl | hf
    · exact hnone fs _ (tfind_tdel_same m f)
    · exact ih hf _

/-- R458: marks removed; the snapshot that holds them is no part of it. -/
theorem scrubbed_setMarks (s : State) (fs : List Nat) :
    scrubbed (setMarks s fs 0) = (fs.foldl tdel s.cab.marks, s.nor.golden, s.nor.dumps) := by
  have hfold : fs.foldl (fun m f => if 0 = 0 then tdel m f else tset m f 0) s.cab.marks = fs.foldl tdel s.cab.marks := rfl
  unfold setMarks
  rw [hfold]
  dsimp only
  split
  next h => rw [h, scrubbed]
  next => exact (scrubbed_writeSnapshot _).trans rfl

/-- R456: an operation ends for every entry of its handle. -/
theorem final_finishOp (s : State) (h st : Nat) (res : List Word) (x : Op) (hx : x ∈ (finishOp s h st res).fe.ops) (hh : x.handle = h) :
    x.final.isSome = true := by
  obtain ⟨o, -, rfl⟩ := List.mem_map.mp hx
  by_cases hopen : (o.handle == h && o.final.isNone) = true
  · rw [if_pos hopen]
    rfl
  · rw [if_neg hopen] at hh ⊢
    exact Option.isSome_iff_ne_none.mpr (by simpa [hh] using hopen)

/-- R456, R458: the state without the tenant's marks, golden digests and dumps, its snapshot written and its records committed. -/
def scrubCleared (s : State) (t : Nat) (fs : List Nat) : State :=
  let owned := (s.nor.dumps.filter (fun d => d.2.tenant == t)).map (·.1)
  let u := eraseUnits s (owned.flatMap slotUnits)
  commitAll (writeSnapshot (setMarks { u with nor := { u.nor with
    golden := u.nor.golden.filter (fun g => g.tenant != t), dumps := u.nor.dumps.filter (fun d => d.2.tenant != t) } } fs 0))

theorem scrubbed_scrubCleared (s : State) (t : Nat) (fs : List Nat) :
    scrubbed (scrubCleared s t fs) = (fs.foldl tdel s.cab.marks, s.nor.golden.filter (fun g => g.tenant != t),
      s.nor.dumps.filter (fun d => d.2.tenant != t)) := by
  have hunits := scrubbed_eraseUnits s (((s.nor.dumps.filter (fun d => d.2.tenant == t)).map (·.1)).flatMap slotUnits)
  simp only [scrubbed, Prod.mk.injEq] at hunits
  obtain ⟨hmarks, hgolden, hdumps⟩ := hunits
  rw [scrubCleared, scrubbed_commitAll, scrubbed_writeSnapshot, scrubbed_setMarks]
  dsimp only
  rw [hmarks, hgolden, hdumps]

/-- R456: with no row stuck, the fields are zeroed and cleared, and a record is committed before the operation ends. -/
theorem scrubComplete_next {s : State} {h ms : Nat} {o : Op}
    (ho : s.fe.ops.find? (fun x => x.handle == h && x.opcode == opTenantScrub && x.final.isNone) = some o)
    (hc : clocked s = true) (hup : s.hang.fwUp = true) (hnor : s.cab.failed = false) :
    ∃ body seqNo, exec (.scrubComplete h [] ms) s = .next (finishOp (commitAll (emitBody
      (scrubCleared (zeroTiles s (o.args.drop 4)) (o.args.getD 0 0) (o.args.drop 4)) evScrub (o.args.getD 0 0) none body)) h stOk (w64 seqNo)) := by
  have hopen : (clocked s && s.hang.fwUp && !s.cab.failed) = true := by rw [hc, hup, hnor]; rfl
  rw [exec, execScrubComplete, ho, whenSome_some]
  dsimp only
  rw [List.all_nil, if_neg (by simp), hopen, whenOk_true]
  exact ⟨_, _, rfl⟩

theorem scrubComplete_row {s : State} {h ms : Nat} {o : Op}
    (ho : s.fe.ops.find? (fun x => x.handle == h && x.opcode == opTenantScrub && x.final.isNone) = some o)
    (hc : clocked s = true) (hup : s.hang.fwUp = true) (hnor : s.cab.failed = false) :
    ∃ t, exec (.scrubComplete h [] ms) s = .next t ∧ (∀ f ∈ o.args.drop 4, tget t.cab.marks 0 f = 0) ∧
      (∀ g ∈ t.nor.golden, g.tenant ≠ o.args.getD 0 0) ∧ (∀ d ∈ t.nor.dumps, d.2.tenant ≠ o.args.getD 0 0) ∧
      (∀ x ∈ t.fe.ops, x.handle = h → x.final.isSome = true) := by
  obtain ⟨body, seqNo, hrow⟩ := scrubComplete_next (ms := ms) ho hc hup hnor
  generalize hu : emitBody (scrubCleared (zeroTiles s (o.args.drop 4)) (o.args.getD 0 0) (o.args.drop 4)) evScrub (o.args.getD 0 0) none body = u
    at hrow
  have hview : scrubbed u = _ := (congrArg scrubbed hu).symm.trans (scrubbed_scrubCleared (zeroTiles s (o.args.drop 4)) _ _)
  have hlast : scrubbed (finishOp (commitAll u) h stOk (w64 seqNo)) = _ := (scrubbed_commitAll u).trans hview
  simp only [scrubbed, Prod.mk.injEq] at hlast
  obtain ⟨hmarks, hgolden, hdumps⟩ := hlast
  refine ⟨_, hrow, fun f hf => ?_, fun g hg => ?_, fun d hd => ?_, final_finishOp _ _ _ _⟩
  · rw [hmarks, tget, tfind_foldl_tdel hf]
    rfl
  · rw [hgolden] at hg
    simpa using (List.mem_filter.mp hg).2
  · rw [hdumps] at hd
    simpa using (List.mem_filter.mp hd).2

/-! ### KEY_LOAD -/

theorem arm_complete (s : State) (c : Cmd) (st : Nat) (res : List Word) : (complete s c st res).arm = s.arm :=
  arm_of_erase { fe := true, out := true } rfl (by simp)

/-- The record of a key's change leaves the Armoire as the change left it. -/
theorem arm_commitAll_emit (s : State) (typ : Nat) (content : List Nat) : (commitAll (emit s typ content)).arm = s.arm :=
  (arm_of_erase { nor := true, cab := true, hutch := true, out := true, status := true, arrivals := true } rfl (by simp)).trans rfl

section
variable {s : State} {q e : Nat} {c : Cmd} (hrun : runCmd s q e opKeyLoad = some c)
  (hres : reservedOk c [(3, 0x10F), (4, 0xFFFFFFFF), (5, 0xFFFFFFFF), (6, 0xFFFFFFFF)] = true) (hslot : c.f 3 0 4 ≠ 0)
include hrun hres hslot

/-- The Armoire without the tenant's key, or with a new one. -/
def withKeys (s : State) (keys : Table (List Byte)) : State := { s with arm := { s.arm with tenantKeys := keys } }

theorem keyLoad_erases (blob : List Byte) (hb : c.b 3 8 = true) :
    ∃ t u, exec (.keyLoad q e blob) s = .next t ∧ t = complete u c stOk [0] ∧ tfind t.arm.tenantKeys (c.f 3 0 4) = none := by
  have hrow : exec (.keyLoad q e blob) s = .next (complete (if (tfind s.arm.tenantKeys (c.f 3 0 4)).isSome
      then commitAll (emit (withKeys s (tdel s.arm.tenantKeys (c.f 3 0 4))) evKeyLoad [c.f 3 0 4, 0])
      else withKeys s (tdel s.arm.tenantKeys (c.f 3 0 4))) c stOk [0]) := by
    rw [exec, execKeyLoad, hrun, whenSome_some]
    dsimp only
    rw [hres, hb, decide_eq_false hslot]
    rfl
  refine ⟨_, _, hrow, rfl, ?_⟩
  rw [arm_complete]
  split
  · rw [arm_commitAll_emit]
    exact tfind_tdel_same _ _
  · exact tfind_tdel_same _ _

theorem keyLoad_installs (blob : List Byte) (hb : c.b 3 8 = false) (hlen : c.w 6 = 112) : ∃ t u, exec (.keyLoad q e blob) s = .next t ∧
    tfind t.arm.tenantKeys (c.f 3 0 4) = (match unwrapBlob s (c.f 3 0 4) blob with
      | some k => some k | none => tfind s.arm.tenantKeys (c.f 3 0 4)) ∧
    t = (match unwrapBlob s (c.f 3 0 4) blob with | some _ => complete u c stOk [1] | none => complete s c stBadParam []) := by
  have hrow : exec (.keyLoad q e blob) s = .next (match unwrapBlob s (c.f 3 0 4) blob with
      | some k => complete (commitAll (emit (withKeys s (tset s.arm.tenantKeys (c.f 3 0 4) k)) evKeyLoad [c.f 3 0 4, 1])) c stOk [1]
      | none => complete s c stBadParam []) := by
    rw [exec, execKeyLoad, hrun, whenSome_some]
    dsimp only
    rw [hres, hb, hlen, decide_eq_false hslot]
    cases unwrapBlob s (c.f 3 0 4) blob <;> rfl
  cases hkey : unwrapBlob s (c.f 3 0 4) blob with
  | none =>
    rw [hkey] at hrow
    exact ⟨_, s, hrow, by rw [arm_complete], rfl⟩
  | some k =>
    rw [hkey] at hrow
    refine ⟨_, _, hrow, ?_, rfl⟩
    rw [arm_complete, arm_commitAll_emit]
    exact tfind_tset_same _ _ _

end

/-! ### ALARM_ACK -/

/-- R462: with a source to clear, the active and the locked ones lose it. -/
theorem arm_ackAlarm {s : State} {mask : Nat} (h : ackMask s mask ≠ 0) : (ackAlarm s mask).arm.active = s.arm.active &&& (255 - ackMask s mask) ∧
    (ackAlarm s mask).arm.locked = s.arm.locked &&& (255 - ackMask s mask) := by
  unfold ackAlarm
  rw [if_neg h]
  dsimp only
  split <;> exact ⟨rfl, rfl⟩

theorem alarmAck_row {s : State} {q e : Nat} {c : Cmd} (hrun : runCmd s q e opAlarmAck = some c) (hres : reservedOk c [(3, 0xFF)] = true) :
    ∃ t u, exec (.alarmAck q e) s = .next t ∧ t = complete u c stOk [w32 t.arm.active] ∧ (ackMask s (c.f 3 0 8) = 0 → t.arm = s.arm) ∧
      (ackMask s (c.f 3 0 8) ≠ 0 → t.arm.active = s.arm.active &&& (255 - ackMask s (c.f 3 0 8)) ∧
        t.arm.locked = s.arm.locked &&& (255 - ackMask s (c.f 3 0 8))) := by
  have hrow : exec (.alarmAck q e) s = .next (complete (ackAlarm s (c.f 3 0 8)) c stOk [w32 (ackAlarm s (c.f 3 0 8)).arm.active]) := by
    rw [exec, execAlarmAck, hrun, whenSome_some, hres]
    rfl
  refine ⟨_, _, hrow, by rw [arm_complete], fun hnone => ?_, fun hsome => ?_⟩
  · rw [arm_complete, ackAlarm, if_pos hnone]
  · rw [arm_complete]
    exact arm_ackAlarm hsome

/-- Settles O42, row by row; that KEY_LOAD erases with any length in word 6 is the model's choice (log entry 131). -/
theorem securityCommands : Obligations.SecurityCommands := by
  intro s q e c
  exact ⟨fun hrun hres hnot hcover hparts => tenantScrub_row hrun hres hnot hcover hparts,
    fun o ms ho hc hup hnor => scrubComplete_row ho hc hup hnor,
    fun hrun hres hslot => ⟨keyLoad_erases hrun hres hslot, keyLoad_installs hrun hres hslot⟩,
    fun hrun hres => alarmAck_row hrun hres⟩

end Sys2Proof.Machine
end

section
/-! SUPPORT. Stages and waves of bring-up (R431 to R447). -/

namespace Sys2Proof.Machine

/-! ### S0 and S1 -/

/-- R434: a stage's report and its commit leave bring-up, the service port, the wardens' hub, the Armoire and the fields alone. -/
theorem stageReport_keeps (s : State) (stage : Nat) (failed : Bool) (wave cause ms : Nat) (done excl : List Nat) (content : List Word)
    {t : State} (ht : t = commitAll (emitStage s stage failed wave cause ms done excl content)) :
    t.boot = s.boot ∧ t.svc = s.svc ∧ t.hang = s.hang ∧ t.arm = s.arm ∧ t.fields = s.fields := by
  have hreport : erase { nor := true, cab := true, hutch := true, out := true, status := true, arrivals := true } t =
      erase { nor := true, cab := true, hutch := true, out := true, status := true, arrivals := true } s := by simp [ht]
  exact ⟨boot_of_erase _ rfl hreport, svc_of_erase _ rfl hreport, hang_of_erase _ rfl rfl hreport, arm_of_erase _ rfl hreport,
    fields_of_erase _ rfl hreport⟩

/-- R433: a wafer failure stays in its stage; the ROM serves the console for any cause but 0x01. -/
theorem waferFails_boot (s : State) (cause ms : Nat) : (waferFails s cause ms).boot = { s.boot with failed := true } ∧
    (waferFails s cause ms).svc.romOnly = decide (cause ≠ 1) := by
  unfold waferFails
  extract_lets b v u
  obtain ⟨hboot, hsvc, -⟩ := stageReport_keeps u u.boot.stage true 0xFF cause ms [] [] (if u.boot.stage = 0 then contentS0 u else contentS1 u) rfl
  rw [hboot, hsvc]
  exact ⟨rfl, rfl⟩

/-- The NOR and the tray as S0 leaves them. -/
def norUp (s : State) : State := if s.cab.failed then s else bringNorUp s 0

theorem boot_norUp (s : State) : (norUp s).boot = s.boot := boot_of_erase { tray := true } rfl (by simp [norUp])

/-- R435: S0 ends and S1 starts. -/
theorem endWaferStage_zero {s : State} (found : StageFound) (h : s.boot.stage = 0) (hok : s.boot.failed = false) :
    (endWaferStage s found).boot.stage = 1 ∧ (endWaferStage s found).boot.failed = false ∧
      (endWaferStage s found).boot.started = (endWaferStage s found).now := by
  have hend : endWaferStage s found = enterStage (commitAll (emitStage (norUp s) 0 false 0xFF found.cause found.durationMs allFields []
      (contentS0 (norUp s)))) 1 := by
    rw [endWaferStage, if_pos h]
    rfl
  generalize hu : commitAll (emitStage (norUp s) 0 false 0xFF found.cause found.durationMs allFields [] (contentS0 (norUp s))) = u at hend
  obtain ⟨hboot, -⟩ := stageReport_keeps _ _ _ _ _ _ _ _ _ hu.symm
  rw [hend, enterStage]
  dsimp only
  rw [hboot, boot_norUp]
  exact ⟨rfl, hok, rfl⟩

/-- A field that begins S2. -/
def inStageTwo (x : Field) : Field := { x with stage := 2 }

/-- R436, R437: S1's work is done and reported, then the wardens start. -/
theorem endWaferStage_one {s : State} (found : StageFound) (h : s.boot.stage = 1) : ∃ u : State, endWaferStage s found =
    modFields ((startFields u).foldl startWarden u) (allFields.filter (fun f => (fieldOf ((startFields u).foldl startWarden u) f).zoneDown))
      inStageTwo ∧
    u.boot.stage = 2 ∧ u.boot.s1 = true ∧ u.hang.fwUp = true ∧ u.arm.unsealed = found.unsealed ∧ u.fields = s.fields := by
  unfold endWaferStage
  rw [if_neg (by omega)]
  extract_lets b u v w x y
  have hup : u.hang.fwUp = true := rfl
  have hsealed : u.arm.unsealed = found.unsealed := rfl
  have hkept : u.fields = s.fields := rfl
  obtain ⟨-, -, hhang, harm, hfields⟩ := stageReport_keeps u 1 false 0xFF found.cause found.durationMs allFields [] (contentS1 u) (t := v) rfl
  clear_value v u
  exact ⟨x, rfl, rfl, rfl, (congrArg (·.fwUp) hhang).trans hup, (congrArg (·.unsealed) harm).trans hsealed, hfields.trans hkept⟩

/-- R32: the warden of an even field waits for no partner. -/
theorem partnerOn_even (s : State) {f : Nat} (h : f % 2 = 0) : partnerOn s f = true := by simp [partnerOn, h]

/-- R437: S2 starts the wardens of the fields that have power and are not excluded. -/
theorem fieldOf_startWardens (s : State) {f : Nat} (hf : f ∈ startFields s) :
    (fieldOf ((startFields s).foldl startWarden s) f).stage = 2 ∧
      (f % 2 = 0 → (fieldOf ((startFields s).foldl startWarden s) f).warden = .starting) := by
  have hstart (u : State) : (fieldOf (startWarden u f) f).stage = 2 ∧ (f % 2 = 0 → (fieldOf (startWarden u f) f).warden = .starting) := by
    rw [startWarden, fieldOf_modField]
    exact ⟨rfl, fun heven => by rw [partnerOn_even u heven]; rfl⟩
  exact fieldOf_foldl_mem (u := startWarden) (P := fun x => x.stage = 2 ∧ (f % 2 = 0 → x.warden = .starting))
    (fun u g k hk => fieldOf_modField_other u g k _ hk) hstart hf s

theorem endWaferStage_startsWardens {s : State} (found : StageFound) (h : s.boot.stage = 1) :
    (endWaferStage s found).boot.stage = 2 ∧ (endWaferStage s found).boot.s1 = true ∧ (endWaferStage s found).hang.fwUp = true ∧
      (endWaferStage s found).arm.unsealed = found.unsealed ∧
      ∀ f, f < 84 → (fieldOf s f).excluded = false → (fieldOf s f).zoneDown = false →
        (fieldOf (endWaferStage s found) f).stage = 2 ∧ (f % 2 = 0 → (fieldOf (endWaferStage s found) f).warden = .starting) := by
  obtain ⟨u, hend, hstage, hs1, hup, hsealed, hfields⟩ := endWaferStage_one found h
  rw [hend]
  have hkeep : erase { fields := true } (modFields ((startFields u).foldl startWarden u)
      (allFields.filter (fun f => (fieldOf ((startFields u).foldl startWarden u) f).zoneDown)) inStageTwo) =
      erase { fields := true } u := by simp
  refine ⟨(congrArg (·.stage) (boot_of_erase _ rfl hkeep)).trans hstage, (congrArg (·.s1) (boot_of_erase _ rfl hkeep)).trans hs1,
    (congrArg (·.fwUp) (hang_of_erase _ rfl rfl hkeep)).trans hup, (congrArg (·.unsealed) (arm_of_erase _ rfl hkeep)).trans hsealed,
    fun f hf hin hpow => ?_⟩
  have hmem : f ∈ startFields u := by
    rw [startFields, List.mem_filter, fieldOf_of_fields hfields, hin, hpow]
    exact ⟨List.mem_range.mpr hf, rfl⟩
  obtain ⟨htwo, hstart⟩ := fieldOf_startWardens u hmem
  refine ⟨?_, fun heven => (read_of_fieldView (π := (·.warden)) (fieldView_modFields _ _ inStageTwo fun x => rfl) f).trans (hstart heven)⟩
  by_cases hz : f ∈ allFields.filter (fun f => (fieldOf ((startFields u).foldl startWarden u) f).zoneDown)
  · exact fieldOf_modFields_mem (P := fun x => x.stage = 2) _ (fun x => rfl) hz
  · rw [fieldOf_modFields_other _ _ hz]
    exact htwo

/-! ### The rows of S0 to S2 -/

section
variable {s : State} (hc : clocked s = true) (hhub : s.arb.hubOff = false) (hok : s.boot.failed = false)
include hc hhub hok

/-- R431: S0 or S1 ends within its limit, with a wafer failure or well. -/
theorem stageComplete_wafer {found : StageFound} (hstage : s.boot.stage ≤ 1) (hin : stageOverdue s = false) (hredo : found.redo = false) :
    exec (.stageComplete found) s = .next (if found.waferFail then waferFails s found.cause found.durationMs
      else if s.boot.stage = 0 && !boardGood s then waferFails s 2 found.durationMs else endWaferStage s found) := by
  rw [exec, execStageComplete, hc, hok, hhub, hredo, hin, if_pos hstage]
  rfl

theorem stageTimeout_fails (hrep : s.boot.reported = false) (hlate : stageOverdue s = true) (hstage : s.boot.stage ≤ 1) :
    exec .stageTimeout s = .next (waferFails s 0x0A (stageMs s)) := by
  rw [exec, execStageTimeout, hc, hok, hhub, hlate]
  dsimp only
  rw [hrep, if_pos hstage]
  rfl

end

theorem fieldOf_enterStage (s : State) (n f : Nat) : fieldOf (enterStage s n) f = fieldOf s f := rfl

theorem fieldOf_setReducedBit (s : State) (f : Nat) : fieldOf (setReducedBit s) f = fieldOf s f :=
  fieldOf_of_fields (fields_of_erase { out := true, status := true } rfl (by simp)) f

/-- R433: a field that leaves bring-up is excluded, and one that was excluded stays so. -/
theorem excluded_excludeFields (s : State) {fs : List Nat} {f : Nat} (stage cause : Nat) (h : f ∈ fs ∨ (fieldOf s f).excluded = true) :
    (fieldOf (excludeFields s fs stage cause) f).excluded = true := by
  unfold excludeFields
  extract_lets u
  have hother (v : State) (g k : Nat) (hk : k ≠ g) : fieldOf (excludeField v g stage cause) k = fieldOf v k :=
    fieldOf_modField_other v g k _ hk
  have hu : (fieldOf u f).excluded = true := by
    by_cases hf : f ∈ fs
    · exact fieldOf_foldl_mem (P := fun x => x.excluded = true) hother (fun v => by rw [excludeField, fieldOf_modField]) hf s
    · rw [show fieldOf u f = fieldOf s f from fieldOf_foldl_other hother hf s]
      exact h.resolve_left hf
  refine (congrArg (·.excluded) (fieldOf_setReducedBit _ f)).trans ?_
  exact hu

/-- The fields that have not ended S2 (R433). -/
def stageTwoFields (s : State) : List Nat := allFields.filter (fun f => (fieldOf s f).stage == 2 && !(fieldOf s f).excluded)

/-- R448: nothing is reported before S4. -/
theorem settleBoot_early {s : State} (h : s.boot.stage < 4) : settleBoot s = s := by
  rw [settleBoot, decide_eq_true h, Bool.or_true, Bool.true_or, if_pos rfl]

theorem stageTimeout_excludes {s : State} (hc : clocked s = true) (hhub : s.arb.hubOff = false) (hok : s.boot.failed = false)
    (hrep : s.boot.reported = false) (hlate : stageOverdue s = true) (hstage : s.boot.stage = 2) :
    ∃ t, exec .stageTimeout s = .next t ∧ t.boot.stage = 3 ∧ ∀ f, f < 84 → (fieldOf s f).stage = 2 → (fieldOf t f).excluded = true := by
  have hrow : exec .stageTimeout s = .next (settleBoot (enterStage (commitAll (emitStage (excludeFields s (stageTwoFields s) 2 0x0A) 2 false
      0xFF 0x0A (stageMs (excludeFields s (stageTwoFields s) 2 0x0A)) [] (stageTwoFields s) [])) 3)) := by
    have hgo : (clocked s && !s.boot.failed && !s.arb.hubOff && !s.boot.reported && stageOverdue s) = true := by
      rw [hc, hok, hhub, hrep, hlate]
      rfl
    rw [exec, execStageTimeout]
    dsimp only
    rw [hgo, if_neg (by decide), hstage, if_neg (by decide), if_pos (by decide), stageTwoFields]
  rw [settleBoot_early (show 3 < 4 by decide)] at hrow
  refine ⟨_, hrow, rfl, fun f hf htwo => ?_⟩
  have hout : (fieldOf (excludeFields s (stageTwoFields s) 2 0x0A) f).excluded = true := by
    refine excluded_excludeFields s 2 0x0A ?_
    cases hx : (fieldOf s f).excluded
    · exact .inl (List.mem_filter.mpr ⟨List.mem_range.mpr hf, by rw [htwo, hx]; rfl⟩)
    · exact .inr rfl
  generalize excludeFields s (stageTwoFields s) 2 0x0A = u at hout ⊢
  obtain ⟨-, -, -, -, hfields⟩ := stageReport_keeps u 2 false 0xFF 0x0A (stageMs u) [] (stageTwoFields s) [] rfl
  rw [fieldOf_enterStage, fieldOf_of_fields hfields, hout]

/-- R437: the first two failed starts of a warden are counted. -/
theorem wardenStartFail_counts {s : State} {f : Nat} (hc : clocked s = true) (hf : f < 84) (hw : (fieldOf s f).warden = .starting)
    (hin : (fieldOf s f).excluded = false) (hfew : (fieldOf s f).starts < 2) :
    exec (.wardenStartFail f) s = .next (setField s f { fieldOf s f with starts := (fieldOf s f).starts + 1 }) := by
  have hmin : min 3 ((fieldOf s f).starts + 1) = (fieldOf s f).starts + 1 := by omega
  have hlow : (fieldOf s f).starts + 1 < 3 := by omega
  rw [exec, execWardenStartFail, if_neg (by omega), hc, hw, hin]
  dsimp only
  rw [fieldOf_modField, modField, hmin, if_pos hlow]
  rfl

theorem bringUpStages : Says.BringUpStages := by
  intro s hc hhub
  refine ⟨fun hok hstage hin found hredo => ?_, fun hok hrep hlate hstage => ?_, stageTimeout_excludes hc hhub,
    fun f hf hw hx hfew => wardenStartFail_counts hc hf hw hx hfew⟩
  · have hrow := stageComplete_wafer hc hhub hok hstage hin hredo
    refine ⟨fun hfail => ?_, fun hfail hzero hgood => ?_, fun hfail hzero hbad => ?_, fun hfail hone => ?_⟩
    · rw [hfail, if_pos rfl] at hrow
      obtain ⟨hboot, hrom⟩ := waferFails_boot s found.cause found.durationMs
      exact ⟨_, hrow, by rw [hboot], by rw [hboot], hrom⟩
    · rw [hfail, hgood] at hrow
      exact ⟨_, by simpa using hrow, endWaferStage_zero found hzero hok⟩
    · rw [hfail, hbad, hzero] at hrow
      obtain ⟨hboot, hrom⟩ := waferFails_boot s 2 found.durationMs
      exact ⟨_, by simpa using hrow, by rw [hboot, hzero], by rw [hboot], hrom⟩
    · rw [hfail, hone] at hrow
      exact ⟨_, by simpa using hrow, endWaferStage_startsWardens found hone⟩
  · obtain ⟨hboot, -⟩ := waferFails_boot s 0x0A (stageMs s)
    exact ⟨_, stageTimeout_fails hc hhub hok hrep hlate hstage, by rw [hboot]⟩

/-! ### Waves -/

/-- What a reading of a field needs for the start of a wave to leave it alone. -/
def waveView (x : Field) : Nat × Bool := (x.stage, x.deferred)

theorem waveView_startTestRails (s : State) (f : Nat) : fieldView waveView (startTestRails s f) = fieldView waveView s := by
  have hvsram (u : State) (v : Nat) : fieldView waveView (queueVsram u f v) = fieldView waveView u := rfl
  unfold startTestRails
  extract_lets mv u
  refine (fieldView_foldl _ hvsram _ u).trans ?_
  exact (fieldView_of_fields (s := modField s f (fun x => { x with clock := 1000 })) rfl).trans (fieldView_modField f _ rfl)

/-- A field of a wave at the stage from which the wave starts. -/
def wavingField (stage : Nat) (x : Field) : Field :=
  { x with reduced := false, quickFailed := [], excluded := false, exclCause := 0, stage := stage, run := .idle }

/-- R439: the start of a wave leaves every field's stage and deferral as its own change of the fields left them. -/
theorem waveView_startWave (s : State) (fs deferred : List Nat) (stage w : Nat) :
    fieldView waveView (startWave s fs deferred stage w) = fieldView waveView (modFields s fs (wavingField stage)) := by
  unfold startWave
  extract_lets a b d e
  have hb : fieldView waveView b = fieldView waveView a := by
    simp only [b]
    split
    · exact fieldView_foldl _ waveView_startTestRails fs a
    · rfl
  have hd : fieldView waveView d = fieldView waveView b :=
    fieldView_foldl _ (fun u f => fieldView_modField f _ rfl) fs b
  refine (fieldView_of_fields (fields_of_erase { out := true, status := true } rfl (erase_setReducedBit _ _ rfl rfl))).trans ?_
  exact hd.trans hb

theorem boot_startWave (s : State) (fs deferred : List Nat) (stage w : Nat) : (startWave s fs deferred stage w).boot.inWave = fs ∧
    (startWave s fs deferred stage w).boot.waveStage = stage ∧ (startWave s fs deferred stage w).boot.wave = s.boot.wave + 1 ∧
    (startWave s fs deferred stage w).boot.pendingFields = s.boot.pendingFields.filter (fun f => !fs.contains f && !deferred.contains f) := by
  unfold startWave
  extract_lets a b d b' e
  have hd : d.boot = s.boot := boot_of_erase { fields := true, arb := true } rfl (by simp [a, b, d])
  clear_value d
  rw [boot_of_erase { out := true, status := true } rfl (erase_setReducedBit _ e rfl rfl), ← hd]
  exact ⟨rfl, rfl, rfl, rfl⟩

/-- The first candidates of a wave that have no program loaded, in their order. -/
def ownFields (s : State) (w : Nat) : List Nat := (s.boot.pendingFields.take w).filter (fun f => !fieldLoaded s f)

/-- Those with a program loaded, which are deferred. -/
def lateFields (s : State) (w : Nat) : List Nat := (s.boot.pendingFields.take w).filter (fieldLoaded s)

/-- R447: the fields that are not deferred are those without a program. -/
theorem ownFields_eq (s : State) (w : Nat) :
    (s.boot.pendingFields.take w).filter (fun f => !(lateFields s w).contains f) = ownFields s w := by
  refine List.filter_congr fun f hf => ?_
  cases hload : fieldLoaded s f <;> simp [lateFields, hf, hload]

/-- A field deferred to a later wave. -/
def deferredField (x : Field) : Field := { x with deferred := true }

section
variable {s : State} {w : Nat} (hc : clocked s = true) (hup : s.hang.fwUp = true) (hok : s.boot.failed = false)
  (hstage : 4 ≤ s.boot.stage) (hidle : s.boot.inWave = []) (hredo : s.boot.redo = [])
  (hw : w = waveLimit s (s.boot.pendingFields ++ joiners s)) (hroom : 1 ≤ w)
  (hown : ∃ f ∈ s.boot.pendingFields.take w, fieldLoaded s f = false)
include hc hup hok hstage hidle hredo hw hroom hown

/-- R439, R447: with nothing to repeat, the wave takes candidates without a program and fills its room with fields that join. -/
theorem waveStart_next : exec .waveStart s = .next (startWave (modFields s (lateFields s w) deferredField)
    (ownFields s w ++ (joiners s).take (w - (ownFields s w).length)) (lateFields s w) 4 w) := by
  obtain ⟨f, hf, hload⟩ := hown
  have hnone : redoWave s = ([], 4) := by simp [redoWave, redoFields, hredo]
  have hcands : (s.boot.pendingFields ++ joiners s).isEmpty = false := by
    have hmem := List.mem_of_mem_take hf
    cases hp : s.boot.pendingFields <;> simp_all
  have hgo : (clocked s && s.hang.fwUp && !s.boot.failed && decide (4 ≤ s.boot.stage) && s.boot.inWave.isEmpty &&
      !(s.boot.pendingFields ++ joiners s).isEmpty && decide (1 ≤ w)) = true := by
    simp [hc, hup, hok, hstage, hidle, hcands, hroom]
  have hsome : (ownFields s w ++ (joiners s).take (w - (ownFields s w).length)).isEmpty = false := by
    have hmem : f ∈ ownFields s w := List.mem_filter.mpr ⟨hf, by rw [hload]; rfl⟩
    cases ho : ownFields s w <;> simp_all
  rw [exec, execWaveStart, hnone]
  dsimp only
  rw [List.isEmpty_nil, Bool.not_true, if_neg Bool.false_ne_true, if_neg Bool.false_ne_true, ← hw, hgo, if_neg (by decide)]
  have heq := ownFields_eq s w
  rw [lateFields] at heq
  rw [heq, hsome, if_neg Bool.false_ne_true, if_neg Bool.false_ne_true]
  rfl

theorem waveStarts_row : ∃ t, exec .waveStart s = .next t ∧ t.boot.inWave = ownFields s w ++ (joiners s).take (w - (ownFields s w).length) ∧
    t.boot.waveStage = 4 ∧ t.boot.wave = s.boot.wave + 1 ∧ (∀ f ∈ t.boot.inWave, (fieldOf t f).stage = 4 ∧ f ∉ t.boot.pendingFields) ∧
    ∀ f ∈ s.boot.pendingFields.take w, fieldLoaded s f = true → (fieldOf t f).deferred = true ∧ f ∉ t.boot.pendingFields := by
  refine ⟨_, waveStart_next hc hup hok hstage hidle hredo hw hroom hown, ?_⟩
  generalize ownFields s w ++ (joiners s).take (w - (ownFields s w).length) = fs
  obtain ⟨hin, hst, hwave, hpend⟩ := boot_startWave (modFields s (lateFields s w) deferredField) fs (lateFields s w) 4 w
  have hview := waveView_startWave (modFields s (lateFields s w) deferredField) fs (lateFields s w) 4 w
  generalize startWave (modFields s (lateFields s w) deferredField) fs (lateFields s w) 4 w = t at *
  rw [boot_of_erase (s := s) { fields := true } rfl (erase_modFields _ _ _ _ rfl)] at hwave
  refine ⟨hin, hst, hwave, fun f hf => ⟨?_, ?_⟩, fun f hf hload => ⟨?_, ?_⟩⟩
  · rw [hin] at hf
    have hfour := fieldOf_modFields_mem (P := fun x => x.stage = 4) (h := wavingField 4) (modFields s (lateFields s w) deferredField)
      (fun x => rfl) hf
    exact (congrArg Prod.fst (read_of_fieldView hview f)).trans hfour
  · rw [hin] at hf
    rw [hpend]
    simp [hf]
  · have hlate : f ∈ lateFields s w := List.mem_filter.mpr ⟨hf, hload⟩
    have hdef := fieldOf_modFields_mem (P := fun x => x.deferred = true) (h := deferredField) s (fun x => rfl) hlate
    have hkeep := read_of_fieldView (π := (·.deferred)) (fieldView_modFields (modFields s (lateFields s w) deferredField) fs (wavingField 4) fun x => rfl) f
    exact (congrArg Prod.snd (read_of_fieldView hview f)).trans (hkeep.trans hdef)
  · have hlate : f ∈ lateFields s w := List.mem_filter.mpr ⟨hf, hload⟩
    rw [hpend]
    simp [hlate]

end

theorem waveStarts : Says.WaveStarts := by
  intro s w hc hup hok hstage hidle hredo hw hroom hown own rfl
  exact waveStarts_row hc hup hok hstage hidle hredo hw hroom hown

/-- Settles O55: the rows of the stages and of a wave's start. That fields which join take the room of deferred ones in their order is log
entry 184; the limit of a wave and the CRC of the board descriptor are log entry 144. -/
theorem bringUpRows : Obligations.BringUpRows := ⟨bringUpStages, waveStarts⟩

end Sys2Proof.Machine
end
